-- ==== Sys2Proof/Word.lean ====
section
/-! DEFINITION. The bit-vector types of the part: the bytes of ship-link telegrams (R174) and the CRC register (R160).
Every other quantity of the part is an exact whole number (R1) and is a `Nat` or an `Int`. -/

namespace Sys2Proof

/-- One byte of a ship-link telegram, or the 8-bit code of one record character (R160, R174). -/
abbrev Byte := BitVec 8

/-- The register of the CRC-16 (R160). -/
abbrev CrcReg := BitVec 16

/-- A hose line, 0-based: line number `n` of the manual is `n - 1` here. -/
abbrev LineId := Fin 4

/-- A receiving tank, 0-based: tank number `n` of the manual is `n - 1` here. -/
abbrev TankId := Fin 16

end Sys2Proof
end

