-- ==== Sys2Proof/Config.lean ====
section
/-! DEFINITION. What a commissioning fixes (the line-limits record, R175) and the free values of the model: constants
without a body, about which nothing can be proved (log 9, 10, 14, 15, 16). -/

namespace Sys2Proof

/-- A line-limits record: the fourteen fields in the order of R175. -/
structure Limits where
  /-- P_rated, kPa -/
  pRated : Nat
  /-- max flow, L/min -/
  qMax : Nat
  /-- surge coefficient K -/
  k : Nat
  /-- drain volume Vd, L -/
  vd : Nat
  /-- meter factor F, pulses per 100 L -/
  f : Nat
  /-- warn_run, mm -/
  warnRun : Nat
  /-- warn_settle, mm -/
  warnSettle : Nat
  /-- stretch trip limit, mm -/
  tripLimit : Nat
  /-- T_min, ds -/
  tMin : Nat
  /-- T_max, ds -/
  tMax : Nat
  /-- start opening, permille -/
  startOpening : Nat
  /-- loop step, permille -/
  loopStep : Nat
  /-- topping rate, L/min -/
  qTop : Nat
  /-- manual cap, L/min -/
  qCap : Nat
  deriving DecidableEq, Repr

/-- FREE VALUE (log 9). The stored form of a record, over which its CRC-16 is taken. R176 takes the CRC "over the
fourteen fields in their stored form" and no rule gives that form. -/
opaque Config.storedForm : Limits → List Byte

/-- FREE VALUE (log 10). The check kept beside the stored limits-lock flag. R175 gives the flag "a check of its own"
and no rule says which. -/
opaque Config.lockCheck : Bool → CrcReg

/-! FREE VALUES of a line number and the part clock, for figures asked for before the sample event that gives them. -/

/-- FREE VALUE (log 14). The pressure of a line that has had no pressure sample since its reset, kPa. -/
opaque Config.unreadPressure : Nat → Nat → Nat

/-- FREE VALUE (log 14). The valve position of a line that has had no position sample since its reset, permille. -/
opaque Config.unreadPosition : Nat → Nat → Nat

/-- FREE VALUE (log 14, log 16). The measured flow of a line where none has been formed yet, L/min. -/
opaque Config.unformedFlow : Nat → Nat → Nat

/-- FREE VALUE (log 15). The surge-allowed flow of a line where none has been formed yet, L/min. -/
opaque Config.unformedSurge : Nat → Nat → Nat

end Sys2Proof
end

