-- ==== Sys2Proof/Syntax.lean ====
section
/-! DEFINITION. The commands of the part: `Instr`, one constructor per row of spec/opcode_table.json, with the operands
the rules give each of them. -/

namespace Sys2Proof

/-- A loop reading, or the state of the part's own ESD contact (R143). -/
inductive Contact where
  | opened
  | closed
  deriving DecidableEq, Repr

/-- What one sample event carries (R2): the meter pulses and the three readings, `none` for a transmitter whose signal
is out of range. -/
structure Sample where
  pulses : Nat
  pressure : Option Nat
  stretch : Option Nat
  position : Option Nat
  deriving DecidableEq, Repr

/-- A field of a request record as the port reads it: a number of 1 to 9 digits, or any other word (R159, R162). -/
inductive Field where
  | num (n : Nat)
  | word (w : String)
  deriving DecidableEq, Repr

/-- A number field, `none` when it is missing or is not 1 to 9 digits (R162). -/
abbrev NumField := Option Nat

/-- The ship valve words of SOUND (R89), `none` in the operand when the word is neither. -/
inductive ValveWord where
  | opened
  | closed
  deriving DecidableEq, Repr

/-- The modes of a LOOP request (R71). -/
inductive LoopWord where
  | auto
  | freeze
  | set (opening : Nat)
  deriving DecidableEq, Repr

/-- The tanks of a RELEASE request (R92): ALL, or a list of number fields. -/
inductive TankWords where
  | all
  | list (tanks : List NumField)
  deriving DecidableEq, Repr

/-- The alarm kinds (R152). -/
inductive AlarmKind where
  | esdIn
  | overpressure
  | stretchTrip
  | sensorFault
  | valveTravel
  | overrun
  | consoleEsd
  | overfill
  | stretchWarn
  | flowUnsteady
  | strokeFailed
  | changeoverLate
  | linkLost
  deriving DecidableEq, Repr

/-- An object word of ACK as received (R155): L or T with a number, LINK, LOOP, PART, or a word that is none of them. -/
inductive ObjectWord where
  | line (number : Nat)
  | tank (number : Nat)
  | link
  | loop
  | part
  | other
  deriving DecidableEq, Repr

/-- The commands of the part. The rule that gives each its meaning is the row's rule in spec/opcode_table.json. -/
inductive Instr where
  /-- SAMPLE_EVENT (R2) -/
  | sampleEvent (line : LineId) (sample : Sample)
  /-- SENSOR_FAULT (R4) -/
  | sensorFault (line : LineId)
  /-- OVERPRESSURE (R8) -/
  | overpressure (line : LineId)
  /-- STRETCH_WARN_CLEAR (R11) -/
  | stretchWarnClear (line : LineId)
  /-- STRETCH_TRIP (R12) -/
  | stretchTrip (line : LineId)
  /-- ENTER_STEADY (R13) -/
  | enterSteady (line : LineId)
  /-- FLOW_UNSTEADY (R14) -/
  | flowUnsteady (line : LineId)
  /-- TRACKING_CHECK_FAIL (R29) -/
  | trackingCheckFail (line : LineId)
  /-- OPEN_TIMEOUT (R31) -/
  | openTimeout (line : LineId)
  /-- SETTLE_END (R31) -/
  | settleEnd (line : LineId)
  /-- CLOSE_TIMEOUT (R32) -/
  | closeTimeout (line : LineId)
  /-- TAKEOVER (R70) -/
  | takeover (line : LineId)
  /-- CONNECT (R40) -/
  | connect (line grade : Nat)
  /-- DISCONNECT (R41) -/
  | disconnect (line : Nat)
  /-- STROKE (R42) -/
  | stroke (line : Nat)
  /-- STROKESET (R35), `none` for NONE -/
  | strokeset (line : Nat) (time : Option Nat)
  /-- PERMIT without CONFIRM (R61) -/
  | permit (line : Nat)
  /-- PERMIT with CONFIRM (R61) -/
  | permitConfirm (line : Nat)
  /-- START (R44) -/
  | start (line : Nat) (rate : NumField)
  /-- RATE (R72) -/
  | rate (line : Nat) (target : NumField)
  /-- LOOP (R71), `none` for a mode the rule refuses SYNTAX -/
  | loop (line : Nat) (mode : Option LoopWord)
  /-- HOLD (R51) -/
  | hold (line : Nat)
  /-- RESUME (R52) -/
  | resume (line : Nat)
  /-- FINISH (R53) -/
  | finish (line : Nat)
  /-- ASSIGN (R90) -/
  | assign (line : Nat) (tanks : List NumField)
  /-- RELEASE (R92) -/
  | release (line : Nat) (tanks : TankWords)
  /-- FILL (R81) -/
  | fill (tank : Nat) (limit : NumField)
  /-- SOUND (R89) -/
  | sound (tank : Nat) (volume : NumField) (valve : Option ValveWord)
  /-- LINKSTART (R130) -/
  | linkstart
  /-- GAUGING MANUAL (R141) -/
  | gaugingManual
  /-- GAUGING LINKED (R141) -/
  | gaugingLinked
  /-- ESD (R149) -/
  | esd
  /-- CLEAR of a line (R58) -/
  | clear (line : Nat)
  /-- CLEAR ALL (R150) -/
  | clearAll
  /-- CLEAR TANK (R108) -/
  | clearTank (tank : Nat)
  /-- ACK (R155); `none` is ALL, and a kind word that is no alarm kind is `none` in the list -/
  | ack (objects : Option (List ObjectWord)) (kinds : Option (List (Option AlarmKind)))
  /-- SET (R172): the fields after the keyword -/
  | set (fields : List Field)
  /-- LIMITS (R178) -/
  | limits (line : Nat) (values : List NumField)
  /-- LOCK (R177) -/
  | lock
  /-- UNLOCK (R177) -/
  | unlock
  /-- MASK (R168): the fields after the keyword -/
  | mask (fields : List String)
  /-- RESTART (R173) -/
  | restart
  /-- READ STATUS (R171) -/
  | readStatus
  /-- READ LINE (R169) -/
  | readLine (line : Nat)
  /-- READ TANK (R170) -/
  | readTank (tank : Nat)
  /-- READ TANKS (R170) -/
  | readTanks
  /-- READ SET (R171) -/
  | readSet
  /-- READ LIMITS (R171) -/
  | readLimits (line : Nat)
  /-- RECORD_REJECTED (R162): the characters of a line up to its line feed -/
  | recordRejected (chars : String)
  /-- REPLY_SENT (R164) -/
  | replySent
  /-- NOTICE_SENT (R165) -/
  | noticeSent
  /-- HEADER_REPLY (R131): the bytes of the telegram -/
  | headerReply (telegram : List Byte)
  /-- ENTRY_REPLY without MORE (R131) -/
  | entryReply (telegram : List Byte)
  /-- CONTINUATION (R125) -/
  | continuation (telegram : List Byte)
  /-- CONTINUATION_TIMEOUT (R125) -/
  | continuationTimeout
  /-- LEVEL_REPLY (R140) -/
  | levelReply (telegram : List Byte)
  /-- PERMIT_REPLY (R137) -/
  | permitReply (telegram : List Byte)
  /-- ADVICE_REPLY (R136) -/
  | adviceReply (telegram : List Byte)
  /-- ALIVE_REPLY (R135) -/
  | aliveReply (telegram : List Byte)
  /-- REPLY_WINDOW_EXPIRED (R124) -/
  | replyWindowExpired
  /-- LINK_LOST (R129) -/
  | linkLost
  /-- LINK_RECOVERED (R129) -/
  | linkRecovered
  /-- LOOP_READING_CHANGE (R145): the new reading -/
  | loopReadingChange (reading : Contact)
  /-- FAR_LOOP_READING_CHANGE (R146): the new reading -/
  | farLoopReadingChange (reading : Contact)
  /-- KEY_INPUT_CHANGE (R177): whether the key now reads ON -/
  | keyInputChange (on : Bool)
  /-- CHANGEOVER_LATE (R93) -/
  | changeoverLate (tank : TankId)
  /-- LIMITS_WRITE_END (R180) -/
  | limitsWriteEnd
  /-- POWER_ON (R183): the loop and far-loop readings at the end of the reset (R143) -/
  | powerOn (loop far : Contact)
  /-- RESET_INPUT (R183): the loop and far-loop readings at the end of the reset (R143) -/
  | resetInput (loop far : Contact)
  /-- STARTUP_END (R182) -/
  | startupEnd
  /-- HELD_LINE (R164): the characters of a line up to its line feed -/
  | heldLine (chars : String)
  /-- ENTRY_REPLY with MORE (R125) -/
  | entryReplyMore (telegram : List Byte)
  deriving DecidableEq, Repr

end Sys2Proof
end

