-- ==== Sys2Proof/Machine/State.lean ====
section
/-! DEFINITION. The state of the part as plain data, its reasons to stop, and the state right after reset. Every field
cites the rule that names it. -/

namespace Sys2Proof.Machine

/-! ### The line supervisor (R38, R63, R19) -/

/-- The start-up phase (R182). -/
inductive Phase where
  | starting
  | running
  deriving DecidableEq, Repr

/-- The ten line states (03_the_line_sequence.md). -/
inductive LineState where
  | disconnected
  | connected
  | stroking
  | opening
  | delivering
  | holding
  | held
  | finishing
  | tripping
  | tripped
  deriving DecidableEq, Repr

/-- The six hold causes (R47). -/
inductive HoldCause where
  | operator
  | tankFull
  | noOutlet
  | link
  | stretch
  | ship
  deriving DecidableEq, Repr

/-- The six line trip causes (R55). -/
inductive TripCause where
  | esdIn
  | overpressure
  | stretchTrip
  | sensorFault
  | valveTravel
  | overrun
  deriving DecidableEq, Repr

/-- The sequence state of a line (R38). The two sets are lists in report order, each member once. -/
structure Seq where
  state : LineState
  grade : Option Nat
  holds : List HoldCause
  trips : List TripCause
  /-- the ship permit is held -/
  permit : Bool
  /-- the pump-permit relay is on -/
  pump : Bool
  deriving DecidableEq, Repr

inductive LoopMode where
  | auto
  | freeze
  | set
  deriving DecidableEq, Repr

/-- The term that gave target_eff its value (R64). -/
inductive Governing where
  | console
  | maxflow
  | surge
  | topping
  | manual
  deriving DecidableEq, Repr

/-- The reason of a takeover (R69). -/
inductive TakeoverReason where
  | topping
  | surge
  | maxflow
  deriving DecidableEq, Repr

/-- The rate-control state of a line (R38, R63). -/
structure Rate where
  /-- console rate target, L/min -/
  target : Nat
  mode : LoopMode
  pendingTarget : Option Nat
  /-- console opening, permille -/
  opening : Option Nat
  /-- topping throttle -/
  throttle : Bool
  /-- target_eff, L/min -/
  eff : Option Nat
  governing : Option Governing
  surgeRun : Nat
  maxRun : Nat
  /-- takeover mark -/
  mark : Option TakeoverReason
  /-- the loop mode in force waits for the next drive step in DELIVERING, and no takeover is found before it (R70, R71;
  the model's own, log 54) -/
  loopWaits : Bool
  deriving DecidableEq, Repr

/-- The stretch band (R9). -/
inductive Band where
  | settling
  | running
  deriving DecidableEq, Repr

/-- The measurement state of a line (R19). -/
structure Meas where
  /-- the pulse counts of the last five sample events, oldest first (R5) -/
  window : List Nat
  /-- Q_L, L/min (R5) -/
  q : Option Nat
  pTot : Nat
  dBase : Nat
  /-- latest valid readings (R3) -/
  pressure : Option Nat
  stretch : Option Nat
  position : Option Nat
  /-- out-of-range runs (R3) -/
  pressureOut : Nat
  stretchOut : Nat
  positionOut : Nat
  /-- over-pressure run (R8) -/
  overRun : Nat
  /-- stretch-warn condition (R10) -/
  warn : Bool
  /-- stretch-clear run (R11) -/
  clearRun : Nat
  /-- stretch-trip run (R12) -/
  tripRun : Nat
  band : Band
  steady : Bool
  inRun : Nat
  outRun : Nat
  /-- steady epoch, 0 to 65,535 (R13) -/
  epoch : Nat
  /-- T_close, ds (R16) -/
  tClose : Option Nat
  /-- Q_surge, L/min (R17) -/
  qSurge : Option Nat
  /-- T_c, ds, as handed to the tank watch (R18, R98) -/
  tC : Option Nat
  /-- Q_L of the latest line-sampled event, kept by the tank watch (R98) -/
  watchQ : Option Nat
  /-- the steady count N that the latest sample event took up (R15; the model's own, log 54) -/
  steadyN : Nat
  /-- the allowance A that the latest sample event took up, ds (R28; the model's own, log 54) -/
  allowed : Nat
  deriving DecidableEq, Repr

/-! ### The valve drive (R20) -/

/-- A ramp in flight: its target and its per-sample step, permille (R23). -/
structure Ramp where
  target : Nat
  step : Nat
  deriving DecidableEq, Repr

/-- The stroke-test stages. `done` lasts only within the drive step that enters it (R20). -/
inductive Stage where
  | openMove
  | settle
  | closeMove
  | done
  deriving DecidableEq, Repr

/-- The reasons a stroke test fails on (R33). -/
inductive StrokeFailure where
  | openTimeout
  | closeTimeout
  | travel
  | outOfRange
  deriving DecidableEq, Repr

/-- The outcome of the latest stroke test to end, as the DONE STROKE notice carries it (R32, R33, R34, R166). -/
inductive StrokeOutcome where
  | pass (tMeas : Nat)
  | failed (reason : StrokeFailure)
  | abandoned
  deriving DecidableEq, Repr

/-- The state of a valve drive (R20), and the outcome its DONE STROKE notice reports (R166). -/
structure Drive where
  setpoint : Nat
  enabled : Bool
  ramp : Option Ramp
  stage : Option Stage
  stageTimer : Option Nat
  strokeTimer : Option Nat
  tMeas : Option Nat
  tOvr : Option Nat
  /-- tracking timer, ds -/
  track : Nat
  /-- last valid position, for the progress test (R28) -/
  lastPos : Option Nat
  lastStroke : Option StrokeOutcome
  deriving DecidableEq, Repr

/-! ### The tank watch (R78, R98, R115, R116) -/

/-- The tank states of a record; ABSENT is having no record (R78). -/
inductive TankState where
  | listed
  | assigned
  | filling
  | topping
  | full
  | releasing
  | overfill
  deriving DecidableEq, Repr

inductive ShipValve where
  | opened
  | closed
  | unknown
  deriving DecidableEq, Repr

/-- An entry of the ship's directory as gathered, unchecked (R125, R131). -/
structure DirEntry where
  number : Nat
  grade : Nat
  cap : Nat
  hh : Nat
  name : Option String
  deriving DecidableEq, Repr

/-- A pending directory entry (R84, R85). -/
inductive PendingEntry where
  | entry (e : DirEntry)
  | vanished
  deriving DecidableEq, Repr

/-- The change-over timer (R93): when RELEASING was entered, and the run it stopped at once it has expired. -/
structure ChangeTimer where
  since : Nat
  expired : Option Nat
  deriving DecidableEq, Repr

/-- The anchor of the rate estimator (R116). -/
structure Anchor where
  volume : Nat
  time : Nat
  epoch : Nat
  deriving DecidableEq, Repr

/-- The results of an evaluation (R98). -/
structure Results where
  /-- r_m, L/min -/
  rm : Nat
  age : Nat
  vNow : Nat
  /-- R -/
  room : Int
  /-- S -/
  stop : Nat
  /-- M -/
  margin : Int
  /-- E -/
  endVol : Nat
  tau : Option Nat
  /-- evaluated at -/
  time : Nat
  deriving DecidableEq, Repr

/-- A tank record (R78, R98, R115, R116). -/
structure Tank where
  name : Option String
  grade : Nat
  cap : Nat
  hh : Nat
  /-- fill limit, permille -/
  fl : Nat
  vRep : Option Nat
  mTime : Option Nat
  valve : ShipValve
  fault : Option Bool
  line : Option LineId
  timer : Option ChangeTimer
  pendingEntry : Option PendingEntry
  /-- interval rates, oldest first -/
  ring : List Nat
  anchor : Option Anchor
  results : Option Results
  state : TankState
  topped : Bool
  stale : Bool
  conflict : Bool
  deriving DecidableEq, Repr

/-! ### The ship link controller (R123) -/

inductive LinkState where
  | down
  | acquiring
  | good
  | poor
  | lost
  deriving DecidableEq, Repr

inductive Gauging where
  | linked
  | manual
  deriving DecidableEq, Repr

inductive AdviceKind where
  | topping
  | full
  | overfill
  deriving DecidableEq, Repr

/-- A query: its kind and address, with the body of an advice (R125, R174). -/
inductive Query where
  | header
  | entry (index : Nat)
  | level (tank : TankId)
  | permit (line : LineId)
  | advice (tank : TankId) (kind : AdviceKind)
  | alive
  deriving DecidableEq, Repr

/-- An ENTRY reply that carried MORE and awaits its continuation, with its STOP flag (R125). -/
structure PartialEntry where
  stop : Bool
  entry : DirEntry
  deriving DecidableEq, Repr

/-- The exchange in flight: its query, whether it reads for the background refresh, the reply-window setting it began
with (R124), and the ENTRY reply awaiting its continuation. -/
structure Exchange where
  query : Query
  refresh : Bool
  window : Nat
  part : Option PartialEntry
  deriving DecidableEq, Repr

/-- The header read: tank count and revision (R131). -/
structure Header where
  count : Nat
  revision : Nat
  deriving DecidableEq, Repr

/-- Acquisition progress (R123). -/
structure Acquisition where
  header : Option Header
  next : Nat
  attempts : Nat
  entries : List DirEntry
  deriving DecidableEq, Repr

/-- Refresh progress (R123). -/
structure Refresh where
  header : Option Header
  next : Nat
  entries : List DirEntry
  deriving DecidableEq, Repr

/-- The telegram an acquisition failed at (R132). -/
inductive AcqTelegram where
  | header
  | entry (index : Nat)
  deriving DecidableEq, Repr

/-- The outcome of the latest acquisition (R132); PASS keeps the count and revision that DONE LINKSTART carries. -/
inductive AcqResult where
  | pass (count revision : Nat)
  | failed (telegram : AcqTelegram)
  deriving DecidableEq, Repr

/-- What became of a line's latest permit query (R137). -/
inductive PermitOutcome where
  | pending
  | granted
  | denied
  | stopped
  | late
  | noReply
  deriving DecidableEq, Repr

/-- The state of the ship link controller (R123). -/
structure Link where
  state : LinkState
  gauging : Gauging
  exchange : Option Exchange
  /-- failure window, oldest first; `true` is a failed outcome -/
  window : List Bool
  failRun : Nat
  succRun : Nat
  /-- the link-loss count that the latest counted exchange took up (R128; the model's own, log 54) -/
  lossCount : Nat
  rev : Option Nat
  acq : Option Acquisition
  refresh : Option Refresh
  spacing : Nat
  lastAcq : Option AcqResult
  /-- ship stop: `some true` is STOP, `some false` is CLEAR -/
  stop : Option Bool
  advices : List (TankId × AdviceKind)
  queries : List LineId
  outcomes : Vector (Option PermitOutcome) 4
  poll : List TankId
  /-- watched-poll count -/
  polls : Nat
  /-- entries with an out-of-range tank number in the latest directory application (R166) -/
  rejected : Nat
  deriving DecidableEq, Repr

/-! ### The trip unit (R143) -/

/-- The members of the device trip-cause set (R147). -/
inductive DeviceTrip where
  | esdIn
  | consoleEsd
  | overfill (tank : TankId)
  | stretchTrip (line : LineId)
  deriving DecidableEq, Repr

/-- The object of an alarm entry (R152). -/
inductive AlarmObject where
  | line (line : LineId)
  | tank (tank : TankId)
  | link
  | loop
  | part
  deriving DecidableEq, Repr

/-- An alarm entry (R152). -/
structure Alarm where
  kind : AlarmKind
  object : AlarmObject
  acked : Bool
  present : Bool
  /-- time of first raising, ds -/
  time : Nat
  deriving DecidableEq, Repr

/-- The contact and the two loop readings (R143). -/
structure Esd where
  contact : Contact
  loop : Contact
  far : Contact
  deriving DecidableEq, Repr

/-! ### The console port (R158) -/

/-- The notice kinds of the mask (R166). -/
inductive NoticeKind where
  | line
  | tank
  | link
  | trip
  | alarm
  | done
  | directory
  | loop
  deriving DecidableEq, Repr

/-- A pair of the notice pending set: a kind and its object (R165, R166), or the READY notice (R182). -/
inductive Notice where
  | line (line : LineId)
  | tank (tank : TankId)
  | link
  | trip
  | alarm (kind : AlarmKind) (object : AlarmObject)
  | doneStroke (line : LineId)
  | doneLinkstart
  | doneLimits (line : LineId)
  | directory (tank : Option TankId)
  | loop (line : LineId)
  | ready
  deriving DecidableEq, Repr

/-- An ended line: at most 96 characters, and whether it ran over them (R161). -/
structure EndedLine where
  text : String
  long : Bool
  deriving DecidableEq, Repr

/-- The console port (R158), but for its pending set. A waiting reply is kept as its fields; the check field is written
when it is sent. `out` is the model's own: the record last put on the line (log 34). -/
structure Port where
  rx : String
  held : Option EndedLine
  waiting : Option (List String)
  mask : List NoticeKind
  out : Option String
  deriving DecidableEq, Repr

/-! ### Settings and limits store (R172, R175) -/

/-- The ten transfer settings (R172). -/
structure Settings where
  ttop : Nat
  treact : Nat
  stalel : Nat
  stalem : Nat
  window : Nat
  estw : Nat
  changeover : Nat
  linkloss : Nat
  band : Nat
  steadyn : Nat
  deriving DecidableEq, Repr

/-- The record status (R175). WRITING is read while a write for the line is in flight. -/
inductive RecordStatus where
  | sound
  | blank
  deriving DecidableEq, Repr

/-- A line's place in the store: the stored record, absent when erased, its CRC, and its status (R175, R176). -/
structure LineRecord where
  fields : Option Limits
  crc : CrcReg
  status : RecordStatus
  deriving DecidableEq, Repr

/-- The write in flight (R179): the line, the new record and the time it was taken. -/
structure Write where
  line : LineId
  record : Limits
  since : Nat
  deriving DecidableEq, Repr

/-- The limits store (R175). `lock` is the flag as the part has it (`true` is SET); `storedLock` is the non-volatile
flag with its check, absent when erased (R177). -/
structure Store where
  records : Vector LineRecord 4
  lock : Bool
  storedLock : Option (Bool × CrcReg)
  write : Option Write
  deriving DecidableEq, Repr

end Sys2Proof.Machine

namespace Sys2Proof.Machine

/-- The state of the part. -/
structure State where
  /-- the commands that wait, first in first out: the model's queue -/
  pending : List Instr
  /-- the part clock, ds (R184) -/
  clock : Nat
  /-- the start-up phase (R182) -/
  phase : Phase
  /-- the commissioning key input reads ON (R177) -/
  key : Bool
  /-- the transfer settings (R172) -/
  settings : Settings
  /-- the limits store (R175) -/
  store : Store
  /-- the sequence state of each line (R38) -/
  seqs : Vector Seq 4
  /-- the rate-control state of each line (R63) -/
  rates : Vector Rate 4
  /-- the measurement state of each line (R19) -/
  meass : Vector Meas 4
  /-- the valve drive of each line (R20) -/
  drives : Vector Drive 4
  /-- the lineup of each line, in order of assignment (R82) -/
  lineups : Vector (List TankId) 4
  /-- the tank table (R78) -/
  tanks : Vector (Option Tank) 16
  /-- the ship link controller (R123) -/
  link : Link
  /-- the ESD contact and the loop readings (R143) -/
  esd : Esd
  /-- the device trip-cause set, in report order (R147) -/
  device : List DeviceTrip
  /-- the overfill list, in tank-number order (R148) -/
  overfills : List TankId
  /-- the alarm set, in order of first raising (R152) -/
  alarms : List Alarm
  /-- the horn is on (R156) -/
  horn : Bool
  /-- the console port (R158) -/
  port : Port
  /-- the notice pending set, oldest first (R165) -/
  notices : List Notice
  /-- the pending LINK pair reports a change of the acquisition result (R167) -/
  linkResult : Bool
  deriving DecidableEq, Repr

/-- Reasons to fault. The manual names no event that stops the part, so no command faults and there is no constructor. -/
inductive Fault where
  deriving DecidableEq, Repr

/-- Reasons to refuse. -/
inductive Refusal where
  /-- Raised by an arm of `exec` whose command has no meaning yet; no arm raises it. Safe. -/
  | notModelled (mnemonic : String)
  deriving DecidableEq, Repr

/-! ### The state right after reset -/

/-- R38: DISCONNECTED, grade absent, sets empty, both permits off. -/
def Seq.initial : Seq :=
  { state := .disconnected, grade := none, holds := [], trips := [], permit := false, pump := false }

/-- R38, R63: target 0, AUTO, everything else absent, off or 0. -/
def Rate.initial : Rate :=
  { target := 0, mode := .auto, pendingTarget := none, opening := none, throttle := false, eff := none,
    governing := none, surgeRun := 0, maxRun := 0, mark := none, loopWaits := false }

/-- R19. `q` is 0 for a line whose record is SOUND and absent for a BLANK one. -/
def Meas.initial (q : Option Nat) : Meas :=
  { window := [0, 0, 0, 0, 0], q := q, pTot := 0, dBase := 0, pressure := none, stretch := none, position := none,
    pressureOut := 0, stretchOut := 0, positionOut := 0, overRun := 0, warn := false, clearRun := 0, tripRun := 0,
    band := .settling, steady := false, inRun := 0, outRun := 0, epoch := 0, tClose := none, qSurge := none,
    tC := none, watchQ := none, steadyN := 25, allowed := 200 }

/-- R37. -/
def Drive.initial : Drive :=
  { setpoint := 0, enabled := false, ramp := none, stage := none, stageTimer := none, strokeTimer := none,
    tMeas := none, tOvr := none, track := 0, lastPos := none, lastStroke := none }

/-- R123. -/
def Link.initial : Link :=
  { state := .down, gauging := .linked, exchange := none, window := [], failRun := 0, succRun := 0, lossCount := 10,
    rev := none, acq := none, refresh := none, spacing := 0, lastAcq := none, stop := none, advices := [], queries := [],
    outcomes := Vector.replicate 4 none, poll := [], polls := 0, rejected := 0 }

/-- R172, the column of defaults. -/
def Settings.initial : Settings :=
  { ttop := 3000, treact := 20, stalel := 150, stalem := 3000, window := 1, estw := 4, changeover := 1200,
    linkloss := 10, band := 50, steadyn := 25 }

/-- The eight notice kinds in the order of the table of R166. -/
def NoticeKind.all : List NoticeKind := [.line, .tank, .link, .trip, .alarm, .done, .directory, .loop]

/-- R158: buffer empty, nothing held or waiting, all eight kinds on. -/
def Port.initial : Port :=
  { rx := "", held := none, waiting := none, mask := NoticeKind.all, out := none }

/-- The store of a part fresh from manufacture (R176, R177): four BLANK records, the erased lock flag taken as SET. -/
def Store.erased : Store :=
  { records := Vector.replicate 4 { fields := none, crc := 0, status := .blank }, lock := true, storedLock := none,
    write := none }

/-- The part right after the first power-on of a part fresh from manufacture, start-up beginning (R183). The loop
readings and the key stand as log 11 chooses them: the part's contact is open, so the loop reads open; the far loop
reads closed; the key is OFF. -/
def State.reset : State :=
  { pending := [], clock := 0, phase := .starting, key := false, settings := Settings.initial,
    store := Store.erased, seqs := Vector.replicate 4 Seq.initial, rates := Vector.replicate 4 Rate.initial,
    meass := Vector.replicate 4 (Meas.initial none), drives := Vector.replicate 4 Drive.initial,
    lineups := Vector.replicate 4 [], tanks := Vector.replicate 16 none, link := Link.initial,
    esd := { contact := .opened, loop := .opened, far := .closed }, device := [], overfills := [], alarms := [],
    horn := false, port := Port.initial, notices := [], linkResult := false }

end Sys2Proof.Machine
end

