-- ==== Sys2Proof/Machine/Ops.lean ====
section
/-! DEFINITION. The arithmetic, the sets, and the named reads and writes of the state that every meaning is built from.
Each write touches one field of `State`; `modSeq` and `setAlarms` also re-judge what the rules tie to their field. -/

namespace Sys2Proof.Machine

/-! ### Arithmetic (R1) -/

/-- A quotient rounded up (R1). -/
def ceilDiv (a b : Nat) : Nat := (a + b - 1) / b

/-- A value clamped to the nearest bound (00_scope.md, Conventions). -/
def clamp (lo hi v : Nat) : Nat := max lo (min hi v)

/-- |a - b|. -/
def absDiff (a b : Nat) : Nat := (a - b) + (b - a)

/-! ### Sets kept in report order -/

/-- `c` joins a set that is kept in the order of `all`. -/
def setInsert {α : Type} [DecidableEq α] (all : List α) (c : α) (set : List α) : List α :=
  all.filter fun x => decide (x = c) || decide (x ∈ set)

/-- `c` leaves a set. -/
def setErase {α : Type} [DecidableEq α] (c : α) (set : List α) : List α :=
  set.filter fun x => !decide (x = c)

/-- The report order of R47. -/
def HoldCause.all : List HoldCause := [.operator, .tankFull, .noOutlet, .link, .stretch, .ship]

/-- The report order of R55. -/
def TripCause.all : List TripCause := [.esdIn, .overpressure, .stretchTrip, .sensorFault, .valveTravel, .overrun]

/-- Lines 1 to 4. -/
def allLines : List LineId := [0, 1, 2, 3]

/-- Tanks 1 to 16. -/
def allTanks : List TankId := [0, 1, 2, 3, 4, 5, 6, 7, 8, 9, 10, 11, 12, 13, 14, 15]

/-- The report order of R147. -/
def DeviceTrip.all : List DeviceTrip :=
  [.esdIn, .consoleEsd] ++ allTanks.map .overfill ++ allLines.map .stretchTrip

/-- The alarm kinds in the order of the table of R152. -/
def AlarmKind.all : List AlarmKind :=
  [.esdIn, .overpressure, .sensorFault, .valveTravel, .overrun, .stretchTrip, .consoleEsd, .overfill, .stretchWarn,
   .flowUnsteady, .strokeFailed, .changeoverLate, .linkLost]

/-- The number of a line, 1 to 4. -/
def lineNumber (l : LineId) : Nat := l.val + 1

/-- The number of a tank, 1 to 16. -/
def tankNumber (t : TankId) : Nat := t.val + 1

/-- The line of a number; none outside 1 to 4. -/
def lineOf (n : Nat) : Option LineId := allLines.find? fun l => lineNumber l = n

/-- The tank of a number; none outside 1 to 16. -/
def tankOf (n : Nat) : Option TankId := allTanks.find? fun t => tankNumber t = n

/-! ### Reads -/

/-- The entry of a vector at a line or tank. -/
def vget {α : Type} {n : Nat} (v : Vector α n) (i : Fin n) : α := v[i.val]

/-- A vector with one entry replaced. -/
def vset {α : Type} {n : Nat} (v : Vector α n) (i : Fin n) (x : α) : Vector α n := v.set i.val x

def State.seq (s : State) (l : LineId) : Seq := vget s.seqs l
def State.rate (s : State) (l : LineId) : Rate := vget s.rates l
def State.meas (s : State) (l : LineId) : Meas := vget s.meass l
def State.drive (s : State) (l : LineId) : Drive := vget s.drives l
def State.lineup (s : State) (l : LineId) : List TankId := vget s.lineups l
def State.tank (s : State) (t : TankId) : Option Tank := vget s.tanks t

/-- The place of a line in the limits store (R175). -/
def State.record (s : State) (l : LineId) : LineRecord := vget s.store.records l

/-- The record in force for a line (R175): the stored record while SOUND, also while a write is in flight (R5). -/
def State.limits (s : State) (l : LineId) : Option Limits :=
  match (s.record l).status with
  | .sound => (s.record l).fields
  | .blank => none

/-- A write for the line is in flight (R179). -/
def State.writing (s : State) (l : LineId) : Bool :=
  match s.store.write with
  | some w => decide (w.line = l)
  | none => false

/-! ### Notices (R165) -/

/-- The kind of a pair in the mask; READY has none (R166). -/
def Notice.kind : Notice → Option NoticeKind
  | .line _ => some .line
  | .tank _ => some .tank
  | .link => some .link
  | .trip => some .trip
  | .alarm _ _ => some .alarm
  | .doneStroke _ | .doneLinkstart | .doneLimits _ => some .done
  | .directory _ => some .directory
  | .loop _ => some .loop
  | .ready => none

/-- The mask lets the pair become pending; READY is sent whatever the mask (R182). -/
def Notice.allowed (n : Notice) (mask : List NoticeKind) : Bool :=
  match n.kind with
  | some k => decide (k ∈ mask)
  | none => true

/-- R165: the pair joins the tail if its kind is on in the mask and it is not already in the set. -/
def State.notify (s : State) (n : Notice) : State :=
  if n ∈ s.notices then s
  else if n.allowed s.port.mask then { s with notices := s.notices ++ [n] }
  else s

/-! ### Writes -/

/-- R62: the four conditions under which the pump-permit relay of a line is on. -/
def pumpPermit (q : Seq) (loop : Contact) : Bool :=
  (decide (q.state = .opening) || decide (q.state = .delivering) || decide (q.state = .holding)
      || decide (q.state = .finishing))
    && q.permit && q.trips.isEmpty && decide (loop = .closed)

/-- A change of a line's sequence state: the pump permit is re-judged (R62), and a change makes the LINE notice pending
(R38). -/
def State.modSeq (s : State) (l : LineId) (f : Seq → Seq) : State :=
  let old := s.seq l
  let new := { f old with pump := pumpPermit (f old) s.esd.loop }
  let s' := { s with seqs := vset s.seqs l new }
  if new = old then s' else s'.notify (.line l)

def State.modRate (s : State) (l : LineId) (f : Rate → Rate) : State :=
  { s with rates := vset s.rates l (f (s.rate l)) }

def State.modMeas (s : State) (l : LineId) (f : Meas → Meas) : State :=
  { s with meass := vset s.meass l (f (s.meas l)) }

def State.modDrive (s : State) (l : LineId) (f : Drive → Drive) : State :=
  { s with drives := vset s.drives l (f (s.drive l)) }

def State.setLineup (s : State) (l : LineId) (ts : List TankId) : State :=
  { s with lineups := vset s.lineups l ts }

def State.setTank (s : State) (t : TankId) (r : Option Tank) : State :=
  { s with tanks := vset s.tanks t r }

/-- A change of a tank's record; nothing for an ABSENT tank. -/
def State.modTank (s : State) (t : TankId) (f : Tank → Tank) : State :=
  match s.tank t with
  | some r => s.setTank t (some (f r))
  | none => s

/-- R79: two records agree in the items whose change makes a TANK notice pending: state, line, ship valve, gauge fault,
fill limit, marks and directory data. The pending directory entry is not counted as directory data: the model's choice
(log 47). -/
def Tank.sameNoticed (a b : Tank) : Bool :=
  decide (a.state = b.state) && decide (a.line = b.line) && decide (a.valve = b.valve) && decide (a.fault = b.fault)
    && decide (a.fl = b.fl) && decide (a.topped = b.topped) && decide (a.stale = b.stale)
    && decide (a.conflict = b.conflict) && decide (a.name = b.name) && decide (a.grade = b.grade)
    && decide (a.cap = b.cap) && decide (a.hh = b.hh)

/-- A change of a tank's record that makes a TANK notice pending when one of those items changes. -/
def State.modTankNoticed (s : State) (t : TankId) (f : Tank → Tank) : State :=
  match s.tank t with
  | some r =>
    let s' := s.setTank t (some (f r))
    if (f r).sameNoticed r then s' else s'.notify (.tank t)
  | none => s

def State.setRecord (s : State) (l : LineId) (r : LineRecord) : State :=
  { s with store := { s.store with records := vset s.store.records l r } }

/-- A change inside the link controller that R123 gives no notice for. -/
def State.modLink (s : State) (f : Link → Link) : State := { s with link := f s.link }

/-- R123: the items whose change makes a LINK notice pending. The result of an acquisition is noticed where it is set
(R132). -/
def Link.noticed (k : Link) : LinkState × Gauging × Option Bool × Option Nat :=
  (k.state, k.gauging, k.stop, k.rev)

/-- A change of the link controller that makes a LINK notice pending when one of those items changes. -/
def State.modLinkNoticed (s : State) (f : Link → Link) : State :=
  let s' := s.modLink f
  if (f s.link).noticed = s.link.noticed then s' else s'.notify .link

/-- The permit outcome of a line; a change makes the LINE notice pending (R123). -/
def State.setOutcome (s : State) (l : LineId) (o : PermitOutcome) : State :=
  if vget s.link.outcomes l = some o then s
  else (s.modLink fun k => { k with outcomes := vset k.outcomes l (some o) }).notify (.line l)

/-! ### The alarm set and the horn (R152 to R156) -/

/-- R156: the horn is re-judged at each change of the set. -/
def State.setAlarms (s : State) (as : List Alarm) : State :=
  { s with alarms := as, horn := as.any fun a => !a.acked }

/-- The entry of a kind and object. -/
def Alarm.isFor (k : AlarmKind) (o : AlarmObject) (a : Alarm) : Bool :=
  decide (a.kind = k) && decide (a.object = o)

/-- R153: a raised entry is filed, left as it is, or made present again. -/
def State.raiseAlarm (s : State) (k : AlarmKind) (o : AlarmObject) : State :=
  match s.alarms.find? (Alarm.isFor k o) with
  | none =>
    (s.setAlarms (s.alarms ++ [{ kind := k, object := o, acked := false, present := true, time := s.clock }])).notify
      (.alarm k o)
  | some a =>
    if a.present then s
    else
      (s.setAlarms (s.alarms.map fun b => if Alarm.isFor k o b then { b with present := true } else b)).notify
        (.alarm k o)

/-- R154: the condition of an entry becomes gone, and an acknowledged entry leaves the set. -/
def State.alarmGone (s : State) (k : AlarmKind) (o : AlarmObject) : State :=
  match s.alarms.find? (Alarm.isFor k o) with
  | none => s
  | some a =>
    if a.present then
      (if a.acked then s.setAlarms (s.alarms.filter fun b => !Alarm.isFor k o b)
        else s.setAlarms (s.alarms.map fun b => if Alarm.isFor k o b then { b with present := false } else b)).notify
        (.alarm k o)
    else s

/-! ### The device trip-cause set and the contact (R144, R147) -/

/-- A member joins the device set if it is not there; a change makes the TRIP notice pending (R147). -/
def State.joinDevice (s : State) (d : DeviceTrip) : State :=
  if d ∈ s.device then s
  else { s with device := setInsert DeviceTrip.all d s.device }.notify .trip

/-- ESD_IN leaves the device set when the far loop closes (R146). -/
def State.leaveDevice (s : State) (d : DeviceTrip) : State :=
  if d ∈ s.device then { s with device := setErase d s.device }.notify .trip else s

/-- The part's own contact; each change makes the TRIP notice pending (R144). -/
def State.setContact (s : State) (c : Contact) : State :=
  if s.esd.contact = c then s else { s with esd := { s.esd with contact := c } }.notify .trip

/-- The alarm entry of a device trip (R147). -/
def DeviceTrip.alarm : DeviceTrip → AlarmKind × AlarmObject
  | .esdIn => (.esdIn, .loop)
  | .consoleEsd => (.consoleEsd, .part)
  | .overfill t => (.overfill, .tank t)
  | .stretchTrip l => (.stretchTrip, .line l)

/-- R148: a tank joins the overfill list when OVERFILL is handed for it. -/
def State.listOverfill (s : State) (d : DeviceTrip) : State :=
  match d with
  | .overfill t => { s with overfills := setInsert allTanks t s.overfills }
  | _ => s

/-- R147: what the trip unit does on each hand-over of a device trip. -/
def State.deviceTrip (s : State) (d : DeviceTrip) : State :=
  (((s.joinDevice d).listOverfill d).raiseAlarm d.alarm.1 d.alarm.2).setContact .opened

/-! ### Every line in turn (log 19) -/

/-- An operation made on each of the four line supervisors, line 1 first. -/
def State.eachLine (s : State) (f : State → LineId → State) : State := allLines.foldl f s

end Sys2Proof.Machine
end

