-- ==== Sys2Proof/Machine/Valve.lean ====
section
/-! DEFINITION. The valve drive: its orders (R22), ramps (R23 to R26), the effective stroke time (R36) and the figures of
the tracking check (R28). -/

namespace Sys2Proof.Machine

/-- R36: the effective stroke time. -/
def Drive.tStroke (d : Drive) : Option Nat :=
  match d.tMeas, d.tOvr with
  | some m, some o => some (max m o)
  | none, some o => some o
  | some m, none => some m
  | none, none => none

/-! ### Orders (R22) -/

/-- REST: any ramp is ended and the setpoint is 0. -/
def Drive.rest (d : Drive) : Drive := { d with ramp := none, setpoint := 0 }

/-- RAMP (y, T): R23. With the setpoint already at the target no ramp is put in flight. -/
def Drive.rampTo (y t : Nat) (d : Drive) : Drive :=
  if d.setpoint = y then { d with ramp := none }
  else { d with ramp := some { target := y, step := ceilDiv (absDiff d.setpoint y * 2) t } }

/-- RELEASE: any ramp is ended and the setpoint stays. -/
def Drive.release (d : Drive) : Drive := { d with ramp := none }

/-- ADJUST (s): any ramp is ended and the setpoint is `s`. -/
def Drive.adjust (sp : Nat) (d : Drive) : Drive := { d with ramp := none, setpoint := sp }

/-- CUT: any ramp is ended, the setpoint is 0 and the tracking timer is 0. -/
def Drive.cut (d : Drive) : Drive := { d with ramp := none, setpoint := 0, track := 0 }

/-- STROKE: R30. -/
def Drive.startStroke (d : Drive) : Drive :=
  { d with ramp := none, setpoint := 1000, stage := some .openMove, stageTimer := some 0, strokeTimer := none,
           track := 0 }

/-- The end of a stroke test: stage, stage timer and stroke timer become absent (R32, R33, R34). -/
def Drive.endStroke (o : StrokeOutcome) (d : Drive) : Drive :=
  { d with stage := none, stageTimer := none, strokeTimer := none, lastStroke := some o }

/-- Drive-enable goes on with the setpoint at 0 (R21). -/
def Drive.turnOn (d : Drive) : Drive := { d with enabled := true, ramp := none, setpoint := 0 }

/-- Drive-enable goes off: any ramp is ended and the setpoint is 0 (R21). -/
def Drive.turnOff (d : Drive) : Drive := { d with enabled := false, ramp := none, setpoint := 0, track := 0 }

/-- The tracking timer starts from 0, or stands at 0 where the check does not run (R28). -/
def Drive.trackFrom0 (d : Drive) : Drive := { d with track := 0 }

/-- R26: the time of a half-speed ramp. -/
def halfSpeedTime (tStroke x y : Nat) : Nat := ceilDiv (2 * tStroke * absDiff y x) 1000

/-- R24: one drive step of a ramp in flight. -/
def Drive.rampStep (d : Drive) : Drive :=
  match d.ramp with
  | none => d
  | some r =>
    if absDiff d.setpoint r.target ≤ r.step then { d with setpoint := r.target, ramp := none }
    else if d.setpoint < r.target then { d with setpoint := d.setpoint + r.step }
    else { d with setpoint := d.setpoint - r.step }

/-- R18: the remaining ramp time, 0 with no ramp in flight. The closure ramps it is read for run to 0. -/
def Drive.tRem (d : Drive) : Nat :=
  match d.ramp with
  | none => 0
  | some r => 2 * ceilDiv d.setpoint r.step

/-! ### The tracking check (R28) -/

/-- The T_stroke the check uses: 1,800 ds while it is absent. -/
def Drive.trackStroke (d : Drive) : Nat := d.tStroke.getD 1800

/-- Allowance A, ds. -/
def Drive.allowance (d : Drive) : Nat := 20 + ceilDiv d.trackStroke 10

/-- Progress step p, permille. -/
def Drive.progress (d : Drive) : Nat := max (1000 / d.trackStroke) 1

/-- Since the last valid position the valve has moved by p or more toward the setpoint. -/
def Drive.progressed (d : Drive) (pos : Nat) : Bool :=
  match d.lastPos with
  | none => false
  | some last =>
    (decide (last < d.setpoint) && decide (last + d.progress ≤ pos))
      || (decide (d.setpoint < last) && decide (pos + d.progress ≤ last))

/-- A sample is on track: its position is in range, and the gap is 50 permille or less or the valve has progressed (R28).
In OPEN_MOVE that holds of a valve that stops at 950 to 979 permille too, of which R31 says otherwise: the model's choice
(log 51). -/
def Drive.onTrack (d : Drive) (pos : Option Nat) : Bool :=
  match pos with
  | none => false
  | some p => decide (absDiff p d.setpoint ≤ 50) || d.progressed p

/-- An on-track sample sets the tracking timer to 0, an off-track sample adds 2 ds. -/
def Drive.trackStep (pos : Option Nat) (d : Drive) : Drive :=
  if d.onTrack pos then { d with track := 0 } else { d with track := d.track + 2 }

/-- R27: an in-range position becomes the last valid position once the check has used the previous one. -/
def Drive.keepPos (pos : Option Nat) (d : Drive) : Drive :=
  match pos with
  | none => d
  | some p => { d with lastPos := some p }

/-- R32: T_meas from the stroke timer. -/
def scaledStroke (timer : Nat) : Nat := ceilDiv (timer * 1000) 960

end Sys2Proof.Machine
end

