-- ==== Sys2Proof/Machine/Line.lean ====
section
/-! DEFINITION. What the blocks hand a line supervisor, and what it does with it: the closure figures (R16, R17), the end
of steady (R14), target_eff (R64, R65), takeover (R70), hold causes (R47 to R49) and trip causes (R55, R56). -/

namespace Sys2Proof.Machine

/-! ### Closure figures (R16, R17) -/

/-- P_L for the closure stage (R3): P_rated while the latest pressure sample is out of range. -/
def Meas.closurePressure (m : Meas) (lim : Limits) : Nat :=
  if m.pressureOut = 0 then m.pressure.getD lim.pRated else lim.pRated

/-- The position for the stroke part (R3): 1000 permille while the latest sample is out of range. -/
def Meas.closurePosition (m : Meas) : Nat :=
  if m.positionOut = 0 then m.position.getD 1000 else 1000

/-- Headroom H (R16). -/
def Meas.headroom (m : Meas) (lim : Limits) : Nat := max (lim.pRated - m.closurePressure lim) 50

/-- T_surge (R16). -/
def Meas.tSurge (m : Meas) (lim : Limits) : Nat := ceilDiv (lim.k * m.q.getD 0) (100 * m.headroom lim)

/-- T_strokepart (R16): T_max while T_stroke is absent. -/
def Meas.tStrokePart (m : Meas) (lim : Limits) (tStroke : Option Nat) : Nat :=
  match tStroke with
  | some t => ceilDiv (t * m.closurePosition) 1000
  | none => lim.tMax

/-- T_close (R16). -/
def Meas.tCloseNow (m : Meas) (lim : Limits) (tStroke : Option Nat) : Nat :=
  min lim.tMax (max (m.tSurge lim) (max (m.tStrokePart lim tStroke) lim.tMin))

/-- Q_surge (R17). -/
def Meas.qSurgeNow (m : Meas) (lim : Limits) : Nat := lim.tMax * 100 * m.headroom lim / lim.k

/-- The readings of the latest sample event (R18). A reading that no sample event has given yet is a free value of its
range (log 14). -/
def State.latestReadings (s : State) (l : LineId) : Meas :=
  let m := s.meas l
  let free (f : Nat → Nat → Nat) (limit : Nat) : Nat := min limit (f (lineNumber l) s.clock)
  { m with
    q := some (m.q.getD (free Config.unformedFlow 20000))
    pressure := some (m.pressure.getD (free Config.unreadPressure 2500))
    position := some (m.position.getD (free Config.unreadPosition 1000)) }

/-- T_close computed afresh at the beginning of a profiled closure (R18): the readings of the latest sample event and
the T_stroke in force. Without a record in force, which no connected line is (R40), it is 0 (log 33). -/
def State.freshTClose (s : State) (l : LineId) : Nat :=
  match s.limits l with
  | some lim => (s.latestReadings l).tCloseNow lim (s.drive l).tStroke
  | none => 0

/-! ### Steady (R14) -/

/-- The flag off and both runs 0; a line that was steady makes its LINE notice pending. -/
def State.endSteady (s : State) (l : LineId) : State :=
  let s' := s.modMeas l fun m => { m with steady := false, inRun := 0, outRun := 0 }
  if (s.meas l).steady then s'.notify (.line l) else s'

/-- What leaving DELIVERING brings (R14, R69, R76): steady ends, the FLOW_UNSTEADY condition is gone, both takeover runs
stand at 0. Nothing in any other state. -/
def State.leaveDelivering (s : State) (l : LineId) : State :=
  if (s.seq l).state = .delivering then
    ((s.endSteady l).alarmGone .flowUnsteady (.line l)).modRate l fun r => { r with surgeRun := 0, maxRun := 0 }
  else s

/-! ### target_eff (R64, R65) -/

/-- The states in which target_eff is formed (R64). -/
def LineState.formsTarget : LineState → Bool
  | .opening | .delivering | .holding | .held | .finishing => true
  | .disconnected | .connected | .stroking | .tripping | .tripped => false

/-- Q_surge of the latest sample event (R64). While no sample event has formed it since CONNECT it is a free value, at
least 25 L/min (R17, log 15). -/
def State.surgeTerm (s : State) (l : LineId) : Nat :=
  (s.meas l).qSurge.getD (max 25 (Config.unformedSurge (lineNumber l) s.clock))

/-- The terms that apply, in the order of the table of R64. -/
def targetTerms (r : Rate) (lim : Limits) (qSurge : Nat) (g : Gauging) : List (Nat × Governing) :=
  [(r.target, .console), (lim.qMax, .maxflow), (qSurge, .surge)]
    ++ (if r.throttle then [(lim.qTop, .topping)] else [])
    ++ (if g = .manual then [(lim.qCap, .manual)] else [])

/-- The least of a list of terms, the first of those that tie (R64). -/
def leastTerm : List (Nat × Governing) → Option (Nat × Governing)
  | [] => none
  | t :: ts =>
    match leastTerm ts with
    | none => some t
    | some u => if t.1 ≤ u.1 then some t else some u

/-- target_eff and the governing limit as formed at this moment. -/
def State.formedTarget (s : State) (l : LineId) : Option (Nat × Governing) :=
  match s.limits l with
  | some lim => leastTerm (targetTerms (s.rate l) lim (s.surgeTerm l) s.link.gauging)
  | none => none

/-- target_eff and the governing limit take a value: a changed governing limit makes the LINE notice pending (R64), a
changed target_eff in DELIVERING ends steady (R14). -/
def State.setTarget (s : State) (l : LineId) (t : Option (Nat × Governing)) : State :=
  let old := s.rate l
  let s₁ := s.modRate l fun r => { r with eff := t.map (·.1), governing := t.map (·.2) }
  let s₂ := if old.governing = t.map (·.2) then s₁ else s₁.notify (.line l)
  if (s.seq l).state = .delivering ∧ old.eff ≠ t.map (·.1) then s₂.endSteady l else s₂

/-- R65: target_eff formed afresh, in the states in which it is formed. -/
def State.formTarget (s : State) (l : LineId) : State :=
  if (s.seq l).state.formsTarget then s.setTarget l (s.formedTarget l) else s

/-- R76: target_eff and the governing limit made absent. -/
def State.dropTarget (s : State) (l : LineId) : State := s.setTarget l none

/-! ### Takeover (R69, R70) -/

/-- The first takeover reason that holds (R69), whatever the loop mode. -/
def Rate.takeoverReason (r : Rate) : Option TakeoverReason :=
  if r.throttle then some .topping
  else if 5 ≤ r.surgeRun then some .surge
  else if 5 ≤ r.maxRun then some .maxflow
  else none

/-- R70: the loop is switched to AUTO, the mark is set and the LOOP notice made pending. -/
def State.takeOver (s : State) (l : LineId) (why : TakeoverReason) : State :=
  (s.modRate l fun r =>
    { r with mode := .auto, opening := none, surgeRun := 0, maxRun := 0, mark := some why }).notify (.loop l)

/-- R69: the takeover when a condition holds at a drive step in DELIVERING. A loop mode chosen since waits for the next drive
step (R70, R71). -/
def State.judgeTakeover (s : State) (l : LineId) : State :=
  if (s.seq l).state = .delivering ∧ (s.rate l).mode ≠ .auto ∧ (s.rate l).loopWaits = false then
    match (s.rate l).takeoverReason with
    | some why => s.takeOver l why
    | none => s
  else s

/-! ### Hold causes (R47 to R49) -/

/-- The states in which a hold cause joins (R47). -/
def LineState.takesHold : LineState → Bool
  | .opening | .delivering | .holding | .held => true
  | .disconnected | .connected | .stroking | .finishing | .tripping | .tripped => false

/-- The states that a joining hold cause takes to HOLDING (R48). -/
def LineState.moving : LineState → Bool
  | .opening | .delivering => true
  | .disconnected | .connected | .stroking | .holding | .held | .finishing | .tripping | .tripped => false

/-- The profiled closure (R48, R53): RAMP to 0 over a fresh T_close, the tracking timer from 0 (R28). The T_close that
READ LINE reports stays the one of the latest sample event: the model's choice (log 46). -/
def State.closeOnProfile (s : State) (l : LineId) : State :=
  s.modDrive l fun d => (d.rampTo 0 (s.freshTClose l)).trackFrom0

/-- A hold cause is handed to a line: R47, and R48 for a line in OPENING or DELIVERING. -/
def State.addHold (s : State) (l : LineId) (c : HoldCause) : State :=
  let q := s.seq l
  if q.state.takesHold ∧ c ∉ q.holds then
    if q.state.moving then
      ((s.leaveDelivering l).modSeq l fun q =>
        { q with state := .holding, holds := setInsert HoldCause.all c q.holds }).closeOnProfile l
    else s.modSeq l fun q => { q with holds := setInsert HoldCause.all c q.holds }
  else s

/-- R49: the clearing event of a cause. -/
def State.dropHold (s : State) (l : LineId) (c : HoldCause) : State :=
  s.modSeq l fun q => { q with holds := setErase c q.holds }

/-- The ship permit is cleared (R60). -/
def State.clearPermit (s : State) (l : LineId) : State := s.modSeq l fun q => { q with permit := false }

/-! ### Trip causes (R55 to R57) -/

/-- The alarm kind of a line trip cause (R152). -/
def TripCause.alarm : TripCause → AlarmKind
  | .esdIn => .esdIn
  | .overpressure => .overpressure
  | .stretchTrip => .stretchTrip
  | .sensorFault => .sensorFault
  | .valveTravel => .valveTravel
  | .overrun => .overrun

/-- The states a joining trip cause takes to TRIPPING (R56). -/
def LineState.trips : LineState → Bool
  | .connected | .stroking | .opening | .delivering | .holding | .held | .finishing => true
  | .disconnected | .tripping | .tripped => false

/-- R34: ABANDON ends a stroke test without a result. -/
def State.abandonStroke (s : State) (l : LineId) : State :=
  if (s.seq l).state = .stroking then
    (s.modDrive l (Drive.endStroke .abandoned)).notify (.doneStroke l)
  else s

/-- R56: entry to TRIPPING. The pending target is dropped (R73) and target_eff becomes absent (R76). -/
def State.enterTripping (s : State) (l : LineId) : State :=
  ((((s.abandonStroke l).leaveDelivering l).modSeq l fun q =>
      { q with state := .tripping, permit := false, holds := [] }).modDrive l Drive.cut).dropTarget l
    |>.modRate l fun r => { r with pendingTarget := none }

/-- A trip cause is handed to a line (R55): it joins unless the line is DISCONNECTED or holds it, its alarm entry is
raised, and a line not yet tripped enters TRIPPING (R56, R57). -/
def State.addTrip (s : State) (l : LineId) (c : TripCause) : State :=
  let q := s.seq l
  if q.state = .disconnected ∨ c ∈ q.trips then s
  else
    let s' := (s.modSeq l fun q => { q with trips := setInsert TripCause.all c q.trips }).raiseAlarm c.alarm (.line l)
    if q.state.trips then s'.enterTripping l else s'

/-- R154: the condition of (STRETCH_TRIP, line) is gone when neither the line's set nor the device set holds it. -/
def State.stretchTripGone (s : State) (l : LineId) : State :=
  if TripCause.stretchTrip ∈ (s.seq l).trips ∨ DeviceTrip.stretchTrip l ∈ s.device then s
  else s.alarmGone .stretchTrip (.line l)

/-! ### What the tank watch tells a line (R96) -/

/-- R96, R63: the topping throttle follows the count of TOPPING tanks; target_eff is formed afresh (R65); an entry takes
a FREEZE or SET loop over in every line state (R70). -/
def State.tellTopping (s : State) (l : LineId) (count : Nat) (entered : Bool) : State :=
  let s' := (s.modRate l fun r => { r with throttle := decide (0 < count) }).formTarget l
  if entered ∧ (s'.rate l).mode ≠ .auto then s'.takeOver l .topping else s'

end Sys2Proof.Machine
end

