-- ==== Sys2Proof/Machine/Tanks.lean ====
section
/-! DEFINITION. The tank watch: records, lineups and transitions (R78 to R97), staleness, the margin computation and its
actions (R98 to R114), and the rate estimator (R115 to R119). -/

namespace Sys2Proof.Machine

/-! ### Derived figures of a record -/

/-- V_hh (R78). -/
def Tank.vHh (t : Tank) : Nat := t.cap * t.hh / 1000

/-- V_stop (R78). -/
def Tank.vStop (t : Tank) : Nat := t.cap * t.fl / 1000

/-- R80: the fill limit clamped to 500 to min(980, hh - 20). -/
def clampFill (hh v : Nat) : Nat := clamp 500 (min 980 (hh - 20)) v

/-- Watched states (00_scope.md, R82). -/
def TankState.watched : TankState → Bool
  | .assigned | .filling | .topping | .full | .releasing => true
  | .listed | .overfill => false

/-- r_est (R115). -/
def Tank.rEst (t : Tank) : Option Nat :=
  if t.ring.isEmpty then none else some (t.ring.sum / t.ring.length)

/-- The change-over timer's run (R93). -/
def ChangeTimer.run (c : ChangeTimer) (now : Nat) : Nat := c.expired.getD (now - c.since)

/-! ### Reading the table -/

/-- The state of a tank; none is ABSENT. -/
def State.tankState (s : State) (t : TankId) : Option TankState := (s.tank t).map (·.state)

/-- A tank is in one of the watched states. -/
def State.isWatched (s : State) (t : TankId) : Bool :=
  match s.tankState t with
  | some st => st.watched
  | none => false

/-- The line a tank is lined up to (R78). -/
def State.tankLine (s : State) (t : TankId) : Option LineId := (s.tank t).bind (·.line)

/-- How many tanks of a line's lineup are in a state. -/
def State.countIn (s : State) (l : LineId) (st : TankState) : Nat :=
  ((s.lineup l).filter fun t => decide (s.tankState t = some st)).length

/-- R97: how many tanks of a line's lineup have their ship valve reported OPEN. -/
def State.openValves (s : State) (l : LineId) : Nat :=
  ((s.lineup l).filter fun t => decide ((s.tank t).map (·.valve) = some .opened)).length

/-! ### The ship link's lists of tanks (R85, R136, R138) -/

/-- R136: an advice joins the tail unless it is there already; a full queue loses its oldest; MANUAL drops it. -/
def State.queueAdvice (s : State) (t : TankId) (k : AdviceKind) : State :=
  if s.link.gauging = .manual ∨ (t, k) ∈ s.link.advices then s
  else s.modLink fun x =>
    { x with advices := (if 16 ≤ x.advices.length then x.advices.drop 1 else x.advices) ++ [(t, k)] }

/-- R138: a tank joins the tail of the poll queue when its record is created. -/
def State.joinPoll (s : State) (t : TankId) : State :=
  if t ∈ s.link.poll then s else s.modLink fun x => { x with poll := x.poll ++ [t] }

/-- R85: a removed tank leaves the poll queue, and every advice queued for it is dropped. -/
def State.forgetTank (s : State) (t : TankId) : State :=
  s.modLink fun x => { x with poll := setErase t x.poll, advices := x.advices.filter fun a => !decide (a.1 = t) }

/-! ### Causes and reports to the lines (R96, R97) -/

/-- R96: the line is told that its count of TOPPING tanks has changed. -/
def State.reportTopping (s : State) (l : LineId) (entered : Bool) : State :=
  s.tellTopping l (s.countIn l .topping) entered

/-- R96: the clearing of TANK_FULL, when no tank of the lineup is FULL any more. -/
def State.reportLeftFull (s : State) (l : LineId) : State :=
  if s.countIn l .full = 0 then s.dropHold l .tankFull else s

/-- R97: NO_OUTLET, when an event has brought the count of open valves from `before` to 0 with the line in OPENING or
DELIVERING. -/
def State.reportOutlets (s : State) (l : LineId) (before : Nat) : State :=
  if 0 < before ∧ s.openValves l = 0 ∧ (s.seq l).state.moving then s.addHold l .noOutlet else s

/-! ### Transitions of a tank -/

/-- The new state of a record; leaving RELEASING makes the timer absent, entering it starts the timer (R93). -/
def Tank.moved (st : TankState) (now : Nat) (t : Tank) : Tank :=
  { t with
    state := st
    timer := if st = .releasing then (if t.state = .releasing then t.timer else some { since := now, expired := none })
             else none }

/-- A tank changes state: the TANK notice (R79), and with a departure from RELEASING the end of its CHANGEOVER_LATE
condition (R93). -/
def State.moveTank (s : State) (t : TankId) (st : TankState) : State :=
  let s' := s.modTankNoticed t (Tank.moved st s.clock)
  if s.tankState t = some .releasing ∧ st ≠ .releasing then s'.alarmGone .changeoverLate (.tank t) else s'

/-- R82: a tank leaves the lineup: its line becomes absent, those behind it close up, and its STALE mark is cleared
(R101). -/
def State.leaveLineup (s : State) (t : TankId) : State :=
  match s.tankLine t with
  | none => s
  | some l =>
    ((s.modTankNoticed t fun r => { r with line := none, stale := false }).setLineup l
      (setErase t (s.lineup l))).notify (.line l)

/-- The line's share in a tank's departure from a state (R96). -/
def State.tellDeparture (s : State) (l : LineId) (was : TankState) : State :=
  match was with
  | .topping => s.reportTopping l false
  | .full => s.reportLeftFull l
  | .listed | .assigned | .filling | .releasing | .overfill => s

/-- R85: a record is removed. -/
def State.removeTank (s : State) (t : TankId) : State := ((s.setTank t none).forgetTank t).notify (.tank t)

/-- R84: an accepted entry's fields applied to a record that is neither watched nor OVERFILL, with the conflict mark and
any pending entry cleared (R86). -/
def Tank.withEntry (e : DirEntry) (t : Tank) : Tank :=
  { t with
    grade := e.grade
    cap := e.cap
    hh := e.hh
    name := e.name
    fl := if e.hh = t.hh then t.fl else clampFill e.hh t.fl
    vRep := t.vRep.map fun v => min v e.cap
    conflict := false
    pendingEntry := none }

/-- R86: a pending entry is applied once the tank is neither watched nor OVERFILL. -/
def State.applyPending (s : State) (t : TankId) : State :=
  match (s.tank t).bind (·.pendingEntry) with
  | none => s
  | some .vanished => s.removeTank t
  | some (.entry e) => s.modTankNoticed t (Tank.withEntry e)

/-- A tank becomes LISTED: it leaves the lineup (R82), its line is told (R96), and a pending entry is applied (R86).
`topped` sets the TOPPED mark (R79, R88). -/
def State.listTank (s : State) (t : TankId) (topped : Bool) : State :=
  match s.tank t with
  | none => s
  | some r =>
    let s₁ := ((s.moveTank t .listed).leaveLineup t).modTankNoticed t fun x => { x with topped := x.topped || topped }
    let s₂ := match r.line with
      | some l => s₁.tellDeparture l r.state
      | none => s₁
    s₂.applyPending t

/-- A lined-up tank changes to a state in which it stays lined up, and its line is told of the departure (R96). -/
def State.shiftTank (s : State) (t : TankId) (st : TankState) : State :=
  match s.tank t with
  | none => s
  | some r =>
    let s' := s.moveTank t st
    match r.line with
    | some l => if r.state = st then s' else s'.tellDeparture l r.state
    | none => s'

/-- A tank becomes FILLING: NO_OUTLET is cleared on its line (R97). -/
def State.startFilling (s : State) (t : TankId) : State :=
  let s' := s.shiftTank t .filling
  match s.tankLine t with
  | some l => s'.dropHold l .noOutlet
  | none => s'

/-- The rate ring is cleared and the anchor made absent (R118). -/
def State.clearRing (s : State) (t : TankId) : State := s.modTank t fun r => { r with ring := [], anchor := none }

/-- R95: "line resumed" and "rate changed" clear the ring of every tank of the lineup. -/
def State.clearRings (s : State) (l : LineId) : State := (s.lineup l).foldl State.clearRing s

/-! ### Overfill (R107) -/

/-- R107: entry to OVERFILL. -/
def State.enterOverfill (s : State) (t : TankId) : State :=
  match s.tank t with
  | none => s
  | some r =>
    let s₁ := (((s.moveTank t .overfill).leaveLineup t).clearRing t).modTankNoticed t fun x => { x with stale := false }
    let s₂ := match r.line with
      | some l => (s₁.tellDeparture l r.state).reportOutlets l (s.openValves l)
      | none => s₁
    (s₂.deviceTrip (.overfill t)).queueAdvice t .overfill

/-- The reported volume stands at or above V_hh in a state other than OVERFILL (R107). -/
def Tank.overfills (r : Tank) : Bool :=
  match r.vRep with
  | some v => decide (r.vHh ≤ v) && !decide (r.state = .overfill)
  | none => false

/-! ### Staleness (R101) -/

/-- The staleness limit of the gauging mode in force. -/
def State.staleLimit (s : State) : Nat :=
  match s.link.gauging with
  | .linked => s.settings.stalel
  | .manual => s.settings.stalem

/-- The age of a tank's volume. -/
def Tank.age (r : Tank) (now : Nat) : Nat := now - r.mTime.getD now

/-- A tank is stale when its volume's age exceeds the limit. -/
def Tank.isStale (r : Tank) (now limit : Nat) : Bool := r.vRep.isSome && decide (limit < r.age now)

/-- R101: the STALE mark is set or cleared. -/
def State.judgeStale (s : State) (t : TankId) : State :=
  s.modTankNoticed t fun r => { r with stale := r.isStale s.clock s.staleLimit }

/-! ### The margin computation (R102 to R105) -/

/-- The line states in which a tank is evaluated (R99). -/
def LineState.evaluates : LineState → Bool
  | .connected | .opening | .delivering | .holding | .held | .finishing => true
  | .disconnected | .stroking | .tripping | .tripped => false

/-- The line states in which the second action applies (R106). -/
def LineState.overruns : LineState → Bool
  | .opening | .delivering | .holding | .finishing => true
  | .disconnected | .connected | .stroking | .held | .tripping | .tripped => false

/-- n of R102: the tanks of the lineup in FILLING or TOPPING, 1 when there is none. -/
def State.sharers (s : State) (l : LineId) : Nat := max (s.countIn l .filling + s.countIn l .topping) 1

/-- r_m (R102). -/
def marginRate (st : LineState) (r : Tank) (stale : Bool) (q n : Nat) : Nat :=
  if st = .connected ∨ st = .held ∨ r.state = .assigned then 0
  else
    match stale, r.rEst with
    | false, some e => min q (max e (q / n))
    | _, _ => q

/-- The figures of an evaluation from r_m on (R103, R104, R105). -/
def results (r : Tank) (vRep rm age tC tReact vd now : Nat) : Results :=
  let vNow := vRep + ceilDiv (rm * age) 600
  let room : Int := (r.vStop : Int) - vNow
  let stop := ceilDiv (rm * (tC + 2 * tReact)) 1200 + vd
  let margin := room - stop
  { rm := rm, age := age, vNow := vNow, room := room, stop := stop, margin := margin, endVol := vNow + stop,
    tau := if 0 < rm ∧ 0 < margin then some (margin.toNat * 600 / rm) else none,
    time := now }

/-- Q_L of the line's latest line-sampled event (R98). While no line-sampled event has carried one it is a free value of
its range (log 16). -/
def State.watchedFlow (s : State) (l : LineId) : Nat :=
  (s.meas l).watchQ.getD (min 20000 (Config.unformedFlow (lineNumber l) s.clock))

/-- The evaluation of a tank on a line at this moment (R101 to R105). T_c absent takes T_max (R98). -/
def State.evaluation (s : State) (l : LineId) (r : Tank) (vRep : Nat) : Results :=
  let m := s.meas l
  let stale := r.isStale s.clock s.staleLimit
  let rm := marginRate (s.seq l).state r stale (s.watchedFlow l) (s.sharers l)
  let tMax := ((s.limits l).map (·.tMax)).getD 0
  let vd := ((s.limits l).map (·.vd)).getD 0
  results r vRep rm (r.age s.clock) (m.tC.getD tMax) s.settings.treact vd s.clock

/-! ### Acting on the margin (R106, R109 to R113) -/

/-- R110: entry to FULL. -/
def State.enterFull (s : State) (t : TankId) (l : LineId) : State :=
  ((s.shiftTank t .full).addHold l .tankFull).queueAdvice t .full

/-- R112: entry to TOPPING. -/
def State.enterTopping (s : State) (t : TankId) (l : LineId) : State :=
  ((s.moveTank t .topping).reportTopping l true).queueAdvice t .topping

/-- The second, third and fourth actions of R106: the first that applies is taken. -/
def State.actOn (s : State) (t : TankId) (l : LineId) (r : Tank) (e : Results) : State :=
  if (s.seq l).state.overruns ∧ r.vHh ≤ e.endVol
      ∧ (r.state = .filling ∨ r.state = .topping ∨ r.state = .full ∨ r.state = .releasing) then
    s.addTrip l .overrun
  else if e.margin ≤ 0 ∧ (r.state = .filling ∨ r.state = .topping ∨ r.state = .releasing) then s.enterFull t l
  else
    match e.tau with
    | some tau => if tau ≤ s.settings.ttop ∧ r.state = .filling then s.enterTopping t l else s
    | none => s

/-- R99, R100: an evaluation, where its three conditions hold; R111 hands TANK_FULL again after one that leaves the tank
FULL. -/
def State.evaluate (s : State) (t : TankId) : State :=
  match s.tank t with
  | none => s
  | some r =>
    match r.line, r.vRep with
    | some l, some v =>
      if r.state.watched ∧ (s.seq l).state.evaluates then
        let e := s.evaluation l r v
        let s₁ := (s.judgeStale t).modTank t fun x => { x with results := some e }
        let s₂ := s₁.actOn t l r e
        if s₂.tankState t = some .full then s₂.addHold l .tankFull else s₂
      else s
    | _, _ => s

/-- R100, R101: the line-sampled event of a line judges the staleness of each tank of the lineup and evaluates it. -/
def State.lineSampled (s : State) (l : LineId) : State :=
  (s.lineup l).foldl (fun s t => (s.judgeStale t).evaluate t) s

/-! ### The rate estimator (R115 to R117) -/

/-- R115: a rate enters the ring of at most `w`. -/
def pushRate (w : Nat) (ring : List Nat) (rate : Nat) : List Nat :=
  (ring ++ [rate]).drop ((ring ++ [rate]).length - w)

/-- R116: what a report with a good volume does to the ring and anchor of a lined-up tank. `steady` and `epoch` are the
line's. -/
def Tank.estimate (steady : Bool) (epoch w volume time : Nat) (r : Tank) : Tank :=
  if r.valve ≠ .opened ∨ steady = false then { r with anchor := none }
  else
    match r.anchor with
    | none => { r with anchor := some { volume, time, epoch } }
    | some a =>
      if a.epoch ≠ epoch then { r with anchor := some { volume, time, epoch } }
      else if time - a.time < 20 then r
      else
        { r with
          ring := pushRate w r.ring ((volume - a.volume) * 600 / (time - a.time))
          anchor := some { volume, time, epoch } }

/-- R116: the report is handed to the estimator. -/
def State.estimate (s : State) (t : TankId) : State :=
  match s.tank t with
  | none => s
  | some r =>
    match r.line, r.vRep, r.mTime with
    | some l, some v, some m =>
      s.modTank t (Tank.estimate (s.meas l).steady (s.meas l).epoch s.settings.estw v m)
    | _, _, _ => s.modTank t fun r => { r with anchor := none }

/-! ### Level reports (R87, R88) -/

/-- A level report (R87). -/
structure LevelReport where
  tank : TankId
  volume : Nat
  valve : ValveWord
  fault : Bool
  age : Nat
  deriving DecidableEq, Repr

/-- The ship valve of a record as a report gives it. -/
def reportedValve : ValveWord → ShipValve
  | .opened => .opened
  | .closed => .closed

/-- Steps 3 and 4 of R87, on a record. -/
def Tank.reported (p : LevelReport) (mTime : Nat) (r : Tank) : Tank :=
  let r := { r with valve := reportedValve p.valve, fault := some p.fault }
  if p.fault then r else { r with vRep := some (min p.volume r.cap), mTime := some mTime }

/-- Steps 3 and 4 of R87: only a changed valve or fault makes the TANK notice pending (R79). -/
def State.takeReport (s : State) (p : LevelReport) (mTime : Nat) : State :=
  s.modTankNoticed p.tank (Tank.reported p mTime)

/-- R88: the transitions a report brings. A valve reported CLOSED clears the ring and makes the anchor absent in any state
(R118), also with gauge fault yes, of which R116 says that the anchor stays: the model's choice (log 53). -/
def State.reportTransition (s : State) (t : TankId) (v : ValveWord) : State :=
  match s.tank t with
  | none => s
  | some r =>
    match v with
    | .opened => if r.state = .assigned ∧ r.vRep.isSome then s.startFilling t else s
    | .closed =>
      let s := s.clearRing t
      match r.state with
      | .filling | .topping => s.shiftTank t .assigned
      | .full => s.listTank t true
      | .releasing => s.listTank t false
      | .listed | .assigned | .overfill => s

/-- Steps 5 and 6 of R87 with R97 and R107: the transitions, the count of open valves judged against `before`, then
overfill, and without it the estimator and the evaluation. -/
def State.afterReport (s : State) (p : LevelReport) (line : Option LineId) (before : Nat) : State :=
  let s₁ := s.reportTransition p.tank p.valve
  let s₂ := match line with
    | some l => s₁.reportOutlets l before
    | none => s₁
  match s₂.tank p.tank with
  | none => s₂
  | some r =>
    if r.overfills then s₂.enterOverfill p.tank
    else (if p.fault then s₂ else s₂.estimate p.tank).evaluate p.tank

/-- R87: the arrival of a level report. -/
def State.levelReport (s : State) (p : LevelReport) : State :=
  match s.tank p.tank with
  | none => s
  | some r =>
    let mTime := s.clock - p.age
    if mTime < r.mTime.getD 0 then s
    else
      let before := match r.line with
        | some l => s.openValves l
        | none => 0
      (s.takeReport p mTime).afterReport p r.line before

/-! ### Events from the lines (R94) -/

/-- R94: "line disconnected". -/
def State.lineDisconnected (s : State) (l : LineId) : State := (s.lineup l).foldl (fun s t => s.listTank t false) s

/-- R94: one tank of the lineup at "line finished". -/
def State.finishTank (s : State) (t : TankId) : State :=
  if (s.tank t).map (·.valve) = some .closed then s.listTank t false else s.shiftTank t .releasing

/-- R94: "line finished". -/
def State.lineFinished (s : State) (l : LineId) : State := (s.lineup l).foldl State.finishTank s

/-- R93: the expiry of a change-over timer, once for each entry to RELEASING. -/
def State.expireChange (s : State) (t : TankId) : State :=
  match (s.tank t).bind (·.timer) with
  | some c =>
    if c.expired = none then
      ((s.modTank t fun r => { r with timer := some { c with expired := some (s.clock - c.since) } }).notify
        (.tank t)).raiseAlarm .changeoverLate (.tank t)
    else s
  | none => s

/-- R93: the expiry, if the run has reached the timeout in force. -/
def State.judgeChange (s : State) (t : TankId) : State :=
  match (s.tank t).bind (·.timer) with
  | some c => if s.settings.changeover ≤ c.run s.clock then s.expireChange t else s
  | none => s

/-! ### The directory (R83 to R85) -/

/-- A character that is printable, from space to tilde (R159). -/
def printable (c : Char) : Bool := decide (32 ≤ c.toNat) && decide (c.toNat ≤ 126)

/-- R83: the ranges of an entry, and its name's characters. -/
def DirEntry.inRange (e : DirEntry) : Bool :=
  decide (1 ≤ e.number) && decide (e.number ≤ 16) && decide (1 ≤ e.grade) && decide (e.grade ≤ 4)
    && decide (1000 ≤ e.cap) && decide (e.cap ≤ 4000000) && decide (900 ≤ e.hh) && decide (e.hh ≤ 995)
    && (match e.name with | some n => n.toList.all printable | none => true)

/-- R84: the entry agrees with the record's grade, capacity, hh and name. -/
def DirEntry.agrees (e : DirEntry) (r : Tank) : Bool :=
  decide (e.grade = r.grade) && decide (e.cap = r.cap) && decide (e.hh = r.hh) && decide (e.name = r.name)

/-- R83: the record an accepted entry creates. -/
def Tank.created (e : DirEntry) : Tank :=
  { name := e.name, grade := e.grade, cap := e.cap, hh := e.hh, fl := clampFill e.hh 900, vRep := none, mTime := none,
    valve := .unknown, fault := none, line := none, timer := none, pendingEntry := none, ring := [], anchor := none,
    results := none, state := .listed, topped := false, stale := false, conflict := false }

/-- The record's directory data is held back: watched, or OVERFILL (R84). -/
def Tank.heldBack (r : Tank) : Bool := r.state.watched || decide (r.state = .overfill)

/-- R83, R84: an accepted entry. -/
def State.acceptEntry (s : State) (t : TankId) (e : DirEntry) : State :=
  match s.tank t with
  | none => ((s.setTank t (some (Tank.created e))).notify (.tank t)).joinPoll t
  | some r =>
    if r.heldBack then
      if e.agrees r then s.modTankNoticed t fun r => { r with pendingEntry := none, conflict := false }
      else
        (s.modTankNoticed t fun r => { r with pendingEntry := some (.entry e), conflict := true }).notify
          (.directory (some t))
    else if e.agrees r then s.modTankNoticed t fun r => { r with pendingEntry := none, conflict := false }
    else s.modTankNoticed t (Tank.withEntry e)

/-- R83: a rejected entry. Its tank is none when the number is itself out of range. -/
def State.rejectEntry (s : State) : Option TankId → State
  | some t =>
    (s.modTankNoticed t fun r => { r with pendingEntry := none, conflict := true }).notify (.directory (some t))
  | none => (s.modLink fun k => { k with rejected := k.rejected + 1 }).notify (.directory none)

/-- R83: the entries in index order; `seen` are the tank numbers that earlier entries named. -/
def State.applyEntries (s : State) (seen : List Nat) : List DirEntry → State
  | [] => s
  | e :: es =>
    let s' := match tankOf e.number with
      | some t => if e.inRange ∧ e.number ∉ seen then s.acceptEntry t e else s.rejectEntry (some t)
      | none => s.rejectEntry none
    s'.applyEntries (e.number :: seen) es

/-- R85: a record that no entry named. -/
def State.dropUnnamed (s : State) (named : List Nat) (t : TankId) : State :=
  match s.tank t with
  | none => s
  | some r =>
    if tankNumber t ∈ named then s
    else if r.heldBack then
      (s.modTankNoticed t fun r => { r with pendingEntry := some .vanished, conflict := true }).notify
        (.directory (some t))
    else s.removeTank t

/-- R83 to R85: a complete directory is applied whole as one event. -/
def State.applyDirectory (s : State) (es : List DirEntry) : State :=
  allTanks.foldl (fun s t => s.dropUnnamed (es.map (·.number)) t)
    ((s.modLink fun k => { k with rejected := 0 }).applyEntries [] es)

end Sys2Proof.Machine
end

