-- ==== Sys2Proof/Machine/Sequence.lean ====
section
/-! DEFINITION. The transitions of the line sequence at drive steps and requests (R39 to R58), the stroke test (R30 to
R34), the rate loop (R66 to R69), and the four stages of a sample event (R2). -/

namespace Sys2Proof.Machine

/-! ### Transitions -/

/-- Entry to OPENING at START and RESUME (R45, R52): target_eff is first formed for the spell (R65) and the drive is given
RAMP to the start opening at half mechanical speed (R26), the tracking timer from 0 (R28). -/
def State.enterOpening (s : State) (l : LineId) : State :=
  let s' := (s.modSeq l fun q => { q with state := .opening, holds := setErase .operator q.holds }).formTarget l
  match s'.limits l with
  | some lim =>
    s'.modDrive l fun d =>
      (d.rampTo lim.startOpening (halfSpeedTime (d.tStroke.getD 0) d.setpoint lim.startOpening)).trackFrom0
  | none => s'

/-- R46: entry to DELIVERING. -/
def State.enterDelivering (s : State) (l : LineId) : State :=
  (((s.modSeq l fun q => { q with state := .delivering }).modDrive l fun d => d.release.trackFrom0).modRate l
      fun r => { r with surgeRun := 0, maxRun := 0, loopWaits := true }).modMeas l
    fun m => { m with inRun := 0, outRun := 0 }

/-- R50: entry to HELD. -/
def State.enterHeld (s : State) (l : LineId) : State :=
  (s.modSeq l fun q => { q with state := .held }).modDrive l fun d => d.rest.trackFrom0

/-- R57: entry to TRIPPED, with target_eff absent (R76). -/
def State.enterTripped (s : State) (l : LineId) : State :=
  ((s.modSeq l fun q => { q with state := .tripped }).modDrive l fun d => d.rest.trackFrom0).dropTarget l

/-- Entry to CONNECTED from FINISHING, HELD or TRIPPED: REST (R39), the hold-cause set emptied (R47), target_eff and the
pending target absent (R73, R76). -/
def State.enterConnected (s : State) (l : LineId) : State :=
  (((s.modSeq l fun q => { q with state := .connected, holds := [] }).modDrive l fun d => d.rest.trackFrom0).dropTarget
      l).modRate l fun r => { r with pendingTarget := none }

/-- R54: a finished line enters CONNECTED and hands "line finished" to the tank watch. -/
def State.finishLine (s : State) (l : LineId) : State := (s.enterConnected l).lineFinished l

/-! ### The end of a stroke test (R32, R33) -/

/-- R43: the line returns to CONNECTED; the hold-cause set, target_eff and the pending target stand as on every entry to
CONNECTED (R47, R73, R76). -/
def State.strokeToConnected (s : State) (l : LineId) : State :=
  (((s.modSeq l fun q => { q with state := .connected, holds := [] }).modDrive l Drive.trackFrom0).dropTarget l).modRate l
    fun r => { r with pendingTarget := none }

/-- R33: a failed test. -/
def State.failStroke (s : State) (l : LineId) (why : StrokeFailure) : State :=
  ((((s.modDrive l fun d => (d.endStroke (.failed why)).adjust 0).notify (.doneStroke l)).raiseAlarm .strokeFailed
    (.line l))).strokeToConnected l

/-- R32: a passed test. -/
def State.passStroke (s : State) (l : LineId) (tMeas : Nat) : State :=
  ((((s.modDrive l fun d => { d.endStroke (.pass tMeas) with tMeas := some tMeas }).notify (.doneStroke l)).alarmGone
    .strokeFailed (.line l))).strokeToConnected l

/-- R32: DONE, entered and judged within the drive step. -/
def State.judgeStroke (s : State) (l : LineId) (timer : Nat) : State :=
  let s' := s.modDrive l fun d => { d with stage := some .done }
  let t := scaledStroke timer
  if 20 ≤ t ∧ t ≤ 1800 then s'.passStroke l t else s'.failStroke l .outOfRange

/-- R31: OPEN_MOVE fails when its stage timer has reached 1,800 ds. -/
def State.judgeOpenTimeout (s : State) (l : LineId) : State :=
  let d := s.drive l
  if (s.seq l).state = .stroking ∧ d.stage = some .openMove ∧ 1800 ≤ d.stageTimer.getD 0 then
    s.failStroke l .openTimeout
  else s

/-- R31: SETTLE ends when its stage timer has reached 20 ds. -/
def State.judgeSettleEnd (s : State) (l : LineId) : State :=
  let d := s.drive l
  if (s.seq l).state = .stroking ∧ d.stage = some .settle ∧ 20 ≤ d.stageTimer.getD 0 then
    s.modDrive l fun d => { d.adjust 0 with stage := some .closeMove, stageTimer := some 0 }
  else s

/-- R32: CLOSE_MOVE fails when its stage timer has reached 1,800 ds. -/
def State.judgeCloseTimeout (s : State) (l : LineId) : State :=
  let d := s.drive l
  if (s.seq l).state = .stroking ∧ d.stage = some .closeMove ∧ 1800 ≤ d.stageTimer.getD 0 then
    s.failStroke l .closeTimeout
  else s

/-- 2 ds are added to the stage timer (R31, R32). -/
def Drive.stageStep (d : Drive) : Drive := { d with stageTimer := some (d.stageTimer.getD 0 + 2) }

/-- R32, steps 1 and 2: the stroke timer. -/
def Drive.strokeTimerStep (pos : Option Nat) (d : Drive) : Drive :=
  match d.strokeTimer with
  | none => if pos.any (· < 980) then { d with strokeTimer := some 0 } else d
  | some t => { d with strokeTimer := some (t + 2) }

/-- R31, R32: one drive step of a stroke test. A timeout is judged here, before the tracking check of the same event, and a
test it has failed is checked no more: the model's choice (log 52). A valve that stops at 950 to 979 permille in OPEN_MOVE is
on track by R28 and fails by OPEN_TIMEOUT: the model's choice (log 51). -/
def State.strokeStep (s : State) (l : LineId) (pos : Option Nat) : State :=
  match (s.drive l).stage with
  | some .openMove =>
    let s' := s.modDrive l Drive.stageStep
    if pos.any (980 ≤ ·) then s'.modDrive l fun d => { d with stage := some .settle, stageTimer := some 0 }
    else s'.judgeOpenTimeout l
  | some .settle => (s.modDrive l Drive.stageStep).judgeSettleEnd l
  | some .closeMove =>
    let s' := s.modDrive l fun d => d.stageStep.strokeTimerStep pos
    match (s'.drive l).strokeTimer with
    | some t => if pos.any (· ≤ 20) then s'.judgeStroke l t else s'.judgeCloseTimeout l
    | none => s'.judgeCloseTimeout l
  | some .done | none => s

/-! ### The rate loop (R66 to R69) -/

/-- R69: the takeover runs are counted, each held at 5. The loop mode in force acts from here (R71). -/
def Rate.countRuns (q : Option Nat) (qSurge qMax : Option Nat) (r : Rate) : Rate :=
  let above (limit : Option Nat) : Bool :=
    match q, limit with
    | some q, some m => decide (m < q)
    | _, _ => false
  { r with
    surgeRun := if above qSurge then min 5 (r.surgeRun + 1) else 0
    maxRun := if above qMax then min 5 (r.maxRun + 1) else 0
    loopWaits := false }

/-- The deadband of R67. -/
def deadband (eff : Nat) : Nat := max (eff / 100) 20

/-- R67: the AUTO step of the setpoint. The clamp leaves a setpoint at 1000 that is asked to rise, and one at 50 that is
asked to fall, where it is. One below 50 with the error inside the deadband is left as it is: the model's choice
(log 44). -/
def autoStep (eff q step sp : Nat) : Nat :=
  if q + deadband eff < eff then clamp 50 1000 (sp + step)
  else if eff + deadband eff < q then clamp 50 1000 (sp - step)
  else sp

/-- R68: the SET step of the setpoint, a move by the loop step toward the console opening. One that starts below 50 may end
below 50: the model's choice (log 44). -/
def setStep (opening step sp : Nat) : Nat :=
  if sp < opening then min opening (sp + step) else if opening < sp then max opening (sp - step) else sp

/-- The setpoint that the step of the loop mode gives (R67, R68). -/
def loopSetpoint (r : Rate) (q : Option Nat) (step sp : Nat) : Nat :=
  match r.mode with
  | .auto =>
    match r.eff, q with
    | some e, some q => autoStep e q step sp
    | _, _ => sp
  | .freeze => sp
  | .set =>
    match r.opening with
    | some o => setStep o step sp
    | none => sp

/-- R66, third stage: the loop step; a step that leaves the setpoint where it stands gives no order. -/
def State.loopStep (s : State) (l : LineId) : State :=
  match s.limits l with
  | none => s
  | some lim =>
    let d := s.drive l
    let sp := loopSetpoint (s.rate l) (s.meas l).q lim.loopStep d.setpoint
    if sp = d.setpoint then s else s.modDrive l (Drive.adjust sp)

/-- R66: the drive step of a line in DELIVERING, before its tracking check. -/
def State.rateLoopStep (s : State) (l : LineId) : State :=
  let m := s.meas l
  (((s.modRate l (Rate.countRuns m.q m.qSurge ((s.limits l).map (·.qMax)))).judgeTakeover l).formTarget l).loopStep l

/-! ### The tracking check (R28, R29) -/

/-- The line states in which the check runs (R28). -/
def LineState.tracked : LineState → Bool
  | .stroking | .opening | .delivering | .holding | .finishing | .tripping => true
  | .disconnected | .connected | .held | .tripped => false

/-- The check fails: the tracking timer exceeds A (R28). -/
def State.trackingFails (s : State) (l : LineId) : Bool :=
  (s.seq l).state.tracked && decide ((s.drive l).allowance < (s.drive l).track)

/-- R29: the timer is set to 0, and what follows depends on the line state. -/
def State.failTracking (s : State) (l : LineId) : State :=
  let s' := s.modDrive l Drive.trackFrom0
  match (s.seq l).state with
  | .opening | .delivering | .holding | .finishing => s'.addTrip l .valveTravel
  | .tripping => (s'.addTrip l .valveTravel).enterTripped l
  | .stroking => s'.failStroke l .travel
  | .disconnected | .connected | .held | .tripped => s'

/-- R29, R57: the failure of the check, where it has failed by the allowance that the latest sample event took up: a
STROKESET since then acts from the next sample event (R28). -/
def State.judgeTracking (s : State) (l : LineId) : State :=
  if (s.seq l).state.tracked ∧ (s.meas l).allowed < (s.drive l).track then s.failTracking l else s

/-- The position is in range and at or under 20 permille (R27). -/
def closedPos (pos : Option Nat) : Bool := pos.any (· ≤ 20)

/-- The transitions taken on the position at a drive step whose check has not failed (R46, R50, R54, R57). -/
def State.positionTransition (s : State) (l : LineId) (pos : Option Nat) : State :=
  match (s.seq l).state with
  | .opening =>
    match s.limits l, pos with
    | some lim, some p => if absDiff p lim.startOpening ≤ 20 then s.enterDelivering l else s
    | _, _ => s
  | .holding => if closedPos pos then s.enterHeld l else s
  | .finishing => if closedPos pos then s.finishLine l else s
  | .tripping => if closedPos pos then s.enterTripped l else s
  | .disconnected | .connected | .stroking | .delivering | .held | .tripped => s

/-- R28 with the transitions: the check of the event, then its failure or the position's transitions. That the failure
wins in HOLDING and FINISHING too, over a position at or under 20 permille of the same event, is the model's choice
(log 45); R46 and R57 say it for OPENING and TRIPPING. -/
def State.trackAndMove (s : State) (l : LineId) (pos : Option Nat) : State :=
  if (s.seq l).state.tracked then
    let s' := s.modDrive l (Drive.trackStep pos)
    if s'.trackingFails l then s'.failTracking l else s'.positionTransition l pos
  else s

/-! ### Measurement (R3 to R14) -/

/-- One transmitter's latest valid reading and out-of-range run after a sample (R3). -/
def takeReading (x : Option Nat) (latest : Option Nat) (run : Nat) : Option Nat × Nat :=
  match x with
  | some v => (some v, 0)
  | none => (latest, min 255 (run + 1))

/-- R5: Q_L from the window. -/
def flowOf (window : List Nat) (f : Nat) : Nat := min 20000 (window.sum * 6000 / f)

/-- R3, R5, R6: window, Q_L, totaliser and transmitter runs. -/
def Meas.takeSample (x : Sample) (f : Option Nat) (counting : Bool) (m : Meas) : Meas :=
  let window := m.window.drop 1 ++ [x.pulses]
  let p := takeReading x.pressure m.pressure m.pressureOut
  let e := takeReading x.stretch m.stretch m.stretchOut
  let v := takeReading x.position m.position m.positionOut
  { m with
    window := window
    q := f.map fun f => flowOf window f
    pTot := if counting then m.pTot + x.pulses else m.pTot
    pressure := p.1, pressureOut := p.2
    stretch := e.1, stretchOut := e.2
    position := v.1, positionOut := v.2 }

/-- A transmitter of the line is faulted (R4). -/
def Meas.faulted (m : Meas) : Bool :=
  decide (5 ≤ m.pressureOut) || decide (5 ≤ m.stretchOut) || decide (5 ≤ m.positionOut)

/-- The line states in which SENSOR_FAULT is added (R4). -/
def LineState.sensed : LineState → Bool
  | .opening | .delivering | .holding | .held | .finishing => true
  | .disconnected | .connected | .stroking | .tripping | .tripped => false

/-- R4: SENSOR_FAULT. -/
def State.judgeSensorFault (s : State) (l : LineId) : State :=
  if (s.meas l).faulted ∧ (s.seq l).state.sensed then s.addTrip l .sensorFault else s

/-- R8: the over-pressure run after a sample; an out-of-range sample is skipped. -/
def Meas.takePressure (x : Option Nat) (rated : Nat) (m : Meas) : Meas :=
  match x with
  | some p => { m with overRun := if rated < p then m.overRun + 1 else 0 }
  | none => m

/-- R8: OVERPRESSURE. -/
def State.judgeOverpressure (s : State) (l : LineId) : State :=
  if (s.seq l).state ≠ .disconnected ∧ 3 ≤ (s.meas l).overRun then s.addTrip l .overpressure else s

/-- The warn limit W of the band (R9). -/
def Meas.warnLimit (m : Meas) (lim : Limits) : Nat :=
  match m.band with
  | .settling => lim.warnSettle
  | .running => lim.warnRun

/-- The clear level of R11. -/
def clearLevel (w : Nat) : Nat := max (w - 50) 1

/-- R10, R11, R12: the stretch runs and the stretch-warn condition after a valid sample. -/
def Meas.takeStretch (v : Nat) (lim : Limits) (m : Meas) : Meas :=
  let w := m.warnLimit lim
  { m with
    warn := m.warn || decide (w < v)
    clearRun := if w < v then 0 else if v < clearLevel w then m.clearRun + 1 else 0
    tripRun := if lim.tripLimit < v then m.tripRun + 1 else 0 }

/-- R10: a valid sample above W raises (STRETCH_WARN, line) and hands STRETCH. -/
def State.warnStretch (s : State) (l : LineId) (v w : Nat) : State :=
  if w < v then (s.raiseAlarm .stretchWarn (.line l)).addHold l .stretch else s

/-- R11: the stretch-warn condition clears after a quiet spell. -/
def State.judgeStretchClear (s : State) (l : LineId) : State :=
  let m := s.meas l
  if m.warn ∧ 50 ≤ m.clearRun then
    ((s.modMeas l fun m => { m with warn := false }).dropHold l .stretch).alarmGone .stretchWarn (.line l)
  else s

/-- R12: STRETCH_TRIP joins the line's set and is handed to the trip unit. -/
def State.judgeStretchTrip (s : State) (l : LineId) : State :=
  if (s.seq l).state ≠ .disconnected ∧ 2 ≤ (s.meas l).tripRun then
    (s.addTrip l .stretchTrip).deviceTrip (.stretchTrip l)
  else s

/-- The stretch part of the measurement stage. -/
def State.stretchStage (s : State) (l : LineId) (x : Option Nat) (lim : Limits) : State :=
  let s₁ := match x with
    | some v => (s.modMeas l (Meas.takeStretch v lim)).warnStretch l v ((s.meas l).warnLimit lim)
    | none => s
  (s₁.judgeStretchClear l).judgeStretchTrip l

/-- R13: entry into steady. The first since CONNECT finds the band SETTLING and makes it RUNNING (R9). -/
def State.enterSteady (s : State) (l : LineId) : State :=
  ((s.modMeas l fun m =>
      { m with steady := true, inRun := 0, outRun := 0, epoch := (m.epoch + 1) % 65536, band := .running }).notify
    (.line l)).alarmGone .flowUnsteady (.line l)

/-- R13: the entry, when the in-band run has reached the N that the latest sample event took up: a SET since then takes
effect at the next sample event (R15). -/
def State.judgeSteady (s : State) (l : LineId) : State :=
  let m := s.meas l
  if (s.seq l).state = .delivering ∧ m.steady = false ∧ m.steadyN ≤ m.inRun then s.enterSteady l else s

/-- R14: the loss of steady without a change of target. -/
def State.judgeUnsteady (s : State) (l : LineId) : State :=
  let m := s.meas l
  if (s.seq l).state = .delivering ∧ m.steady ∧ 3 ≤ m.outRun then
    (s.endSteady l).raiseAlarm .flowUnsteady (.line l)
  else s

/-- The steady band B (R13). -/
def steadyBand (eff b : Nat) : Nat := max (eff * b / 1000) 50

/-- R13, R14: the steady detector at a sample event in DELIVERING. -/
def State.steadyStage (s : State) (l : LineId) : State :=
  match (s.seq l).state, (s.meas l).q, (s.rate l).eff with
  | .delivering, some q, some e =>
    let b := steadyBand e s.settings.band
    if (s.meas l).steady then
      if 2 * b < absDiff q e then (s.modMeas l fun m => { m with outRun := m.outRun + 1 }).judgeUnsteady l
      else s.modMeas l fun m => { m with outRun := 0 }
    else if absDiff q e ≤ b then (s.modMeas l fun m => { m with inRun := m.inRun + 1 }).judgeSteady l
    else s.modMeas l fun m => { m with inRun := 0 }
  | _, _, _ => s

/-- R15, R28: a sample event takes up the steady count and the tracking allowance in force. -/
def Meas.takeUp (steadyN allowed : Nat) (m : Meas) : Meas := { m with steadyN := steadyN, allowed := allowed }

/-- The measurement stage (R2). In DISCONNECTED the runs are held at 0 and nothing is judged. -/
def State.measureStage (s : State) (l : LineId) (x : Sample) : State :=
  let counting := decide ((s.seq l).state ≠ .disconnected)
  let s₁ := s.modMeas l fun m =>
    (m.takeSample x ((s.limits l).map (·.f)) counting).takeUp s.settings.steadyn (s.drive l).allowance
  match counting, s.limits l with
  | true, some lim =>
    let s₂ := ((s₁.judgeSensorFault l).modMeas l (Meas.takePressure x.pressure lim.pRated)).judgeOverpressure l
    (s₂.stretchStage l x.stretch lim).steadyStage l
  | true, none => s₁.judgeSensorFault l
  | false, _ => s₁.modMeas l fun m => { m with overRun := 0, clearRun := 0, tripRun := 0 }

/-! ### Closure, drive step, handing (R2) -/

/-- The closure stage (R16, R17); in DISCONNECTED both figures are absent. -/
def State.closureStage (s : State) (l : LineId) : State :=
  if (s.seq l).state = .disconnected then s.modMeas l fun m => { m with tClose := none, qSurge := none }
  else
    let t := (s.drive l).tStroke
    match s.limits l with
    | some lim => s.modMeas l fun m => { m with tClose := some (m.tCloseNow lim t), qSurge := some (m.qSurgeNow lim) }
    | none => s.modMeas l fun m => { m with tClose := none, qSurge := none }

/-- The drive step (R2, R24, R31, R66, R77), its tracking check and transitions; the position becomes the last valid one
(R27). A stroke test that times out in the step is not checked: the model's choice (log 52). -/
def State.driveStage (s : State) (l : LineId) (pos : Option Nat) : State :=
  let s₁ := match (s.seq l).state with
    | .delivering => s.rateLoopStep l
    | .stroking => s.strokeStep l pos
    | .opening | .holding | .held | .finishing => (s.modDrive l Drive.rampStep).formTarget l
    | .disconnected | .connected | .tripping | .tripped => s
  (s₁.trackAndMove l pos).modDrive l (Drive.keepPos pos)

/-- T_c (R18): the remaining ramp time in HOLDING and FINISHING, T_close otherwise. -/
def handedTc (st : LineState) (m : Meas) (d : Drive) : Option Nat :=
  match st with
  | .holding | .finishing => some d.tRem
  | .connected | .stroking | .opening | .delivering | .held | .tripping | .tripped => m.tClose
  | .disconnected => none

/-- The handing stage: T_c is formed and the tank watch takes the line-sampled event (R2, R98, R100). -/
def State.handStage (s : State) (l : LineId) : State :=
  let tc := handedTc (s.seq l).state (s.meas l) (s.drive l)
  (s.modMeas l fun m => { m with tC := tc, watchQ := m.q }).lineSampled l

/-- A sample event, handled whole in four stages (R2, R65). -/
def State.sampleEvent (s : State) (l : LineId) (x : Sample) : State :=
  (((s.measureStage l x).closureStage l).driveStage l x.position).handStage l

end Sys2Proof.Machine
end

