-- ==== Sys2Proof/Machine/Telegram.lean ====
section
/-! DEFINITION. The CRC-16 (R160) and the layouts of ship-link telegrams (R174), with the judgement of a reply and of a
continuation (R125). -/

namespace Sys2Proof.Machine

/-! ### The check (R160) -/

/-- One bit of the CRC: polynomial 0x1021, neither reflected nor inverted. -/
def crcBit (r : CrcReg) : CrcReg := if r.msb then (r <<< 1) ^^^ 0x1021#16 else r <<< 1

/-- One byte fed in with its most significant bit first. -/
def crcByte (r : CrcReg) (b : Byte) : CrcReg :=
  crcBit (crcBit (crcBit (crcBit (crcBit (crcBit (crcBit (crcBit (r ^^^ (b.setWidth 16 <<< 8)))))))))

/-- The CRC-16 over bytes in order, the register starting at 0xFFFF. -/
def crc16 (bs : List Byte) : CrcReg := bs.foldl crcByte 0xFFFF#16

/-- The check sent high byte first (R174). -/
def crcBytes (r : CrcReg) : List Byte := [r.extractLsb' 8 8, r.extractLsb' 0 8]

/-! ### Numbers, most significant byte first (R174) -/

def be16 (a b : Byte) : Nat := a.toNat * 256 + b.toNat

def be32 (a b c d : Byte) : Nat := be16 a b * 65536 + be16 c d

/-! ### Queries (R174) -/

/-- The kind code of a query. -/
def Query.code : Query → Byte
  | .header => 0x01
  | .entry _ => 0x02
  | .level _ => 0x03
  | .permit _ => 0x04
  | .advice _ _ => 0x05
  | .alive => 0x06

/-- The address of a query (R125). -/
def Query.address : Query → Byte
  | .header | .alive => 0x00
  | .entry i => BitVec.ofNat 8 i
  | .level t | .advice t _ => BitVec.ofNat 8 (tankNumber t)
  | .permit l => BitVec.ofNat 8 (0x20 + lineNumber l)

def AdviceKind.code : AdviceKind → Byte
  | .topping => 0x01
  | .full => 0x02
  | .overfill => 0x03

/-- The body of a query: the advice kind, nothing otherwise. -/
def Query.body : Query → List Byte
  | .advice _ k => [k.code]
  | .header | .entry _ | .level _ | .permit _ | .alive => []

/-- A telegram from its bytes between the length byte and the check: the length counts itself and both check bytes. -/
def telegram (inside : List Byte) : List Byte :=
  let bs := BitVec.ofNat 8 (inside.length + 3) :: inside
  bs ++ crcBytes (crc16 bs)

/-- The telegram of a query. -/
def Query.bytes (q : Query) : List Byte := telegram ([q.code, q.address] ++ q.body)

/-! ### Replies (R125, R174) -/

/-- The bytes between length byte and check, when the length byte and the check agree with the telegram. -/
def opened (t : List Byte) : Option (List Byte) :=
  let n := t.length - 2
  match t.take n with
  | [] => none
  | len :: inside =>
    if len.toNat = t.length ∧ t.drop n = crcBytes (crc16 (t.take n)) then some inside else none

/-- What a good reply carries (R125). -/
inductive ReplyBody where
  | header (h : Header)
  | entry (e : DirEntry)
  | level (volume : Nat) (valve : ValveWord) (fault : Bool) (age revision : Nat)
  | permit (granted : Bool)
  | advice
  | alive
  deriving DecidableEq, Repr

/-- A reply: its STOP and MORE flags and its body. -/
structure Reply where
  stop : Bool
  more : Bool
  body : ReplyBody
  deriving DecidableEq, Repr

/-- A ship-valve code (R174). -/
def valveCode (b : Byte) : Option ValveWord :=
  if b = 0x01 then some .opened else if b = 0x02 then some .closed else none

/-- A yes or no code (R174). -/
def yesNo (b : Byte) : Option Bool := if b = 0x00 then some false else if b = 0x01 then some true else none

/-- The body of a reply to a query, with every code among the codes of its kind (R125). -/
def replyBody (q : Query) (bs : List Byte) : Option ReplyBody :=
  match q, bs with
  | .header, [count, rev] =>
    if 1 ≤ count.toNat ∧ count.toNat ≤ 16 then some (.header { count := count.toNat, revision := rev.toNat }) else none
  | .entry _, [num, grade, c3, c2, c1, c0, h1, h0] =>
    some (.entry { number := num.toNat, grade := grade.toNat, cap := be32 c3 c2 c1 c0, hh := be16 h1 h0, name := none })
  | .level _, [v3, v2, v1, v0, valve, fault, age, rev] =>
    match valveCode valve, yesNo fault with
    | some v, some f => some (.level (be32 v3 v2 v1 v0) v f age.toNat rev.toNat)
    | _, _ => none
  | .permit _, [granted] => (yesNo granted).map .permit
  | .advice _ k, [echo] => if echo = k.code then some .advice else none
  | .alive, [] => some .alive
  | _, _ => none

/-- A query whose reply may carry MORE (R125). -/
def Query.takesMore : Query → Bool
  | .entry _ => true
  | .header | .level _ | .permit _ | .advice _ _ | .alive => false

/-- R125: a reply is judged; none when it is not one the exchange can take. -/
def readReply (q : Query) (t : List Byte) : Option Reply :=
  match opened t with
  | some (kind :: address :: flags :: body) =>
    let stop := flags.getLsbD 0
    let more := flags.getLsbD 1
    if kind = q.code ∧ address = q.address ∧ (more = true → q.takesMore = true) then
      (replyBody q body).map fun b => { stop, more, body := b }
    else none
  | _ => none

/-- R125: a correct continuation of ENTRY `index` gives the name. -/
def readContinuation (index : Nat) (t : List Byte) : Option String :=
  match opened t with
  | some (kind :: address :: n :: name) =>
    if kind = 0x07 ∧ address = BitVec.ofNat 8 index ∧ 1 ≤ n.toNat ∧ n.toNat ≤ 6 ∧ name.length = n.toNat then
      some (String.ofList (name.map fun b => Char.ofNat b.toNat))
    else none
  | _ => none

end Sys2Proof.Machine
end

