-- ==== Sys2Proof/Machine/Link.lean ====
section
/-! DEFINITION. The ship link controller: the choice of the next exchange (R131, R134, R135, R139), the end of an
exchange (R124, R126, R127), the link states (R128, R129), acquisition and refresh (R131 to R133), permit replies (R137)
and level replies (R140). -/

namespace Sys2Proof.Machine

/-! ### The choice of the next exchange -/

/-- A query is sent and its exchange becomes the exchange in flight, with the reply window of this moment (R124). -/
def State.sendQuery (s : State) (q : Query) (refresh : Bool) : State :=
  s.modLink fun k => { k with exchange := some { query := q, refresh := refresh, window := s.settings.window, part := none } }

/-- The telegram of an acquisition or refresh that comes next: HEADER, then the entries in index order (R131). -/
def nextTelegram (header : Option Header) (next : Nat) : Query :=
  match header with
  | none => .header
  | some _ => .entry next

/-- R139: the tank a LEVEL exchange picks from the poll queue. -/
def pickTank (watched : TankId → Bool) (polls : Nat) (poll : List TankId) : Option TankId :=
  match poll.find? watched, poll.find? fun t => !watched t with
  | some w, some u => if 8 ≤ polls then some u else some w
  | some w, none => some w
  | none, u => u

/-- Directly behind the first member with the property, at the tail when there is none (R139). -/
def insertBehind (p : TankId → Bool) (t : TankId) : List TankId → List TankId
  | [] => [t]
  | x :: xs => if p x then x :: t :: xs else x :: insertBehind p t xs

/-- R139: a tank near its stop re-enters behind the first watched tank. -/
def TankState.nearStop : TankState → Bool
  | .topping | .full => true
  | .listed | .assigned | .filling | .releasing | .overfill => false

/-- R139: the tank picked leaves the queue, its query is sent, and it re-enters at once. -/
def State.pollTank (s : State) (t : TankId) : State :=
  let rest := setErase t s.link.poll
  let near := (s.tankState t).any TankState.nearStop
  (s.modLink fun k =>
    if s.isWatched t then
      { k with poll := (if near then insertBehind s.isWatched t rest else rest ++ [t]), polls := min 8 (k.polls + 1) }
    else { k with poll := rest ++ [t], polls := 0 }).sendQuery (.level t) false

/-- R134, R135 orders 3 to 6: a due refresh telegram, a level poll, a refresh telegram, an alive check. -/
def State.choosePoll (s : State) : State :=
  match s.link.refresh, pickTank s.isWatched s.link.polls s.link.poll with
  | some p, some t => if s.link.spacing = 15 then s.sendQuery (nextTelegram p.header p.next) true else s.pollTank t
  | some p, none => s.sendQuery (nextTelegram p.header p.next) true
  | none, some t => s.pollTank t
  | none, none => s.sendQuery .alive false

/-- R135: the choice in GOOD, POOR and LOST while gauging is LINKED. -/
def State.chooseLinked (s : State) : State :=
  match s.link.advices, s.link.queries with
  | a :: rest, _ => (s.modLink fun k => { k with advices := rest }).sendQuery (.advice a.1 a.2) false
  | [], l :: rest => (s.modLink fun k => { k with queries := rest }).sendQuery (.permit l) false
  | [], [] => s.choosePoll

/-- R124: the next exchange is begun when none is in flight and the link state and gauging mode call for one. -/
def State.chooseNext (s : State) : State :=
  match s.link.exchange, s.link.state with
  | some _, _ | none, .down => s
  | none, .acquiring =>
    match s.link.acq with
    | some a => s.sendQuery (nextTelegram a.header a.next) false
    | none => s
  | none, .good | none, .poor | none, .lost => if s.link.gauging = .linked then s.chooseLinked else s

/-! ### Link states (R127 to R129) -/

/-- Every permit query waiting is dropped, and its line's outcome becomes NO_REPLY (R129, R130, R141). -/
def State.dropQueries (s : State) : State :=
  s.link.queries.foldl (fun s l => s.setOutcome l .noReply) (s.modLink fun k => { k with queries := [] })

/-- R129: entry to LOST. -/
def State.enterLost (s : State) : State :=
  let s' := ((s.modLinkNoticed fun k => { k with state := .lost, succRun := 0 }).raiseAlarm .linkLost .link).dropQueries
  if s'.link.gauging = .linked then s'.eachLine fun s l => (s.addHold l .link).clearPermit l else s'

/-- R129: every entry to GOOD from LOST or ACQUIRING ends the LINK_LOST condition and hands each line the clearing of
LINK. -/
def State.linkBack (s : State) : State := (s.alarmGone .linkLost .link).eachLine fun s l => s.dropHold l .link

/-- R129: entry to GOOD from LOST: the window emptied, the failure run 0. -/
def State.recoverLink (s : State) : State :=
  (s.modLinkNoticed fun k => { k with state := .good, window := [], failRun := 0 }).linkBack

/-- R128, first row: the failure run has reached the link-loss count that the latest counted exchange took up. A SET since
then takes effect at the next exchange counted. -/
def State.judgeLost (s : State) : State :=
  if (s.link.state = .good ∨ s.link.state = .poor) ∧ s.link.lossCount ≤ s.link.failRun then s.enterLost else s

/-- R128, last row: the success run has reached 3. -/
def State.judgeRecovered (s : State) : State :=
  if s.link.state = .lost ∧ 3 ≤ s.link.succRun then s.recoverLink else s

/-- The failed outcomes the window holds (R128). -/
def Link.failures (k : Link) : Nat := (k.window.filter fun failed => failed).length

/-- R128: the rows in the order listed. -/
def State.judgeQuality (s : State) : State :=
  match s.link.state with
  | .good =>
    if s.link.lossCount ≤ s.link.failRun then s.judgeLost
    else if 8 ≤ s.link.failures then s.modLinkNoticed fun k => { k with state := .poor }
    else s
  | .poor =>
    if s.link.lossCount ≤ s.link.failRun then s.judgeLost
    else if s.link.failures ≤ 2 then s.modLinkNoticed fun k => { k with state := .good }
    else s
  | .lost => s.judgeRecovered
  | .down | .acquiring => s

/-- R127: the outcome of a counted exchange, which takes up the link-loss count in force (R128). -/
def Link.count (failed : Bool) (lossCount : Nat) (k : Link) : Link :=
  let window := k.window ++ [failed]
  { k with
    lossCount := lossCount
    window := window.drop (window.length - 32)
    failRun := if failed then min 255 (k.failRun + 1) else 0
    succRun := if failed then 0 else if k.state = .lost then min 3 (k.succRun + 1) else k.succRun }

/-- The link states in which an ending exchange is counted (R127). -/
def LinkState.counts : LinkState → Bool
  | .good | .poor | .lost => true
  | .down | .acquiring => false

/-- R127: counted, then judged. -/
def State.countOutcome (s : State) (failed : Bool) : State :=
  if s.link.state.counts then (s.modLink (Link.count failed s.settings.linkloss)).judgeQuality else s

/-- R134: the refresh spacing at the end of an exchange. -/
def Link.space (refresh : Bool) (k : Link) : Link := { k with spacing := if refresh then 0 else min 15 (k.spacing + 1) }

/-- R124: an ending exchange ceases to be in flight, and its outcome is recorded. -/
def State.closeExchange (s : State) (refresh failed : Bool) : State :=
  (s.modLink fun k => { k.space refresh with exchange := none }).countOutcome failed

/-! ### The STOP flag (R126) -/

/-- R126: the flag of a good reply. -/
def State.takeStop (s : State) (stop : Bool) : State :=
  (s.modLinkNoticed fun k => { k with stop := some stop }).eachLine fun s l =>
    if stop then (s.addHold l .ship).clearPermit l else s.dropHold l .ship

/-! ### Acquisition (R131, R132) -/

/-- The outcome of an acquisition; the pending LINK pair records the change (R123, R167, log 18). -/
def State.setAcqResult (s : State) (r : AcqResult) : State :=
  let s' := (s.modLink fun k => { k with lastAcq := some r }).notify .link
  { s' with linkResult := decide (Notice.link ∈ s'.notices) }

/-- R132: the acquisition succeeds. DONE LINKSTART is made pending before the LINK pair (log 17). -/
def State.acquired (s : State) (h : Header) (entries : List DirEntry) : State :=
  let s₁ := ((s.notify .doneLinkstart).modLinkNoticed fun k =>
    { k with rev := some h.revision, acq := none }).setAcqResult (.pass h.count h.revision)
  ((s₁.applyDirectory entries).modLinkNoticed fun k =>
    { k with state := .good, window := [], failRun := 0, succRun := 0 }).linkBack

/-- R132: the acquisition fails. -/
def State.acquisitionFails (s : State) (at_ : AcqTelegram) : State :=
  ((s.notify .doneLinkstart).modLinkNoticed fun k => { k with state := .down, acq := none }).setAcqResult (.failed at_)

/-- R131: a telegram of the acquisition has failed; the fourth failure ends it. -/
def State.acquisitionMiss (s : State) (at_ : AcqTelegram) : State :=
  match s.link.acq with
  | some a =>
    if 3 ≤ a.attempts then s.acquisitionFails at_
    else s.modLink fun k => { k with acq := some { a with attempts := a.attempts + 1 } }
  | none => s

/-! ### Background refresh (R133) -/

/-- The progress of a refresh newly begun. Its next index before a header is read is 0: the model's choice (log 48). -/
def Refresh.begun : Refresh := { header := none, next := 0, entries := [] }

/-- R133: the last entry is gathered. -/
def State.refreshed (s : State) (h : Header) (entries : List DirEntry) : State :=
  (s.modLinkNoticed fun k => { k with rev := some h.revision, refresh := none }).applyDirectory entries

/-- R133: the revision of a LEVEL reply is compared with the stored one. Where they agree nothing follows, also for a refresh
that has read a header of another revision: the model's choice (log 39). -/
def State.compareRevision (s : State) (revision : Nat) : State :=
  if s.link.rev = some revision ∨ s.link.state = .acquiring ∨ s.link.gauging = .manual then s
  else
    match s.link.refresh with
    | none => s.modLink fun k => { k with refresh := some Refresh.begun }
    | some p =>
      if p.header.any (fun h => h.revision ≠ revision) then s.modLink fun k => { k with refresh := some Refresh.begun }
      else s

/-! ### What a good reply carries -/

/-- A good HEADER reply is kept in the progress it was read for (R131, R133). -/
def State.takeHeader (s : State) (refresh : Bool) (h : Header) : State :=
  s.modLink fun k =>
    if refresh then { k with refresh := k.refresh.map fun p => { p with header := some h, next := 1 } }
    else { k with acq := k.acq.map fun a => { a with header := some h, next := 1, attempts := 0 } }

/-- A good ENTRY reply is gathered, and the last one completes the acquisition or refresh (R131 to R133). -/
def State.takeEntry (s : State) (refresh : Bool) (e : DirEntry) : State :=
  if refresh then
    match s.link.refresh with
    | some { header := some h, next, entries } =>
      if h.count ≤ next then s.refreshed h (entries ++ [e])
      else s.modLink fun k => { k with refresh := some { header := some h, next := next + 1, entries := entries ++ [e] } }
    | _ => s
  else
    match s.link.acq with
    | some { header := some h, next, attempts := _, entries } =>
      if h.count ≤ next then s.acquired h (entries ++ [e])
      else
        s.modLink fun k =>
          { k with acq := some { header := some h, next := next + 1, attempts := 0, entries := entries ++ [e] } }
    | _ => s

/-- The line states in which a permit reply is used (R60, R137). -/
def LineState.asksPermit : LineState → Bool
  | .connected | .held => true
  | .disconnected | .stroking | .opening | .delivering | .holding | .finishing | .tripping | .tripped => false

/-- R137: the end of a good permit exchange. -/
def State.takePermit (s : State) (l : LineId) (granted stop : Bool) : State :=
  if (s.seq l).state.asksPermit then
    if granted then
      if stop then (s.clearPermit l).setOutcome l .stopped
      else (s.modSeq l fun q => { q with permit := true }).setOutcome l .granted
    else (s.clearPermit l).setOutcome l .denied
  else s.setOutcome l .late

/-- The content of a good reply is handed on (R126, R136, R137, R140). -/
def State.takeBody (s : State) (x : Exchange) (stop : Bool) (b : ReplyBody) : State :=
  match x.query, b with
  | .header, .header h => s.takeHeader x.refresh h
  | .entry _, .entry e => s.takeEntry x.refresh e
  | .level t, .level volume valve fault age revision =>
    (s.levelReport { tank := t, volume := volume, valve := valve, fault := fault, age := age }).compareRevision revision
  | .permit l, .permit granted => s.takePermit l granted stop
  | _, _ => s

/-! ### The end of an exchange -/

/-- R124: the end of a good exchange: outcome, STOP flag, content, next choice. -/
def State.endGood (s : State) (x : Exchange) (stop : Bool) (b : ReplyBody) : State :=
  (((s.closeExchange x.refresh false).takeStop stop).takeBody x stop b).chooseNext

/-- What a failed exchange brings beside its count (R131, R133, R137). -/
def State.takeFailure (s : State) (x : Exchange) : State :=
  match x.query with
  | .permit l => s.setOutcome l .noReply
  | .header => if x.refresh then s.modLink fun k => { k with refresh := none } else s.acquisitionMiss .header
  | .entry i => if x.refresh then s.modLink fun k => { k with refresh := none } else s.acquisitionMiss (.entry i)
  | .level _ | .advice _ _ | .alive => s

/-- R124: the end of a failed exchange. -/
def State.endFailed (s : State) (x : Exchange) : State :=
  ((s.closeExchange x.refresh true).takeFailure x).chooseNext

/-! ### Arrivals (R125) -/

/-- A reply telegram arrives. One that is not good is discarded, and the exchange runs on to the end of its window
(log 27); `isKind` and `more` say which reply the event is (log 28). -/
def State.takeReply (s : State) (isKind : Query → Bool) (more : Bool) (t : List Byte) : State :=
  match s.link.exchange with
  | some x =>
    if x.part = none ∧ isKind x.query = true then
      match readReply x.query t with
      | some r =>
        if r.more = more then
          if more then
            match r.body with
            | .entry e => s.modLink fun k => { k with exchange := some { x with part := some { stop := r.stop, entry := e } } }
            | _ => s
          else s.endGood x r.stop r.body
        else s
      | none => s
    else s
  | none => s

/-- R125: a continuation arrives. -/
def State.takeContinuation (s : State) (t : List Byte) : State :=
  match s.link.exchange with
  | some x =>
    match x.part, x.query with
    | some p, .entry i =>
      match readContinuation i t with
      | some name => s.endGood x p.stop (.entry { p.entry with name := some name })
      | none => s
    | _, _ => s
  | none => s

/-- R125: the 50 ms of a continuation have run out. -/
def State.continuationLate (s : State) : State :=
  match s.link.exchange with
  | some x => if x.part.isSome then s.endFailed x else s
  | none => s

/-- R124: the reply window has run out without a good reply. -/
def State.windowOut (s : State) : State :=
  match s.link.exchange with
  | some x => if x.part.isSome then s else s.endFailed x
  | none => s

/-! ### Requests to the controller -/

/-- R130: what a taken LINKSTART does. The next index before a header is read is 0: the model's choice (log 48). -/
def State.beginAcquisition (s : State) : State :=
  ((s.modLinkNoticed fun k =>
    { k with
      state := .acquiring, window := [], failRun := 0, succRun := 0, refresh := none
      acq := some { header := none, next := 0, attempts := 0, entries := [] } }).dropQueries).chooseNext

/-- R141: gauging becomes MANUAL. -/
def State.toManual (s : State) : State :=
  ((s.modLinkNoticed fun k => { k with gauging := .manual, advices := [], refresh := none }).dropQueries).eachLine
    fun s l => (s.dropHold l .link).formTarget l

/-- R141: gauging becomes LINKED. -/
def State.toLinked (s : State) : State :=
  ((s.modLinkNoticed fun k => { k with gauging := .linked }).eachLine State.formTarget).chooseNext

/-- R137: a permit query for a line. -/
def State.queuePermit (s : State) (l : LineId) : State :=
  (if l ∈ s.link.queries then s else s.modLink fun k => { k with queries := k.queries ++ [l] }).setOutcome l .pending

end Sys2Proof.Machine
end

