-- ==== Sys2Proof/Machine/Text.lean ====
section
/-! DEFINITION. The words of console records (00_scope.md, Conventions), their check field (R159, R160), and the parts that
replies and notices are composed of (R163, R166, R169). -/

namespace Sys2Proof.Machine

/-! ### Numbers and check fields -/

/-- A number in decimal digits (R159). -/
def numText (n : Nat) : String := toString n

/-- A signed number: R and M of R98. R159 writes numbers without a sign, and a negative one is written with a minus sign
before its digits: the model's choice (log 22). -/
def intText (n : Int) : String := toString n

/-- The capital hexadecimal digits (R159). -/
def hexDigit (n : Nat) : Char := Char.ofNat (if n < 10 then 48 + n else 55 + n)

/-- The check field of a register: its digits from the most significant down (R160). -/
def checkField (r : CrcReg) : List Char :=
  ['#', hexDigit (r.toNat / 4096), hexDigit (r.toNat / 256 % 16), hexDigit (r.toNat / 16 % 16), hexDigit (r.toNat % 16)]

/-- The characters of a text as 8-bit codes (R160). -/
def charBytes (cs : List Char) : List Byte := cs.map fun c => BitVec.ofNat 8 c.toNat

/-- Texts joined by a separator. -/
def joined (sep : String) : List String → String
  | [] => ""
  | [x] => x
  | x :: y :: xs => x ++ sep ++ joined sep (y :: xs)

/-- A record before its line end: its fields separated by single spaces, and the check field over all that stands before
it (R159, R160). -/
def checkedRecord (fields : List String) : String :=
  let body := joined " " fields ++ " "
  body ++ String.ofList (checkField (crc16 (charBytes body.toList)))

/-- A record as the part puts it on the line, ended by carriage return and line feed (R159, R174). -/
def written (fields : List String) : String := checkedRecord fields ++ "\r\n"

/-! ### Words of states, causes and modes -/

def LineState.text : LineState → String
  | .disconnected => "DISCONNECTED"
  | .connected => "CONNECTED"
  | .stroking => "STROKING"
  | .opening => "OPENING"
  | .delivering => "DELIVERING"
  | .holding => "HOLDING"
  | .held => "HELD"
  | .finishing => "FINISHING"
  | .tripping => "TRIPPING"
  | .tripped => "TRIPPED"

def HoldCause.text : HoldCause → String
  | .operator => "OPERATOR"
  | .tankFull => "TANK_FULL"
  | .noOutlet => "NO_OUTLET"
  | .link => "LINK"
  | .stretch => "STRETCH"
  | .ship => "SHIP"

def TripCause.text : TripCause → String
  | .esdIn => "ESD_IN"
  | .overpressure => "OVERPRESSURE"
  | .stretchTrip => "STRETCH_TRIP"
  | .sensorFault => "SENSOR_FAULT"
  | .valveTravel => "VALVE_TRAVEL"
  | .overrun => "OVERRUN"

def LoopMode.text : LoopMode → String
  | .auto => "AUTO"
  | .freeze => "FREEZE"
  | .set => "SET"

def Governing.text : Governing → String
  | .console => "CONSOLE"
  | .maxflow => "MAXFLOW"
  | .surge => "SURGE"
  | .topping => "TOPPING"
  | .manual => "MANUAL"

def TakeoverReason.text : TakeoverReason → String
  | .topping => "TOPPING"
  | .surge => "SURGE"
  | .maxflow => "MAXFLOW"

def Band.text : Band → String
  | .settling => "SETTLING"
  | .running => "RUNNING"

def Stage.text : Stage → String
  | .openMove => "OPEN_MOVE"
  | .settle => "SETTLE"
  | .closeMove => "CLOSE_MOVE"
  | .done => "DONE"

def TankState.text : TankState → String
  | .listed => "LISTED"
  | .assigned => "ASSIGNED"
  | .filling => "FILLING"
  | .topping => "TOPPING"
  | .full => "FULL"
  | .releasing => "RELEASING"
  | .overfill => "OVERFILL"

def ShipValve.text : ShipValve → String
  | .opened => "OPEN"
  | .closed => "CLOSED"
  | .unknown => "UNKNOWN"

def LinkState.text : LinkState → String
  | .down => "DOWN"
  | .acquiring => "ACQUIRING"
  | .good => "GOOD"
  | .poor => "POOR"
  | .lost => "LOST"

def Gauging.text : Gauging → String
  | .linked => "LINKED"
  | .manual => "MANUAL"

def AdviceKind.text : AdviceKind → String
  | .topping => "TOPPING"
  | .full => "FULL"
  | .overfill => "OVERFILL"

def PermitOutcome.text : PermitOutcome → String
  | .pending => "PENDING"
  | .granted => "GRANTED"
  | .denied => "DENIED"
  | .stopped => "STOPPED"
  | .late => "LATE"
  | .noReply => "NO_REPLY"

/-- A loop reading or the contact (R166). -/
def contactText : Contact → String
  | .opened => "OPEN"
  | .closed => "CLOSED"

def alarmText : AlarmKind → String
  | .esdIn => "ESD_IN"
  | .overpressure => "OVERPRESSURE"
  | .stretchTrip => "STRETCH_TRIP"
  | .sensorFault => "SENSOR_FAULT"
  | .valveTravel => "VALVE_TRAVEL"
  | .overrun => "OVERRUN"
  | .consoleEsd => "CONSOLE_ESD"
  | .overfill => "OVERFILL"
  | .stretchWarn => "STRETCH_WARN"
  | .flowUnsteady => "FLOW_UNSTEADY"
  | .strokeFailed => "STROKE_FAILED"
  | .changeoverLate => "CHANGEOVER_LATE"
  | .linkLost => "LINK_LOST"

/-- The objects of alarm entries (R152). -/
def AlarmObject.text : AlarmObject → String
  | .line l => "L" ++ numText (lineNumber l)
  | .tank t => "T" ++ numText (tankNumber t)
  | .link => "LINK"
  | .loop => "LOOP"
  | .part => "PART"

def NoticeKind.text : NoticeKind → String
  | .line => "LINE"
  | .tank => "TANK"
  | .link => "LINK"
  | .trip => "TRIP"
  | .alarm => "ALARM"
  | .done => "DONE"
  | .directory => "DIRECTORY"
  | .loop => "LOOP"

def RecordStatus.text : RecordStatus → String
  | .sound => "SOUND"
  | .blank => "BLANK"

/-- R32, R33, R34: the outcome that DONE STROKE carries. -/
def StrokeOutcome.text : StrokeOutcome → List String
  | .pass t => ["PASS", numText t]
  | .failed .openTimeout => ["FAILED", "OPEN_TIMEOUT"]
  | .failed .closeTimeout => ["FAILED", "CLOSE_TIMEOUT"]
  | .failed .travel => ["FAILED", "TRAVEL"]
  | .failed .outOfRange => ["FAILED", "OUT_OF_RANGE"]
  | .abandoned => ["ABANDONED"]

def AcqTelegram.text : AcqTelegram → List String
  | .header => ["HEADER"]
  | .entry i => ["ENTRY", numText i]

/-- The last acquisition result as the LINK notice carries it (R132, R167). -/
def AcqResult.text : AcqResult → List String
  | .pass _ _ => ["PASS"]
  | .failed t => "FAILED" :: t.text

/-- What DONE LINKSTART carries (R132). -/
def AcqResult.doneText : AcqResult → List String
  | .pass count revision => ["PASS", numText count, numText revision]
  | .failed t => "FAILED" :: t.text

/-- A member of the device trip-cause set as fields of a record (R150, R166). -/
def DeviceTrip.text : DeviceTrip → List String
  | .esdIn => ["ESD_IN"]
  | .consoleEsd => ["CONSOLE_ESD"]
  | .overfill t => ["OVERFILL", numText (tankNumber t)]
  | .stretchTrip l => ["STRETCH_TRIP", numText (lineNumber l)]

/-! ### Marks of a tank, in the order of the table of R78 -/

def Tank.marks (r : Tank) : List String :=
  (if r.topped then ["TOPPED"] else []) ++ (if r.stale then ["STALE"] else [])
    ++ (if r.conflict then ["DIRECTORY_CONFLICT"] else [])

/-! ### Fields of the form NAME=value (R169) -/

def item (name value : String) : String := name ++ "=" ++ value

/-- An absent value is written as a hyphen: R169 for READ replies, the model's choice for other replies (log 21). -/
def optText {α : Type} (f : α → String) : Option α → String
  | some x => f x
  | none => "-"

def optNum : Option Nat → String := optText numText

/-- A set or list: its members joined by commas, a hyphen when empty. -/
def listText (xs : List String) : String := if xs.isEmpty then "-" else joined "," xs

def yesNoText (b : Bool) : String := if b then "YES" else "NO"

def onOffText (b : Bool) : String := if b then "ON" else "OFF"

/-- The parts of one item, joined by colons (R171). -/
def colons : List String → String := joined ":"

end Sys2Proof.Machine
end

