-- ==== Sys2Proof/Machine/Port.lean ====
section
/-! DEFINITION. The console port's replies (R163, R164) and notices (R165 to R167, R182). The port sends one record at a
time: what a sending puts on the line is `port.out` (log 34). -/

namespace Sys2Proof.Machine

/-! ### Replies (R163) -/

/-- The reply of a request is composed and becomes the waiting reply (R164). -/
def State.answer (s : State) (fields : List String) : State :=
  { s with port := { s.port with waiting := some fields } }

/-- A request taken: keyword, form word and number, then its results. -/
def State.take (s : State) (head results : List String) : State := s.answer ("=" :: head ++ results)

/-- A request refused: keyword, form word and number, then the reason and its details. It changes nothing else (R162). -/
def State.refuse (s : State) (head why : List String) : State := s.answer ("?" :: head ++ why)

/-- A waiting reply is sent (R164). -/
def State.sendWaiting (s : State) : State :=
  match s.port.waiting with
  | some r => { s with port := { s.port with waiting := none, out := some (written r) } }
  | none => s

/-- R162, third check: during start-up a request other than READ is answered STARTING, under its keyword and form word
(log 23). -/
def State.afterStartup (s : State) (name : List String) (body : State → State) : State :=
  match s.phase with
  | .starting => s.refuse name ["STARTING"]
  | .running => body s

/-- A request that names a line: RANGE outside 1 to 4 (R162), and the line's own meaning otherwise. The number is repeated
without leading zeros: the model's choice (log 21). -/
def State.onLine (s : State) (name : List String) (n : Nat) (body : State → LineId → State) : State :=
  match lineOf n with
  | some l => body s l
  | none => s.refuse (name ++ [numText n]) ["RANGE"]

/-- A request that names a tank: RANGE outside 1 to 16 and for an ABSENT tank (R81, R89, R108). The number is repeated
without leading zeros: the model's choice (log 21). -/
def State.onTank (s : State) (name : List String) (n : Nat) (body : State → TankId → Tank → State) : State :=
  match tankOf n with
  | some t =>
    match s.tank t with
    | some r => body s t r
    | none => s.refuse (name ++ [numText n]) ["RANGE"]
  | none => s.refuse (name ++ [numText n]) ["RANGE"]

/-- CLAMPED, where the value used is not the value asked (R162). -/
def clampedMark (asked used : Nat) : List String := if asked = used then [] else ["CLAMPED"]

/-! ### Notices (R166) -/

/-- LINE, PERMIT and NOPERMIT (R166). -/
def Seq.permitText (q : Seq) : List String :=
  match q.state with
  | .connected | .held => if q.permit then ["PERMIT"] else []
  | .opening | .delivering | .holding | .finishing => if q.permit then [] else ["NOPERMIT"]
  | .disconnected | .stroking | .tripping | .tripped => []

/-- The condition of an entry is present. -/
def State.conditionPresent (s : State) (k : AlarmKind) (o : AlarmObject) : Bool :=
  s.alarms.any fun a => Alarm.isFor k o a && a.present

def State.lineNotice (s : State) (l : LineId) : List String :=
  let q := s.seq l
  [q.state.text] ++ q.permitText ++ q.holds.map HoldCause.text ++ q.trips.map TripCause.text
    ++ (if (s.meas l).steady then ["STEADY"] else [])
    ++ (if s.conditionPresent .flowUnsteady (.line l) then ["UNSTEADY"] else [])

/-- The timer of a RELEASING tank has expired (R93). -/
def Tank.late (r : Tank) : Bool := decide (r.state = .releasing) && (r.timer.any fun c => c.expired.isSome)

def State.tankNotice (s : State) (t : TankId) : List String :=
  match s.tank t with
  | none => ["ABSENT"]
  | some r => [r.state.text] ++ r.marks ++ (if r.late then ["CHANGEOVER_LATE"] else [])

def State.linkNotice (s : State) : List String :=
  [s.link.state.text, s.link.gauging.text] ++ (if s.link.stop = some true then ["STOP"] else [])
    ++ (if s.linkResult then (s.link.lastAcq.map AcqResult.text).getD [] else [])

def State.tripNotice (s : State) : List String :=
  [contactText s.esd.contact, contactText s.esd.loop, contactText s.esd.far] ++ s.device.flatMap DeviceTrip.text

/-- UNACK or ACK, and PRESENT or GONE. -/
def Alarm.marks (a : Alarm) : List String :=
  [if a.acked then "ACK" else "UNACK", if a.present then "PRESENT" else "GONE"]

def State.alarmNotice (s : State) (k : AlarmKind) (o : AlarmObject) : List String :=
  match s.alarms.find? (Alarm.isFor k o) with
  | some a => a.marks
  | none => ["REMOVED"]

def State.directoryNotice (s : State) (t : TankId) : List String :=
  match s.tank t with
  | some r =>
    [if r.conflict then "CONFLICT" else "CLEAR"] ++ (if r.pendingEntry = some .vanished then ["VANISHED"] else [])
  | none => ["CLEAR"]

def State.loopNotice (s : State) (l : LineId) : List String :=
  let r := s.rate l
  [r.mode.text] ++ (match r.mark with | some why => ["TAKEN", why.text] | none => [])

/-- R182: the lines whose records are BLANK. -/
def State.readyNotice (s : State) : List String :=
  let blank := allLines.filter fun l => decide ((s.record l).status = .blank)
  if blank.isEmpty then [] else "BLANK" :: blank.map fun l => numText (lineNumber l)

/-- The fields of a notice, composed from the state of this moment (R165, R166). -/
def State.noticeText (s : State) : Notice → List String
  | .line l => ["LINE", numText (lineNumber l)] ++ s.lineNotice l
  | .tank t => ["TANK", numText (tankNumber t)] ++ s.tankNotice t
  | .link => "LINK" :: s.linkNotice
  | .trip => "TRIP" :: s.tripNotice
  | .alarm k o => ["ALARM", alarmText k, o.text] ++ s.alarmNotice k o
  | .doneStroke l => ["DONE", "STROKE", numText (lineNumber l)] ++ ((s.drive l).lastStroke.map StrokeOutcome.text).getD []
  | .doneLinkstart => ["DONE", "LINKSTART"] ++ (s.link.lastAcq.map AcqResult.doneText).getD []
  | .doneLimits l => ["DONE", "LIMITS", numText (lineNumber l), "OK"]
  | .directory (some t) => ["DIRECTORY", numText (tankNumber t)] ++ s.directoryNotice t
  | .directory none => ["DIRECTORY", "*", "REJECTED", numText s.link.rejected]
  | .loop l => ["LOOP", numText (lineNumber l)] ++ s.loopNotice l
  | .ready => "READY" :: s.readyNotice

/-- What the sending of a notice clears: the takeover mark (R70), the record of a changed result (R167). -/
def State.noticeGone (s : State) : Notice → State
  | .loop l => s.modRate l fun r => { r with mark := none }
  | .link => { s with linkResult := false }
  | .line _ | .tank _ | .trip | .alarm _ _ | .doneStroke _ | .doneLinkstart | .doneLimits _ | .directory _ | .ready => s

/-- R165: with no reply waiting, the oldest pair is taken out of the set, composed and sent. -/
def State.sendNotice (s : State) : State :=
  match s.port.waiting, s.notices with
  | none, n :: rest =>
    ({ s with notices := rest, port := { s.port with out := some (written ("!" :: s.noticeText n)) } }).noticeGone n
  | some _, _ | none, [] => s

end Sys2Proof.Machine
end

