-- ==== Sys2Proof/Machine/LineRequests.lean ====
section
/-! DEFINITION. The requests that a line supervisor owns: CONNECT, DISCONNECT, STROKE, STROKESET, PERMIT, START, RATE, LOOP,
HOLD, RESUME, FINISH and CLEAR. Each makes its checks in the order of its rule, its effects, and its reply (R162, R164).
The reply of a request follows the sample exchanges; where none is shown, log 21. -/

namespace Sys2Proof.Machine

/-- A request of a line supervisor: STARTING during start-up (R162), then its line number, then its own meaning, which is
given the words that open its reply. A number sent with leading zeros (R159) is repeated without them: the model's choice
(log 21). -/
def State.lineRequest (s : State) (keyword : String) (n : Nat) (body : State → LineId → List String → State) : State :=
  s.afterStartup [keyword] fun s => s.onLine [keyword] n fun s l => body s l [keyword, numText n]

/-! ### CONNECT and DISCONNECT (R40, R41) -/

/-- What a taken CONNECT does (R40): the totaliser zeroed (R6), the band SETTLING (R9), drive-enable on (R21). -/
def State.connectLine (s : State) (l : LineId) (grade : Nat) : State :=
  ((s.modSeq l fun q => { q with state := .connected, grade := some grade }).modMeas l
      fun m => { m with pTot := 0, dBase := 0, band := .settling }).modDrive l Drive.turnOn

/-- CONNECT (R40). -/
def State.takeConnect (s : State) (n grade : Nat) : State :=
  s.lineRequest "CONNECT" n fun s l head =>
    if (s.seq l).state ≠ .disconnected then s.refuse head ["STATE"]
    else if grade < 1 ∨ 4 < grade then s.refuse head ["RANGE"]
    else if s.limits l = none ∨ s.writing l then s.refuse head ["BLANK"]
    else (s.connectLine l grade).take head [LineState.connected.text, numText grade]

/-- The column of R19 for entry to DISCONNECTED. -/
def Meas.disconnected (m : Meas) : Meas :=
  { m with overRun := 0, warn := false, clearRun := 0, tripRun := 0, steady := false, inRun := 0, outRun := 0,
           tClose := none, qSurge := none, tC := none }

/-- What a taken DISCONNECT does (R41): "line disconnected" (R94), then the entry to DISCONNECTED (R19, R21, R33, R76). -/
def State.disconnectLine (s : State) (l : LineId) : State :=
  ((((((s.lineDisconnected l).modSeq l fun q =>
      { q with state := .disconnected, grade := none, permit := false }).modMeas l Meas.disconnected).modDrive l
      Drive.turnOff).dropTarget l).alarmGone .stretchWarn (.line l)).alarmGone .strokeFailed (.line l)

/-- DISCONNECT (R41). That the reply gives DISCONNECTED is the model's choice (log 21). -/
def State.takeDisconnect (s : State) (n : Nat) : State :=
  s.lineRequest "DISCONNECT" n fun s l head =>
    if (s.seq l).state = .connected then (s.disconnectLine l).take head [LineState.disconnected.text]
    else s.refuse head ["STATE"]

/-! ### STROKE and STROKESET (R42, R35) -/

/-- What a taken STROKE does: STROKING, and the STROKE order (R30, R42). -/
def State.strokeLine (s : State) (l : LineId) : State :=
  ((s.modSeq l fun q => { q with state := .stroking }).modDrive l Drive.startStroke).dropTarget l

/-- STROKE (R42). -/
def State.takeStroke (s : State) (n : Nat) : State :=
  s.lineRequest "STROKE" n fun s l head =>
    match (s.seq l).state with
    | .connected =>
      if (s.seq l).permit then s.refuse head ["STATE", "PERMIT"]
      else (s.strokeLine l).take head [LineState.stroking.text]
    | .stroking => s.refuse head ["BUSY"]
    | .disconnected | .opening | .delivering | .holding | .held | .finishing | .tripping | .tripped =>
      s.refuse head ["STATE"]

/-- The line states in which STROKESET NONE is taken (R35). -/
def LineState.atRest : LineState → Bool
  | .disconnected | .connected => true
  | .stroking | .opening | .delivering | .holding | .held | .finishing | .tripping | .tripped => false

/-- HELD_TO_MEASURED: a measured time exists and the override lies below it (R35). -/
def Drive.heldToMeasured (d : Drive) : List String :=
  match d.tMeas, d.tOvr with
  | some m, some o => if o < m then ["HELD_TO_MEASURED"] else []
  | _, _ => []

/-- STROKESET (R35); no time is NONE. That a T_stroke left absent by STROKESET NONE is written as a hyphen in the reply is the
model's choice (log 21): R169 gives the hyphen for READ replies. -/
def State.takeStrokeset (s : State) (n : Nat) (time : Option Nat) : State :=
  s.lineRequest "STROKESET" n fun s l head =>
    match time with
    | some t =>
      let used := clamp 20 1800 t
      let s' := s.modDrive l fun d => { d with tOvr := some used }
      s'.take head ([numText used, optNum (s'.drive l).tStroke] ++ clampedMark t used ++ (s'.drive l).heldToMeasured)
    | none =>
      if (s.seq l).state.atRest then
        let s' := s.modDrive l fun d => { d with tOvr := none }
        s'.take head ["NONE", optNum (s'.drive l).tStroke]
      else s.refuse head ["STATE"]

/-! ### PERMIT (R61, R137) -/

/-- The link states in which a permit query is queued (R137). -/
def LinkState.carries : LinkState → Bool
  | .good | .poor => true
  | .down | .acquiring | .lost => false

/-- PERMIT without CONFIRM: a permit query in LINKED gauging (R61, R137). -/
def State.takePermitQuery (s : State) (n : Nat) : State :=
  s.lineRequest "PERMIT" n fun s l head =>
    if (s.seq l).state.asksPermit = false then s.refuse head ["STATE"]
    else if s.link.gauging = .manual ∨ s.link.state.carries = false then s.refuse head ["LINK"]
    else (s.queuePermit l).take head ["QUERIED"]

/-- PERMIT with CONFIRM: the ship permit is set at once in MANUAL gauging (R60, R61). -/
def State.takePermitConfirm (s : State) (n : Nat) : State :=
  s.lineRequest "PERMIT" n fun s l head =>
    if (s.seq l).state.asksPermit = false then s.refuse head ["STATE"]
    else if s.link.gauging = .linked then s.refuse head ["LINK"]
    else (s.modSeq l fun q => { q with permit := true }).take head ["GRANTED"]

/-! ### Conditions that persist (R4, R8, R12, R44, R58) -/

/-- The latest valid P_L is greater than P_rated (R8). -/
def State.pressureHigh (s : State) (l : LineId) : Bool :=
  match s.limits l, (s.meas l).pressure with
  | some lim, some p => decide (lim.pRated < p)
  | _, _ => false

/-- The latest valid stretch is above the trip limit (R12). -/
def State.stretchHigh (s : State) (l : LineId) : Bool :=
  match s.limits l, (s.meas l).stretch with
  | some lim, some e => decide (lim.tripLimit < e)
  | _, _ => false

/-- Members of the device set, written after the line's own causes; ESD_IN is written once (R58; for START the model's
choice, log 21). -/
def deviceWords (own : List TripCause) (device : List DeviceTrip) : List String :=
  (device.filter fun d => !(decide (d = .esdIn) && decide (TripCause.esdIn ∈ own))).flatMap DeviceTrip.text

/-- R44, row 4: the line's own conditions, in report order. -/
def State.startTrips (s : State) (l : LineId) : List TripCause :=
  (if s.esd.loop = .opened then [.esdIn] else []) ++ (if s.pressureHigh l then [.overpressure] else [])
    ++ (if s.stretchHigh l then [.stretchTrip] else [])

/-- R58: the line's own causes that persist, in report order. -/
def State.persisting (s : State) (l : LineId) : List TripCause :=
  let m := s.meas l
  (if s.esd.far = .opened then [.esdIn] else []) ++ (if s.pressureHigh l then [.overpressure] else [])
    ++ (if s.stretchHigh l then [.stretchTrip] else [])
    ++ (if 0 < m.pressureOut ∨ 0 < m.stretchOut ∨ 0 < m.positionOut then [.sensorFault] else [])
    ++ (if m.positionOut = 0 ∧ m.position.any (· ≤ 20) then [] else [.valveTravel])

/-- The transmitters faulted (R4, R44), named as log 21 says. -/
def Meas.faultedNames (m : Meas) : List String :=
  (if 5 ≤ m.pressureOut then ["PRESSURE"] else []) ++ (if 5 ≤ m.stretchOut then ["STRETCH"] else [])
    ++ (if 5 ≤ m.positionOut then ["POSITION"] else [])

/-! ### START (R44, R45) -/

/-- The max flow of the record in force; a line that takes START or RATE has one (R40, log 33). -/
def State.maxFlow (s : State) (l : LineId) : Nat := ((s.limits l).map (·.qMax)).getD 0

/-- The rate target clamped to 100 to max flow (R44, R72). -/
def State.clampRate (s : State) (l : LineId) (rate : Nat) : Nat := clamp 100 (s.maxFlow l) rate

/-- The FULL tanks of a lineup (R44). That the reply to START refused FULL gives them in lineup order is the model's choice
(log 21). -/
def State.fullTanks (s : State) (l : LineId) : List TankId :=
  (s.lineup l).filter fun t => decide (s.tankState t = some .full)

/-- What a taken START does (R45). -/
def State.startLine (s : State) (l : LineId) (used : Nat) : State :=
  (s.modRate l fun r => { r with target := used }).enterOpening l

/-- Checks 2 to 9 of START in their order: none when all pass, the reason and its details otherwise (R44). The order of the
causes after TRIP, the line's own first, is the model's choice (log 21). So is that a line with a FULL tank and no FILLING one
is answered NO_OUTLET, by the order of R44, where R110, R111 and the worked overrun of file 06 name FULL (log 55). -/
def State.startRefusal (s : State) (l : LineId) : Option (List String) :=
  if (s.seq l).state ≠ .connected then some ["STATE"]
  else if s.writing l then some ["BUSY"]
  else if s.startTrips l ≠ [] ∨ s.device ≠ [] then
    some ("TRIP" :: (s.startTrips l).map TripCause.text ++ deviceWords (s.startTrips l) s.device)
  else if (s.meas l).faulted then some ("SENSOR" :: (s.meas l).faultedNames)
  else if (s.seq l).permit = false then some ["PERMIT"]
  else if (s.drive l).tStroke = none then some ["UNCHECKED"]
  else if s.countIn l .filling = 0 then some ["NO_OUTLET"]
  else if s.fullTanks l ≠ [] then some ("FULL" :: (s.fullTanks l).map fun t => numText (tankNumber t))
  else none

/-- START (R44, R45). -/
def State.takeStart (s : State) (n : Nat) (rate : NumField) : State :=
  s.lineRequest "START" n fun s l head =>
    match rate with
    | none => s.refuse head ["SYNTAX"]
    | some asked =>
      match s.startRefusal l with
      | some why => s.refuse head why
      | none =>
        let used := s.clampRate l asked
        (s.startLine l used).take head ([LineState.opening.text, numText used] ++ clampedMark asked used)

/-! ### RATE (R72 to R74) -/

/-- What a taken RATE does in OPENING and DELIVERING (R72, R74). -/
def State.setRate (s : State) (l : LineId) (used : Nat) : State :=
  let s' := (s.modRate l fun r => { r with target := used }).formTarget l
  if (s.rate l).target = used then s' else s'.clearRings l

/-- What a taken RATE does in HOLDING and HELD (R73, R74). -/
def State.storeRate (s : State) (l : LineId) (used : Nat) : State :=
  let s' := s.modRate l fun r => { r with pendingTarget := some used }
  if (s.rate l).pendingTarget.getD (s.rate l).target = used then s' else s'.clearRings l

/-- RATE (R72, R73). -/
def State.takeRate (s : State) (n : Nat) (target : NumField) : State :=
  s.lineRequest "RATE" n fun s l head =>
    match target with
    | none => s.refuse head ["SYNTAX"]
    | some asked =>
      let used := s.clampRate l asked
      let st := (s.seq l).state
      match st with
      | .opening | .delivering =>
        let s' := s.setRate l used
        let r := s'.rate l
        s'.take head ([st.text, numText r.target, optNum r.eff, optText Governing.text r.governing]
          ++ clampedMark asked used)
      | .holding | .held =>
        (s.storeRate l used).take head ([st.text, numText (s.rate l).target, "STORED", numText used]
          ++ clampedMark asked used)
      | .disconnected | .connected | .stroking | .finishing | .tripping | .tripped => s.refuse head ["STATE"]

/-! ### LOOP (R71) -/

/-- The reason of a takeover condition that holds (R69, R71). -/
def Rate.takeoverNow (r : Rate) : List String :=
  match r.mode, r.takeoverReason with
  | .auto, _ | .freeze, none | .set, none => []
  | .freeze, some why | .set, some why => [why.text]

/-- The table of R71. -/
def Rate.withMode (w : LoopWord) (r : Rate) : Rate :=
  match w with
  | .auto => { r with mode := .auto, opening := none }
  | .freeze => { r with mode := .freeze, opening := none }
  | .set o => { r with mode := .set, opening := some (clamp 50 1000 o) }

/-- R71: the loop mode chosen. A change of it waits for the next drive step in DELIVERING. -/
def Rate.chooseMode (w : LoopWord) (r : Rate) : Rate :=
  let r' := r.withMode w
  { r' with loopWaits := r.loopWaits || decide (r'.mode ≠ r.mode) }

/-- A change of loop mode makes a LINE notice pending (R71). -/
def State.setLoop (s : State) (l : LineId) (w : LoopWord) : State :=
  let s' := s.modRate l (Rate.chooseMode w)
  if (s'.rate l).mode = (s.rate l).mode then s' else s'.notify (.line l)

/-- LOOP (R71). -/
def State.takeLoop (s : State) (n : Nat) (mode : Option LoopWord) : State :=
  s.lineRequest "LOOP" n fun s l head =>
    if (s.seq l).state = .disconnected then s.refuse head ["STATE"]
    else
      match mode with
      | none => s.refuse head ["SYNTAX"]
      | some w =>
        let s' := s.setLoop l w
        let r := s'.rate l
        s'.take head ([r.mode.text] ++ (r.opening.map numText).toList ++ r.takeoverNow
          ++ (match w with | .set o => clampedMark o (clamp 50 1000 o) | .auto | .freeze => []))

/-! ### HOLD, RESUME, FINISH (R51 to R53) -/

/-- HOLD (R51). -/
def State.takeHold (s : State) (n : Nat) : State :=
  s.lineRequest "HOLD" n fun s l head =>
    if (s.seq l).state.takesHold then
      let s' := s.addHold l .operator
      s'.take head ((s'.seq l).state.text :: (s'.seq l).holds.map HoldCause.text)
    else s.refuse head ["STATE"]

/-- R52, check 3: the causes other than OPERATOR, in report order. -/
def Seq.otherHolds (q : Seq) : List HoldCause := setErase .operator q.holds

/-- What a taken RESUME does: "line resumed" (R95), the pending target in force (R73), OPENING (R52). -/
def State.resumeLine (s : State) (l : LineId) : State :=
  ((s.clearRings l).modRate l fun r => { r with target := r.pendingTarget.getD r.target, pendingTarget := none }).enterOpening l

/-- The line states in which RESUME is taken (R52). -/
def LineState.paused : LineState → Bool
  | .holding | .held => true
  | .disconnected | .connected | .stroking | .opening | .delivering | .finishing | .tripping | .tripped => false

/-- RESUME (R52). -/
def State.takeResume (s : State) (n : Nat) : State :=
  s.lineRequest "RESUME" n fun s l head =>
    let q := s.seq l
    if q.state.paused = false then s.refuse head ["STATE"]
    else if q.otherHolds ≠ [] then s.refuse head ("CAUSES" :: q.otherHolds.map HoldCause.text)
    else if q.permit = false then s.refuse head ["PERMIT"]
    else if s.countIn l .filling = 0 then s.refuse head ["NO_OUTLET"]
    else (s.resumeLine l).take head [LineState.opening.text]

/-- Entry to FINISHING with the ship permit cleared (R53) and the pending target dropped (R73). The tracking timer starts
from 0 (R28). -/
def State.enterFinishing (s : State) (l : LineId) : State :=
  ((s.modSeq l fun q => { q with state := .finishing, permit := false }).modRate l
    fun r => { r with pendingTarget := none }).modDrive l Drive.trackFrom0

/-- FINISH (R53, R54). -/
def State.takeFinish (s : State) (n : Nat) : State :=
  s.lineRequest "FINISH" n fun s l head =>
    match (s.seq l).state with
    | .opening | .delivering =>
      ((((s.leaveDelivering l).enterFinishing l).closeOnProfile l)).take head [LineState.finishing.text]
    | .holding => (s.enterFinishing l).take head [LineState.finishing.text]
    | .held => ((s.clearPermit l).finishLine l).take head [LineState.connected.text]
    | .disconnected | .connected | .stroking | .finishing | .tripping | .tripped => s.refuse head ["STATE"]

/-! ### CLEAR (R58) -/

/-- The conditions of the alarm entries of a line's causes are gone (R58); (STRETCH_TRIP, line) by R154. -/
def State.causeGone (s : State) (l : LineId) (c : TripCause) : State :=
  match c with
  | .stretchTrip => s.stretchTripGone l
  | .esdIn | .overpressure | .sensorFault | .valveTravel | .overrun => s.alarmGone c.alarm (.line l)

/-- What a taken CLEAR does (R58): the set emptied, CONNECTED, the conditions gone. -/
def State.clearLine (s : State) (l : LineId) : State :=
  let causes := (s.seq l).trips
  causes.foldl (fun s c => s.causeGone l c) ((s.modSeq l fun q => { q with trips := [] }).enterConnected l)

/-- CLEAR of a line (R58). -/
def State.takeClear (s : State) (n : Nat) : State :=
  s.lineRequest "CLEAR" n fun s l head =>
    if (s.seq l).state ≠ .tripped then s.refuse head ["STATE"]
    else if s.persisting l ≠ [] ∨ s.device ≠ [] then
      s.refuse head ("TRIP" :: (s.persisting l).map TripCause.text ++ deviceWords (s.persisting l) s.device)
    else (s.clearLine l).take head [LineState.connected.text]

end Sys2Proof.Machine
end

