-- ==== Sys2Proof/Machine/Reading.lean ====
section
/-! DEFINITION. The READ requests (R169 to R171, R175): the items of each reply in their order. A READ changes nothing but
the waiting reply. The form of items with several parts is log 22. -/

namespace Sys2Proof.Machine

/-! ### READ LINE (R169) -/

/-- The delivered total (R6). A line without a record in force has counted no pulses since its reset. -/
def State.delivered (s : State) (l : LineId) : Nat :=
  let m := s.meas l
  m.dBase + (match s.limits l with | some lim => m.pTot * 100 / lim.f | none => 0)

/-- A figure that reads absent while the line's record is blank (R169). -/
def State.unlessBlank (s : State) (l : LineId) (x : Option Nat) : Option Nat := (s.limits l).bind fun _ => x

def State.sequenceItems (s : State) (l : LineId) : List String :=
  let q := s.seq l
  [item "STATE" q.state.text, item "GRADE" (optNum q.grade), item "PERMIT" (yesNoText q.permit),
   item "OUTCOME" (optText PermitOutcome.text (vget s.link.outcomes l)), item "PUMP" (onOffText q.pump),
   item "HOLD" (listText (q.holds.map HoldCause.text)), item "TRIP" (listText (q.trips.map TripCause.text))]

def Rate.items (r : Rate) : List String :=
  [item "TARGET" (numText r.target), item "PENDING" (optNum r.pendingTarget), item "EFF" (optNum r.eff),
   item "GOV" (optText Governing.text r.governing), item "MODE" r.mode.text, item "OPEN" (optNum r.opening),
   item "THROTTLE" (onOffText r.throttle), item "SRUN" (numText r.surgeRun), item "MRUN" (numText r.maxRun),
   item "TAKEOVER" (optText TakeoverReason.text r.mark)]

/-- The measurement group of R169. The words of WARN are the model's choice (log 22). -/
def State.measurementItems (s : State) (l : LineId) : List String :=
  let m := s.meas l
  [item "QL" (optNum (s.unlessBlank l m.q)), item "PL" (optNum m.pressure), item "STRETCH" (optNum m.stretch),
   item "POS" (optNum m.position),
   item "ORUN" (listText [numText m.pressureOut, numText m.stretchOut, numText m.positionOut]),
   item "BAND" m.band.text, item "WARN" (if m.warn then "SET" else "CLEAR"), item "STEADY" (onOffText m.steady),
   item "EPOCH" (numText m.epoch), item "TOTAL" (numText (s.delivered l)),
   item "TCLOSE" (optNum (s.unlessBlank l m.tClose)), item "QSURGE" (optNum (s.unlessBlank l m.qSurge)),
   item "TC" (optNum (s.unlessBlank l m.tC))]

def Drive.items (d : Drive) : List String :=
  [item "SP" (numText d.setpoint), item "DRIVE" (onOffText d.enabled),
   item "RAMP" (optText (fun r => listText [numText r.target, numText r.step]) d.ramp),
   item "STAGE" (optText Stage.text d.stage), item "TMEAS" (optNum d.tMeas), item "TOVR" (optNum d.tOvr),
   item "TSTROKE" (optNum d.tStroke), item "TRACK" (numText d.track)]

/-- A tank of the lineup as number:state. -/
def State.lineupEntry (s : State) (t : TankId) : String :=
  colons [numText (tankNumber t), optText TankState.text (s.tankState t)]

def State.lineItems (s : State) (l : LineId) : List String :=
  s.sequenceItems l ++ (s.rate l).items ++ s.measurementItems l ++ (s.drive l).items
    ++ [item "LINEUP" (listText ((s.lineup l).map s.lineupEntry))]

/-- READ LINE. -/
def State.takeReadLine (s : State) (n : Nat) : State :=
  s.onLine ["READ", "LINE"] n fun s l => s.take ["READ", "LINE", numText n] (s.lineItems l)

/-! ### READ TANK and READ TANKS (R170) -/

def PendingEntry.text : PendingEntry → String
  | .vanished => "VANISHED"
  | .entry e => colons [numText e.grade, numText e.cap, numText e.hh, optText id e.name]

def Anchor.text (a : Anchor) : String := listText [numText a.volume, numText a.time, numText a.epoch]

/-- The record of a tank, item by item (R170). A name that holds a space is written as it stands in NAME and PENDING, so
that its item spans two fields: the model's choice (log 22). -/
def Tank.recordItems (r : Tank) (now : Nat) : List String :=
  [item "NAME" (optText id r.name), item "GRADE" (numText r.grade), item "CAP" (numText r.cap),
   item "HH" (numText r.hh), item "FILL" (numText r.fl), item "VHH" (numText r.vHh), item "VSTOP" (numText r.vStop),
   item "VREP" (optNum r.vRep), item "MTIME" (optNum r.mTime), item "VALVE" r.valve.text,
   item "FAULT" (optText yesNoText r.fault), item "LINE" (optText (fun l => numText (lineNumber l)) r.line),
   item "STATE" r.state.text, item "MARKS" (listText r.marks),
   item "TIMER" (optText (fun c => numText (c.run now)) r.timer), item "PENDING" (optText PendingEntry.text r.pendingEntry),
   item "RING" (listText (r.ring.map numText)), item "REST" (optNum r.rEst), item "ANCHOR" (optText Anchor.text r.anchor)]

def resultItems (e : Option Results) : List String :=
  [item "RM" (optText (fun e => numText e.rm) e), item "AGE" (optText (fun e => numText e.age) e),
   item "VNOW" (optText (fun e => numText e.vNow) e), item "R" (optText (fun e => intText e.room) e),
   item "S" (optText (fun e => numText e.stop) e), item "M" (optText (fun e => intText e.margin) e),
   item "E" (optText (fun e => numText e.endVol) e), item "TAU" (optNum (e.bind fun e => e.tau)),
   item "EVAL" (optText (fun e => numText e.time) e)]

/-- READ TANK. An ABSENT tank is answered with its state alone. -/
def State.takeReadTank (s : State) (n : Nat) : State :=
  match tankOf n with
  | some t =>
    s.take ["READ", "TANK", numText n]
      (match s.tank t with
       | some r => r.recordItems s.clock ++ resultItems r.results
       | none => [item "STATE" "ABSENT"])
  | none => s.refuse ["READ", "TANK", numText n] ["RANGE"]

/-- The group of one record. -/
def tankGroup (t : TankId) (r : Tank) : String :=
  colons [numText (tankNumber t), r.state.text, optText (fun l => numText (lineNumber l)) r.line, r.valve.text,
          optNum r.vRep, listText r.marks]

def State.tankGroups (s : State) : List String :=
  allTanks.filterMap fun t => (s.tank t).map (tankGroup t)

/-- READ TANKS. -/
def State.takeReadTanks (s : State) : State :=
  s.take ["READ", "TANKS"] (if s.tankGroups.isEmpty then ["-"] else s.tankGroups)

/-! ### READ STATUS (R171) -/

def Phase.text : Phase → String
  | .starting => "STARTING"
  | .running => "RUNNING"

/-- The header read, or two hyphens. -/
def headerParts (h : Option Header) : List String :=
  [optText (fun h => numText h.count) h, optText (fun h => numText h.revision) h]

/-- ACQ or REFRESH progress (R171), with the parts of R123: the header read, the next entry index, for ACQ the attempts made
at the present telegram, and the entries gathered. The entries gathered are given by their number alone, ACQ is given when
both are under way, and it reads absent when neither is: the model's choices (log 22). -/
def Link.progressItem (k : Link) : String :=
  match k.acq, k.refresh with
  | none, some p => item "REFRESH" (listText (headerParts p.header ++ [numText p.next, numText p.entries.length]))
  | a, _ =>
    item "ACQ" (optText (fun a =>
      listText (headerParts a.header ++ [numText a.next, numText a.attempts, numText a.entries.length])) a)

def Link.items (k : Link) : List String :=
  [item "LINK" k.state.text, item "GAUGING" k.gauging.text,
   item "WINDOW" (listText [numText k.failures, numText k.window.length]), item "FRUN" (numText k.failRun),
   item "REV" (optNum k.rev), k.progressItem, item "LAST" (optText (fun r => colons r.text) k.lastAcq),
   item "STOP" (optText (fun stop => if stop then "STOP" else "CLEAR") k.stop),
   item "ADVICES" (listText (k.advices.map fun a => colons [numText (tankNumber a.1), a.2.text])),
   item "POLL" (listText (k.poll.map fun t => numText (tankNumber t)))]

/-- An alarm entry as kind:object:ack:condition:time. -/
def Alarm.text (a : Alarm) : String := colons ([alarmText a.kind, a.object.text] ++ a.marks ++ [numText a.time])

def State.tripItems (s : State) : List String :=
  [item "CONTACT" (contactText s.esd.contact), item "LOOP" (contactText s.esd.loop), item "FAR" (contactText s.esd.far),
   item "DEVICE" (listText (s.device.map fun d => colons d.text)),
   item "OVERFILL" (listText (s.overfills.map fun t => numText (tankNumber t))), item "HORN" (onOffText s.horn),
   item "ALARMS" (listText (s.alarms.map Alarm.text))]

/-- The status of a line's record, WRITING while it is being written (R175). -/
def State.recordText (s : State) (l : LineId) : String :=
  if s.writing l then "WRITING" else (s.record l).status.text

def State.storeItems (s : State) : List String :=
  [item "KEY" (onOffText s.key), item "LOCK" (if s.store.lock then "SET" else "CLEAR"),
   item "WRITE" (optText (fun w => numText (lineNumber w.line)) s.store.write),
   item "RECORDS" (listText (allLines.map s.recordText))]

/-- READ STATUS. -/
def State.takeReadStatus (s : State) : State :=
  s.take ["READ", "STATUS"]
    ([item "STARTUP" s.phase.text, item "CLOCK" (numText s.clock)] ++ s.link.items ++ s.tripItems ++ s.storeItems
      ++ [item "MASK" (listText (s.port.mask.map NoticeKind.text))])

/-! ### READ SET and READ LIMITS (R171, R175) -/

def Settings.items (x : Settings) : List String :=
  [item "TTOP" (numText x.ttop), item "TREACT" (numText x.treact), item "STALEL" (numText x.stalel),
   item "STALEM" (numText x.stalem), item "WINDOW" (numText x.window), item "ESTW" (numText x.estw),
   item "CHANGEOVER" (numText x.changeover), item "LINKLOSS" (numText x.linkloss), item "BAND" (numText x.band),
   item "STEADYN" (numText x.steadyn)]

/-- READ SET. -/
def State.takeReadSet (s : State) : State := s.take ["READ", "SET"] s.settings.items

/-- The names of the fourteen fields in the order of R175. -/
def limitNames : List String :=
  ["PRATED", "QMAX", "K", "VD", "F", "WRUN", "WSETTLE", "STRIP", "TMIN", "TMAX", "SOPEN", "LSTEP", "QTOP", "QCAP"]

/-- The fourteen values in the order of R175. -/
def limitValues (x : Limits) : List Nat :=
  [x.pRated, x.qMax, x.k, x.vd, x.f, x.warnRun, x.warnSettle, x.tripLimit, x.tMin, x.tMax, x.startOpening, x.loopStep,
   x.qTop, x.qCap]

def limitItems (x : Limits) : List String := List.zipWith (fun n v => item n (numText v)) limitNames (limitValues x)

/-- The record in force, BLANK when there is none, then WRITING and the new record while a write is in flight (R175). -/
def State.limitsItems (s : State) (l : LineId) : List String :=
  (match s.limits l with | some x => limitItems x | none => ["BLANK"])
    ++ (match s.store.write with
        | some w => if w.line = l then "WRITING" :: limitItems w.record else []
        | none => [])

/-- READ LIMITS. -/
def State.takeReadLimits (s : State) (n : Nat) : State :=
  s.onLine ["READ", "LIMITS"] n fun s l => s.take ["READ", "LIMITS", numText n] (s.limitsItems l)

end Sys2Proof.Machine
end

