-- ==== Sys2Proof/Machine/Store.lean ====
section
/-! DEFINITION. The limits store: the checks of a record (R175), LIMITS (R178), LOCK and UNLOCK (R177), the end of a write
(R180, R7), and what the store does at a reset (R176, R181). -/

namespace Sys2Proof.Machine

/-! ### Ranges and relations (R175) -/

/-- The ranges of the fourteen fields, in their order; the last two reach to the record's own max flow. -/
def limitRanges (x : Limits) : List (Nat × Nat) :=
  [(300, 2500), (500, 20000), (100, 20000), (0, 5000), (10, 10000), (1, 3000), (1, 3000), (1, 3000), (20, 600),
   (100, 1800), (50, 500), (1, 20), (100, x.qMax), (100, x.qMax)]

/-- The name of the first field outside its range (R178). -/
def limitsOutOfRange (x : Limits) : Option String :=
  ((List.zip limitNames (List.zip (limitValues x) (limitRanges x))).find? fun p =>
    !(decide (p.2.2.1 ≤ p.2.1) && decide (p.2.1 ≤ p.2.2.2))).map (·.1)

/-- The relations of R175 in the order listed: whether each holds, and its two fields. -/
def limitRelations (x : Limits) : List (Bool × List String) :=
  [(decide (x.warnRun < x.warnSettle), ["WRUN", "WSETTLE"]), (decide (x.warnSettle < x.tripLimit), ["WSETTLE", "STRIP"]),
   (decide (x.tMin ≤ x.tMax), ["TMIN", "TMAX"]), (decide (x.qTop ≤ x.qMax), ["QTOP", "QMAX"]),
   (decide (x.qCap ≤ x.qMax), ["QCAP", "QMAX"])]

/-- The two fields of the first broken relation (R178). -/
def limitsBroken (x : Limits) : Option (List String) := ((limitRelations x).find? fun p => !p.1).map (·.2)

/-- A record obeys every range and relation (R175, R176). -/
def limitsObey (x : Limits) : Bool := (limitsOutOfRange x).isNone && (limitsBroken x).isNone

/-- Fourteen values as a record (R175). -/
def limitsOf : List Nat → Option Limits
  | [a, b, c, d, e, f, g, h, i, j, k, l, m, n] =>
    some { pRated := a, qMax := b, k := c, vd := d, f := e, warnRun := f, warnSettle := g, tripLimit := h, tMin := i,
           tMax := j, startOpening := k, loopStep := l, qTop := m, qCap := n }
  | _ => none

/-! ### LIMITS (R178) -/

/-- What stands in the way of a write: KEY, LOCK, or both in that order (R178). -/
def State.lockedBy (s : State) : List String :=
  (if s.key then [] else ["KEY"]) ++ (if s.store.lock then ["LOCK"] else [])

/-- What a taken LIMITS does: the new record becomes the write in flight. -/
def State.beginWrite (s : State) (l : LineId) (x : Limits) : State :=
  { s with store := { s.store with write := some { line := l, record := x, since := s.clock } } }

/-- Checks 5 to 7 of LIMITS: the record, or the reason and its details (R178). -/
def limitsRecord (values : List NumField) : Except (List String) Limits :=
  match (allNumbersOf values).bind limitsOf with
  | none => .error ["SYNTAX"]
  | some x =>
    match limitsOutOfRange x, limitsBroken x with
    | some name, _ => .error ["RANGE", name]
    | none, some names => .error ("RANGE" :: names)
    | none, none => .ok x
where
  /-- Every value a number. -/
  allNumbersOf : List NumField → Option (List Nat)
    | [] => some []
    | some n :: fs => (allNumbersOf fs).map (n :: ·)
    | none :: _ => none

/-- LIMITS (R178). -/
def State.takeLimits (s : State) (n : Nat) (values : List NumField) : State :=
  s.lineRequest "LIMITS" n fun s l head =>
    if s.lockedBy ≠ [] then s.refuse head ("LOCKED" :: s.lockedBy)
    else if (s.seq l).state.atRest = false then s.refuse head ["STATE"]
    else
      match s.store.write with
      | some w => s.refuse head ["BUSY", numText (lineNumber w.line)]
      | none =>
        match limitsRecord values with
        | .error why => s.refuse head why
        | .ok x => (s.beginWrite l x).take head ["WRITING"]

/-! ### LOCK and UNLOCK (R177) -/

/-- The flag with its check, in non-volatile memory. -/
def State.setLock (s : State) (flag : Bool) : State :=
  { s with store := { s.store with lock := flag, storedLock := some (flag, Config.lockCheck flag) } }

/-- LOCK (R177). -/
def State.takeLock (s : State) : State :=
  s.afterStartup ["LOCK"] fun s => (if s.store.lock then s else s.setLock true).take ["LOCK"] ["LOCK", "SET"]

/-- UNLOCK (R177). -/
def State.takeUnlock (s : State) : State :=
  s.afterStartup ["UNLOCK"] fun s =>
    if s.key then (if s.store.lock then s.setLock false else s).take ["UNLOCK"] ["LOCK", "CLEAR"]
    else s.refuse ["UNLOCK"] ["LOCKED"]

/-! ### The end of a write (R180) -/

/-- R7: the totaliser is folded when the factor differs from the one in use. -/
def State.foldTotal (s : State) (l : LineId) (f : Nat) : State :=
  match s.limits l with
  | some old => if old.f = f then s else s.modMeas l fun m => { m with dBase := s.delivered l, pTot := 0 }
  | none => s

/-- R75: a console rate target above the new max flow is lowered to it. -/
def State.lowerTarget (s : State) (l : LineId) (qMax : Nat) : State :=
  if qMax < (s.rate l).target then (s.modRate l fun r => { r with target := qMax }).notify (.line l) else s

/-- The stored form of a write (R176, log 9). -/
def soundRecord (x : Limits) : LineRecord :=
  { fields := some x, crc := crc16 (Config.storedForm x), status := .sound }

/-- R180: the write ends, with the totaliser folded by the factor it replaces. -/
def State.endWrite (s : State) (w : Write) : State :=
  let s₁ := (s.foldTotal w.line w.record.f).setRecord w.line (soundRecord w.record)
  (({ s₁ with store := { s₁.store with write := none } }).lowerTarget w.line w.record.qMax).notify (.doneLimits w.line)

/-! ### The store at a reset (R176, R177, R181) -/

/-- R176: the check of a record as it is stored. -/
def LineRecord.checks (r : LineRecord) : Bool :=
  match r.fields with
  | some x => decide (crc16 (Config.storedForm x) = r.crc) && limitsObey x
  | none => false

/-- R176: a record as it is read at the beginning of start-up. -/
def LineRecord.reread (r : LineRecord) : LineRecord := { r with status := if r.checks then .sound else .blank }

/-- R181: the record of a write cut short is erased. -/
def Store.cutShort (x : Store) : Store :=
  match x.write with
  | some w => { x with records := vset x.records w.line { fields := none, crc := 0, status := .blank }, write := none }
  | none => x

/-- R177: a flag whose check fails is taken as SET. -/
def readLock : Option (Bool × CrcReg) → Bool
  | some (flag, check) => if check = Config.lockCheck flag then flag else true
  | none => true

/-- R176, R177, R181: the store after power-on and the reset input. -/
def Store.afterReset (x : Store) : Store :=
  let y := x.cutShort
  { y with records := y.records.map LineRecord.reread, lock := readLock y.storedLock }

end Sys2Proof.Machine
end

