-- ==== Sys2Proof/Machine/Reset.lean ====
section
/-! DEFINITION. Power-on, the reset input, RESTART and the end of start-up (R173, R182 to R184), and the changes of the key
and of the loop readings (R145, R146, R177). -/

namespace Sys2Proof.Machine

/-! ### What every reset sets (R183) -/

/-- R146: at the end of a reset a far loop that stands open puts ESD_IN into the device set. The reset has emptied the
pending set by then, and the TRIP and ALARM notices stay in it: the model's choice (log 49). -/
def State.farAtReset (s : State) : State :=
  if s.esd.far = .opened then (s.joinDevice .esdIn).raiseAlarm .esdIn .loop else s

/-- R19: Q_L after a reset is 0 for a line whose record is SOUND. -/
def resetMeas (r : LineRecord) : Meas :=
  Meas.initial (match r.status with | .sound => some 0 | .blank => none)

/-- The values common to power-on, the reset input and RESTART, over a console port and a trip unit that differ (R183). -/
def State.resetBlocks (s : State) : State :=
  { s with
    clock := 0
    phase := .starting
    settings := Settings.initial
    seqs := Vector.replicate 4 Seq.initial
    rates := Vector.replicate 4 Rate.initial
    meass := s.store.records.map resetMeas
    drives := Vector.replicate 4 Drive.initial
    lineups := Vector.replicate 4 []
    tanks := Vector.replicate 16 none
    link := Link.initial
    device := []
    overfills := []
    alarms := []
    horn := false
    port := { s.port with rx := "", held := none, waiting := none }
    notices := []
    linkResult := false }

/-- Power-on and the reset input (R183): the store read and checked first (R182), the contact open, the loop readings as
they stand at the end of the reset (R143), the mask all on (R158). -/
def State.hardReset (s : State) (loop far : Contact) : State :=
  (({ s with
      store := s.store.afterReset
      esd := { contact := .opened, loop := loop, far := far }
      port := Port.initial }).resetBlocks).farAtReset

/-! ### RESTART (R173) -/

/-- The line states that refuse RESTART (R173). -/
def LineState.busy : LineState → Bool
  | .stroking | .opening | .delivering | .holding | .finishing => true
  | .disconnected | .connected | .held | .tripping | .tripped => false

/-- What a taken RESTART does: its reply is sent, then every block takes its RESTART values (R173, R183). That the reply is
sent within the step that takes RESTART is the model's choice (log 50). -/
def State.restart (s : State) : State :=
  ((({ s with port := { s.port with waiting := none, out := some (written ["=", "RESTART"]) } })).resetBlocks).farAtReset

/-- RESTART (R173). The rule has STATE and BUSY name a line, and no sample shows how: the number alone is the model's choice
(log 21). -/
def State.takeRestart (s : State) : State :=
  s.afterStartup ["RESTART"] fun s =>
    match allLines.find? fun l => (s.seq l).state.busy, s.store.write with
    | some l, _ => s.refuse ["RESTART"] ["STATE", numText (lineNumber l)]
    | none, some w => s.refuse ["RESTART"] ["BUSY", numText (lineNumber w.line)]
    | none, none => s.restart

/-! ### The end of start-up (R182) -/

/-- The part clock counts one ds (R184). -/
def State.nextDs (s : State) : State := { s with clock := s.clock + 1 }

/-- R144, R182: the contact closes, the phase becomes RUNNING, READY is made pending. -/
def State.endStartup (s : State) : State := ({ s.setContact .closed with phase := .running }).notify .ready

/-! ### The key and the loop (R145, R146, R177) -/

/-- R177: a change of the key acts on nothing else. -/
def State.setKey (s : State) (on : Bool) : State := { s with key := on }

/-- R62: every line's pump permit is re-judged. -/
def State.judgePumps (s : State) : State := s.eachLine fun s l => s.modSeq l id

/-- R145: a change of the loop reading. -/
def State.setLoopReading (s : State) (c : Contact) : State :=
  if s.esd.loop = c then s
  else
    let s' := (({ s with esd := { s.esd with loop := c } }).notify .trip).judgePumps
    match c with
    | .opened => s'.eachLine fun s l => s.addTrip l .esdIn
    | .closed => s'

/-- R146: a change of the far-loop reading. -/
def State.setFarReading (s : State) (c : Contact) : State :=
  if s.esd.far = c then s
  else
    let s' := ({ s with esd := { s.esd with far := c } }).notify .trip
    match c with
    | .opened => (s'.joinDevice .esdIn).raiseAlarm .esdIn .loop
    | .closed => (s'.leaveDevice .esdIn).alarmGone .esdIn .loop

end Sys2Proof.Machine
end

