-- ==== Sys2Proof/Machine/SystemRequests.lean ====
section
/-! DEFINITION. The requests of the ship link controller (LINKSTART, GAUGING), of the trip unit (ESD, CLEAR ALL, ACK), of the
transfer settings (SET) and of the console port (MASK). -/

namespace Sys2Proof.Machine

/-! ### LINKSTART and GAUGING (R130, R141) -/

/-- R130: the table. -/
def linkstartRefusal (st : LinkState) (g : Gauging) : Option String :=
  match st, g with
  | .down, _ | .lost, _ | .good, .manual | .poor, .manual => none
  | .acquiring, _ => some "BUSY"
  | .good, .linked | .poor, .linked => some "STATE"

/-- LINKSTART (R130). -/
def State.takeLinkstart (s : State) : State :=
  s.afterStartup ["LINKSTART"] fun s =>
    match linkstartRefusal s.link.state s.link.gauging with
    | some why => s.refuse ["LINKSTART"] [why]
    | none => s.beginAcquisition.take ["LINKSTART"] ["ACQUIRING"]

/-- GAUGING MANUAL (R141). -/
def State.takeGaugingManual (s : State) : State :=
  s.afterStartup ["GAUGING"] fun s =>
    (if s.link.gauging = .linked then s.toManual else s).take ["GAUGING"] ["MANUAL"]

/-- GAUGING LINKED (R141). -/
def State.takeGaugingLinked (s : State) : State :=
  s.afterStartup ["GAUGING"] fun s =>
    if s.link.state.carries then
      (if s.link.gauging = .manual then s.toLinked else s).take ["GAUGING"] ["LINKED"]
    else s.refuse ["GAUGING"] ["LINK", s.link.state.text]

/-! ### ESD and CLEAR ALL (R149, R150, R59) -/

/-- ESD (R149). -/
def State.takeEsd (s : State) : State :=
  s.afterStartup ["ESD"] fun s =>
    let s' := s.deviceTrip .consoleEsd
    s'.take ["ESD"] (contactText s'.esd.contact :: s'.device.flatMap DeviceTrip.text)

/-- A device stretch trip whose line still reads above its trip limit (R150). -/
def State.stillStretched (s : State) (d : DeviceTrip) : Bool :=
  match d with
  | .stretchTrip l => s.stretchHigh l
  | .esdIn | .consoleEsd | .overfill _ => false

/-- R150: the members listed for the conditions that fail. -/
def State.clearAllFails (s : State) : List DeviceTrip :=
  (if s.esd.far = .opened then [.esdIn] else []) ++ s.overfills.map .overfill ++ s.device.filter s.stillStretched

/-- R150: the condition of a member's alarm entry once the device set is empty. -/
def State.memberGone (s : State) (d : DeviceTrip) : State :=
  match d with
  | .stretchTrip l => s.stretchTripGone l
  | .consoleEsd | .overfill _ => s.alarmGone d.alarm.1 d.alarm.2
  | .esdIn => s

/-- R150: the device set is emptied, the contact closes, and the conditions of its members are gone. -/
def State.emptyDevice (s : State) : State :=
  s.device.foldl State.memberGone ((({ s with device := [] }).notify .trip).setContact .closed)

/-- R59: a line in TRIPPED, by the conditions of R58. -/
def State.clearIfFit (s : State) (l : LineId) : State :=
  if (s.seq l).state = .tripped ∧ s.persisting l = [] ∧ s.device = [] then s.clearLine l else s

/-- The lines in TRIPPED. -/
def State.trippedLines (s : State) : List LineId := allLines.filter fun l => decide ((s.seq l).state = .tripped)

/-- A line as an object of the reply to CLEAR ALL (R152). -/
def lineObject (l : LineId) : String := (AlarmObject.line l).text

/-- R150: each line that stays TRIPPED with its own causes that persist. With the far loop open that is ESD_IN for each of
them, beside the device member ESD_IN: the model's choice (log 21). -/
def State.stayWords (s : State) : List String :=
  s.trippedLines.flatMap fun l => lineObject l :: (s.persisting l).map TripCause.text

/-- CLEAR ALL (R59, R150). -/
def State.takeClearAll (s : State) : State :=
  s.afterStartup ["CLEAR", "ALL"] fun s =>
    if s.device ≠ [] ∧ s.clearAllFails ≠ [] then
      s.refuse ["CLEAR", "ALL"] ("TRIP" :: s.clearAllFails.flatMap DeviceTrip.text ++ s.stayWords)
    else
      let s' := (if s.device = [] then s else s.emptyDevice).eachLine State.clearIfFit
      let cleared := s.trippedLines.filter fun l => decide (l ∉ s'.trippedLines)
      if s.device ≠ [] ∨ cleared ≠ [] ∨ s.trippedLines = [] then
        s'.take ["CLEAR", "ALL"] (cleared.map lineObject ++ s'.stayWords)
      else s.refuse ["CLEAR", "ALL"] ("TRIP" :: s.stayWords)

/-! ### ACK (R155) -/

/-- The objects of an ACK; a number outside its range gives none. -/
def objectOf : ObjectWord → Option AlarmObject
  | .line n => (lineOf n).map .line
  | .tank n => (tankOf n).map .tank
  | .link => some .link
  | .loop => some .loop
  | .part => some .part
  | .other => none

/-- An object word is a line or tank number outside its range (R155). -/
def ObjectWord.outOfRange : ObjectWord → Bool
  | .line n => (lineOf n).isNone
  | .tank n => (tankOf n).isNone
  | .link | .loop | .part | .other => false

/-- An entry lies inside both lists; an absent list is ALL (R155). -/
def ackSelects (objects : Option (List ObjectWord)) (kinds : Option (List (Option AlarmKind))) (a : Alarm) : Bool :=
  (match objects with | none => true | some os => decide (some a.object ∈ os.map objectOf))
    && (match kinds with | none => true | some ks => decide (some a.kind ∈ ks))

/-- The set after an acknowledgement: selected entries acknowledged, and those whose condition is gone left out. -/
def ackedSet (selects : Alarm → Bool) (as : List Alarm) : List Alarm :=
  (as.map fun a => if selects a then { a with acked := true } else a).filter fun a => !selects a || a.present

/-- What a taken ACK does, with an ALARM notice for each entry it changes (R155, R157). -/
def State.acknowledge (s : State) (selects : Alarm → Bool) : State :=
  (s.alarms.filter fun a => selects a && !(a.acked && a.present)).foldl (fun s a => s.notify (.alarm a.kind a.object))
    (s.setAlarms (ackedSet selects s.alarms))

/-- ACK (R155). A number outside its range is judged first, and a missing list or another fault of SYNTAX after it: the
model's choice (log 24). -/
def State.takeAck (s : State) (objects : Option (List ObjectWord)) (kinds : Option (List (Option AlarmKind))) : State :=
  s.afterStartup ["ACK"] fun s =>
    if (objects.getD []).any ObjectWord.outOfRange then s.refuse ["ACK"] ["RANGE"]
    else if objects = some [] ∨ kinds = some [] ∨ ObjectWord.other ∈ objects.getD [] ∨ none ∈ kinds.getD [] then
      s.refuse ["ACK"] ["SYNTAX"]
    else
      let selects := ackSelects objects kinds
      let s' := s.acknowledge selects
      s'.take ["ACK"]
        [numText (s.alarms.filter fun a => selects a && !a.acked).length,
         numText (s'.alarms.filter fun a => !a.acked).length, onOffText s'.horn]

/-! ### SET (R172) -/

/-- The names of the table of R172. -/
inductive SettingName where
  | ttop
  | treact
  | stalel
  | stalem
  | window
  | estw
  | changeover
  | linkloss
  | band
  | steadyn
  deriving DecidableEq, Repr

def SettingName.all : List SettingName :=
  [.ttop, .treact, .stalel, .stalem, .window, .estw, .changeover, .linkloss, .band, .steadyn]

def SettingName.text : SettingName → String
  | .ttop => "TTOP"
  | .treact => "TREACT"
  | .stalel => "STALEL"
  | .stalem => "STALEM"
  | .window => "WINDOW"
  | .estw => "ESTW"
  | .changeover => "CHANGEOVER"
  | .linkloss => "LINKLOSS"
  | .band => "BAND"
  | .steadyn => "STEADYN"

/-- The value used for a value asked (R172): the nearest bound outside the range; ESTW is 4 up to 6 and 8 above. -/
def SettingName.used (v : Nat) : SettingName → Nat
  | .ttop => clamp 600 18000 v
  | .treact => clamp 0 100 v
  | .stalel => clamp 50 600 v
  | .stalem => clamp 600 6000 v
  | .window => clamp 0 3 v
  | .estw => if v ≤ 6 then 4 else 8
  | .changeover => clamp 300 6000 v
  | .linkloss => clamp 3 30 v
  | .band => clamp 20 200 v
  | .steadyn => clamp 5 250 v

def SettingName.store (v : Nat) (x : Settings) : SettingName → Settings
  | .ttop => { x with ttop := v }
  | .treact => { x with treact := v }
  | .stalel => { x with stalel := v }
  | .stalem => { x with stalem := v }
  | .window => { x with window := v }
  | .estw => { x with estw := v }
  | .changeover => { x with changeover := v }
  | .linkloss => { x with linkloss := v }
  | .band => { x with band := v }
  | .steadyn => { x with steadyn := v }

/-- R119: a ring holding more rates than W loses its oldest. -/
def Tank.trimRing (w : Nat) (r : Tank) : Tank := { r with ring := r.ring.drop (r.ring.length - w) }

/-- One setting is set, with what takes effect at once: W on every ring (R119), the change-over timeout on every timer
(R93). -/
def State.setOne (s : State) (p : SettingName × Nat) : State :=
  let s' := { s with settings := p.1.store p.2 s.settings }
  match p.1 with
  | .estw => allTanks.foldl (fun s t => s.modTank t (Tank.trimRing p.2)) s'
  | .changeover => allTanks.foldl State.judgeChange s'
  | .ttop | .treact | .stalel | .stalem | .window | .linkloss | .band | .steadyn => s'

/-- The pairs of a SET; none where a name is not in the table, a value is not a number, or the number of fields is odd. -/
def settingPairs : List Field → Option (List (SettingName × Nat))
  | [] => some []
  | .word w :: .num v :: rest =>
    match SettingName.all.find? fun x => decide (x.text = w), settingPairs rest with
    | some x, some ps => some ((x, v) :: ps)
    | _, _ => none
  | .word _ :: .word _ :: _ | .num _ :: _ | [.word _] => none

/-- SET (R172). -/
def State.takeSet (s : State) (fields : List Field) : State :=
  s.afterStartup ["SET"] fun s =>
    match settingPairs fields with
    | none => s.refuse ["SET"] ["SYNTAX"]
    | some ps =>
      if ps = [] ∨ ¬ (ps.map (·.1)).Nodup then s.refuse ["SET"] ["SYNTAX"]
      else
        ((ps.map fun p => (p.1, p.1.used p.2)).foldl State.setOne s).take ["SET"]
          (ps.flatMap fun p => [p.1.text, numText (p.1.used p.2)] ++ clampedMark p.2 (p.1.used p.2))

/-! ### MASK (R168) -/

/-- One list of a MASK: NONE, ALL, or one or more kinds. -/
def maskList (ws : List String) : Option (List NoticeKind) :=
  if ws = ["NONE"] then some []
  else if ws = ["ALL"] then some NoticeKind.all
  else if ws = [] then none
  else ws.mapM fun w => NoticeKind.all.find? fun k => decide (k.text = w)

/-- A kind in the mask list is on when it is also in the value list; the others keep their setting. -/
def newMask (values masked old : List NoticeKind) : List NoticeKind :=
  NoticeKind.all.filter fun k => if k ∈ masked then decide (k ∈ values) else decide (k ∈ old)

/-- What a taken MASK does: a kind turned off takes its pairs out of the pending set at once. -/
def State.setMask (s : State) (mask : List NoticeKind) : State :=
  let notices := s.notices.filter fun n => n.allowed mask
  { s with
    port := { s.port with mask := mask }
    notices := notices
    linkResult := s.linkResult && decide (Notice.link ∈ notices) }

/-- MASK (R168). -/
def State.takeMask (s : State) (fields : List String) : State :=
  s.afterStartup ["MASK"] fun s =>
    let values := fields.takeWhile (· ≠ "/")
    match fields.dropWhile (· ≠ "/") with
    | [] => s.refuse ["MASK"] ["SYNTAX"]
    | _ :: masked =>
      match maskList values, maskList masked with
      | some vs, some ms =>
        let s' := s.setMask (newMask vs ms s.port.mask)
        s'.take ["MASK"] (s'.port.mask.map NoticeKind.text)
      | _, _ => s.refuse ["MASK"] ["SYNTAX"]

end Sys2Proof.Machine
end

