-- ==== Sys2Proof/Machine/TankRequests.lean ====
section
/-! DEFINITION. The requests that the tank watch owns: ASSIGN, RELEASE, FILL, SOUND and CLEAR TANK. -/

namespace Sys2Proof.Machine

/-- A list of number fields with every one of them a number (R162). -/
def allNumbers : List NumField → Option (List Nat)
  | [] => some []
  | some n :: fs => (allNumbers fs).map (n :: ·)
  | none :: _ => none

/-- The state of a tank as a word. -/
def State.tankWord (s : State) (t : TankId) : String :=
  match s.tankState t with
  | some st => st.text
  | none => "ABSENT"

/-- The tanks of a request with their states after it (R90, R92). -/
def State.tankWords (s : State) (ts : List TankId) : List String :=
  ts.flatMap fun t => [numText (tankNumber t), s.tankWord t]

/-! ### ASSIGN (R90, R91) -/

/-- R90, check 4, for one tank, `before` tanks having been named before it. -/
def State.assignRefusal (s : State) (l : LineId) (before n : Nat) : Option (List String) :=
  match (tankOf n).bind fun t => s.tank t with
  | none => some ["RANGE", numText n]
  | some r =>
    if r.line.any (fun k => k ≠ l) then some ["TAKEN", numText n]
    else if r.state ≠ .listed ∨ r.conflict then some ["STATE", numText n]
    else if (s.seq l).grade ≠ some r.grade then some ["GRADE", numText n]
    else if 6 ≤ (s.lineup l).length + before then some ["FULLLINE", numText n]
    else none

/-- R90, check 4: the first tank that fails, in the order named. -/
def State.assignRefusals (s : State) (l : LineId) (before : Nat) : List Nat → Option (List String)
  | [] => none
  | n :: ns =>
    match s.assignRefusal l before n with
    | some why => some why
    | none => s.assignRefusals l (before + 1) ns

/-- The state an assigned tank takes (R91). -/
def Tank.assignedState (r : Tank) : TankState :=
  if r.valve = .opened ∧ r.vRep.isSome then .filling else .assigned

/-- R91: one tank joins the tail of the lineup. -/
def State.assignTank (s : State) (l : LineId) (t : TankId) : State :=
  match s.tank t with
  | none => s
  | some r =>
    let s' := ((s.modTankNoticed t fun r =>
      { r with line := some l, ring := [], anchor := none, topped := false, results := none,
               state := r.assignedState }).setLineup l (s.lineup l ++ [t])).notify (.line l)
    if r.assignedState = .filling then s'.dropHold l .noOutlet else s'

/-- The line states in which ASSIGN is taken (R90, R91). -/
def LineState.assigns : LineState → Bool
  | .connected | .stroking | .opening | .delivering | .holding | .held | .finishing | .tripping => true
  | .disconnected | .tripped => false

/-- The tanks of a list of numbers. -/
def tanksOf (ns : List Nat) : List TankId := ns.filterMap tankOf

/-- ASSIGN (R90, R91). A list refused SYNTAX, one that names a tank twice too, names no tank: the model's choice (log 21). -/
def State.takeAssign (s : State) (n : Nat) (tanks : List NumField) : State :=
  s.lineRequest "ASSIGN" n fun s l head =>
    if (s.seq l).state.assigns = false then s.refuse head ["STATE"]
    else
      match allNumbers tanks with
      | none => s.refuse head ["SYNTAX"]
      | some ns =>
        if ns = [] ∨ 6 < ns.length ∨ ¬ ns.Nodup then s.refuse head ["SYNTAX"]
        else
          match s.assignRefusals l 0 ns with
          | some why => s.refuse head why
          | none =>
            let s' := (tanksOf ns).foldl (fun s t => s.assignTank l t) s
            s'.take head (s'.tankWords (tanksOf ns))

/-! ### RELEASE (R92) -/

/-- R92: what becomes of one released tank. -/
def State.releaseTank (s : State) (t : TankId) : State :=
  match s.tank t with
  | none => s
  | some r =>
    match r.valve with
    | .opened => s.shiftTank t .releasing
    | .closed | .unknown => s.listTank t false

/-- R92: the number of each tank named and its place in this line's lineup. The refusal gives the first tank that failed, as
that of ASSIGN does (R90): the model's choice (log 21). -/
def State.releaseRefusal (s : State) (l : LineId) : List Nat → Option (List String)
  | [] => none
  | n :: ns =>
    match tankOf n with
    | none => some ["RANGE", numText n]
    | some t => if t ∈ s.lineup l then s.releaseRefusal l ns else some ["STATE", numText n]

/-- RELEASE of the tanks given, once they have passed their checks. -/
def State.releaseTanks (s : State) (ts : List TankId) (head : List String) : State :=
  let s' := ts.foldl State.releaseTank s
  s'.take head (s'.tankWords ts)

/-- RELEASE (R92). -/
def State.takeRelease (s : State) (n : Nat) (tanks : TankWords) : State :=
  s.lineRequest "RELEASE" n fun s l head =>
    if (s.seq l).state = .disconnected then s.refuse head ["STATE"]
    else
      match tanks with
      | .all => s.releaseTanks (s.lineup l) head
      | .list fs =>
        match allNumbers fs with
        | none => s.refuse head ["SYNTAX"]
        | some ns =>
          if ns = [] ∨ ¬ ns.Nodup then s.refuse head ["SYNTAX"]
          else
            match s.releaseRefusal l ns with
            | some why => s.refuse head why
            | none => s.releaseTanks (tanksOf ns) head

/-! ### FILL (R80, R81) -/

/-- What a taken FILL does: the limit stored, and a TOPPING tank whose limit is raised returned to FILLING and evaluated
at once (R81, R113). -/
def State.fillTank (s : State) (t : TankId) (r : Tank) (used : Nat) : State :=
  let s' := s.modTankNoticed t fun r => { r with fl := used }
  if r.state = .topping ∧ r.fl < used then (s'.startFilling t).evaluate t else s'

/-- FILL (R81). -/
def State.takeFill (s : State) (n : Nat) (limit : NumField) : State :=
  s.afterStartup ["FILL"] fun s => s.onTank ["FILL"] n fun s t r =>
    match limit with
    | none => s.refuse ["FILL", numText n] ["SYNTAX"]
    | some asked =>
      let used := clampFill r.hh asked
      (s.fillTank t r used).take ["FILL", numText n]
        ([numText used, numText (r.cap * used / 1000)] ++ clampedMark asked used)

/-! ### SOUND (R89) -/

/-- What a taken SOUND does: a level report with gauge fault no and ship age 0. -/
def State.soundTank (s : State) (t : TankId) (volume : Nat) (valve : ValveWord) : State :=
  s.levelReport { tank := t, volume := volume, valve := valve, fault := false, age := 0 }

/-- SOUND (R89). -/
def State.takeSound (s : State) (n : Nat) (volume : NumField) (valve : Option ValveWord) : State :=
  s.afterStartup ["SOUND"] fun s =>
    if s.link.gauging = .linked then s.refuse ["SOUND", numText n] ["LINK"]
    else s.onTank ["SOUND"] n fun s t r =>
      match volume, valve with
      | some asked, some w =>
        let used := min asked r.cap
        let s' := s.soundTank t used w
        s'.take ["SOUND", numText n]
          ([s'.tankWord t] ++ (if asked = used then [] else [numText used, "CLAMPED"]))
      | _, _ => s.refuse ["SOUND", numText n] ["SYNTAX"]

/-! ### CLEAR TANK (R108) -/

/-- What a taken CLEAR TANK does: LISTED, the pending entry applied (R86), off the overfill list (R148). -/
def State.clearTank (s : State) (t : TankId) : State :=
  let s' := s.listTank t false
  { s' with overfills := setErase t s'.overfills }

/-- State, V_rep and V_hh of a tank (R108). ABSENT alone for a tank whose record its pending VANISHED entry has removed
(R86): the model's choice (log 21). -/
def State.clearTankWords (s : State) (t : TankId) : List String :=
  match s.tank t with
  | some r => [r.state.text, optNum r.vRep, numText r.vHh]
  | none => ["ABSENT"]

/-- CLEAR TANK (R108). -/
def State.takeClearTank (s : State) (n : Nat) : State :=
  s.afterStartup ["CLEAR", "TANK"] fun s => s.onTank ["CLEAR", "TANK"] n fun s t r =>
    let head := ["CLEAR", "TANK", numText n]
    if r.state ≠ .overfill then s.refuse head ["STATE"]
    else if r.vRep.any (r.vHh ≤ ·) then s.refuse head ["TRIP", optNum r.vRep, numText r.vHh]
    else
      let s' := s.clearTank t
      s'.take head (s'.clearTankWords t)

end Sys2Proof.Machine
end

