-- ==== Sys2Proof/Machine/Console.lean ====
section
/-! DEFINITION. The lines that arrive at the console port: how one ends (R161), its check (R159, R160), which request it
names and how its fields read (R162), and the held line (R164). -/

namespace Sys2Proof.Machine

/-! ### Fields (R159, R162) -/

/-- Characters split at every space. -/
def splitSpaces : List Char → List (List Char)
  | [] => [[]]
  | c :: cs =>
    match splitSpaces cs with
    | [] => [[c]]
    | w :: ws => if c = ' ' then [] :: w :: ws else (c :: w) :: ws

/-- The number of a digit, if it is one. -/
def digitOf (c : Char) : Option Nat := if '0' ≤ c ∧ c ≤ '9' then some (c.toNat - 48) else none

/-- Decimal digits read on from a number. -/
def readDigits (n : Nat) : List Char → Option Nat
  | [] => some n
  | c :: cs =>
    match digitOf c with
    | some d => readDigits (n * 10 + d) cs
    | none => none

/-- A number field: 1 to 9 digits, leading zeros accepted (R159). -/
def numberOf (cs : List Char) : NumField :=
  if 1 ≤ cs.length ∧ cs.length ≤ 9 then readDigits 0 cs else none

def numField (w : String) : NumField := numberOf w.toList

/-- A field as SET reads it. -/
def fieldOf (w : String) : Field :=
  match numField w with
  | some n => .num n
  | none => .word w

/-- The value of a hexadecimal digit, capital or small (R159). -/
def hexOf (c : Char) : Option Nat :=
  if '0' ≤ c ∧ c ≤ '9' then some (c.toNat - 48)
  else if 'A' ≤ c ∧ c ≤ 'F' then some (c.toNat - 55)
  else if 'a' ≤ c ∧ c ≤ 'f' then some (c.toNat - 87)
  else none

/-- The register a check field gives: `#` and four hexadecimal digits (R159). -/
def checkOf : List Char → Option CrcReg
  | ['#', a, b, c, d] =>
    match hexOf a, hexOf b, hexOf c, hexOf d with
    | some a, some b, some c, some d => some (BitVec.ofNat 16 (((a * 16 + b) * 16 + c) * 16 + d))
    | _, _, _, _ => none
  | _ => none

/-- R159 to R161: the fields of a record before its check field; none when it fails its check. -/
def checkedFields (cs : List Char) : Option (List String) :=
  let words := splitSpaces cs
  match words.getLast? with
  | some w =>
    if cs.all printable ∧ checkOf w = some (crc16 (charBytes (cs.take (cs.length - w.length)))) then
      some ((if words.length = 1 then words else words.dropLast).map String.ofList)
    else none
  | none => none

/-! ### Requests by name (R162) -/

/-- R162, second check: a keyword or form word that names no request. -/
def State.unknownWord (s : State) (word : String) : State := s.answer ["?", word, "UNKNOWN"]

/-- SYNTAX under the request's name and, for a request that opens with a line or tank number, that number where its first
field is one (R162, R163). A request without such a number gives no field here. -/
def State.malformed (s : State) (name args : List String) : State :=
  s.afterStartup name fun s => s.refuse (name ++ ((args.head?.bind numField).map numText).toList) ["SYNTAX"]

/-- SYNTAX for a READ, which is taken during start-up too (R162); a READ without a line or tank number gives no field
here (R163). -/
def State.malformedRead (s : State) (name args : List String) : State :=
  s.refuse (name ++ ((args.head?.bind numField).map numText).toList) ["SYNTAX"]

/-- A request whose one field is a number. -/
def State.oneNumber (s : State) (name args : List String) (take : Nat → State) : State :=
  match args with
  | [a] =>
    match numField a with
    | some n => take n
    | none => s.malformed name args
  | _ => s.malformed name args

/-- A request without fields: one that has any is refused under its name alone (R163). -/
def State.noFields (s : State) (name args : List String) (taken : State) : State :=
  match args with
  | [] => taken
  | _ :: _ => s.malformed name []

/-- A request that opens with a number: its other fields go with it. -/
def State.numberFirst (s : State) (name args : List String) (take : Nat → List String → State) : State :=
  match args with
  | a :: rest =>
    match numField a with
    | some n => take n rest
    | none => s.malformed name args
  | [] => s.malformed name args

/-- A number field that may be missing, and nothing after it. -/
def lastField (s : State) (name args rest : List String) (take : NumField → State) : State :=
  match rest with
  | [] => take none
  | [w] => take (numField w)
  | _ :: _ :: _ => s.malformed name args

/-- The mode of a LOOP request (R71). -/
def loopWordOf : List String → Option LoopWord
  | ["AUTO"] => some .auto
  | ["FREEZE"] => some .freeze
  | ["SET", w] => (numField w).map .set
  | _ => none

/-- The ship valve word of a SOUND request (R89). -/
def valveWordOf (w : String) : Option ValveWord :=
  if w = "OPEN" then some .opened else if w = "CLOSED" then some .closed else none

/-- An object word of an ACK: L or T with a number, LINK, LOOP, PART (R152, R155). Leading zeros are accepted in that number,
as R159 accepts them in a number field: the model's choice (log 25). -/
def objectWordOf (w : String) : ObjectWord :=
  if w = "LINK" then .link
  else if w = "LOOP" then .loop
  else if w = "PART" then .part
  else
    match w.toList with
    | 'L' :: cs => (numberOf cs).elim .other .line
    | 'T' :: cs => (numberOf cs).elim .other .tank
    | _ => .other

/-- An alarm kind word (R152). -/
def alarmKindOf (w : String) : Option AlarmKind := AlarmKind.all.find? fun k => decide (alarmText k = w)

/-- The two lists of an ACK: the object words that open it, and the kinds after them (R155, log 26). -/
def ackWords (args : List String) : Option (List ObjectWord) × List String :=
  match args with
  | "ALL" :: rest => (none, rest)
  | _ =>
    (some ((args.takeWhile fun w => objectWordOf w ≠ .other).map objectWordOf),
      args.dropWhile fun w => objectWordOf w ≠ .other)

/-- ACK from its fields. -/
def State.ackFields (s : State) (args : List String) : State :=
  let p := ackWords args
  s.takeAck p.1 (if p.2 = ["ALL"] then none else some (p.2.map alarmKindOf))

/-- READ and its forms (R169 to R171). A READ without a second word is answered UNKNOWN, as one whose second word names no
form: the model's choice (log 25). -/
def State.readFields (s : State) : List String → State
  | "STATUS" :: args => if args = [] then s.takeReadStatus else s.malformedRead ["READ", "STATUS"] []
  | "TANKS" :: args => if args = [] then s.takeReadTanks else s.malformedRead ["READ", "TANKS"] []
  | "SET" :: args => if args = [] then s.takeReadSet else s.malformedRead ["READ", "SET"] []
  | "LINE" :: args =>
    match args with
    | [a] => (numField a).elim (s.malformedRead ["READ", "LINE"] args) s.takeReadLine
    | _ => s.malformedRead ["READ", "LINE"] args
  | "TANK" :: args =>
    match args with
    | [a] => (numField a).elim (s.malformedRead ["READ", "TANK"] args) s.takeReadTank
    | _ => s.malformedRead ["READ", "TANK"] args
  | "LIMITS" :: args =>
    match args with
    | [a] => (numField a).elim (s.malformedRead ["READ", "LIMITS"] args) s.takeReadLimits
    | _ => s.malformedRead ["READ", "LIMITS"] args
  | _ => s.unknownWord "READ"

/-- CLEAR and its forms (R58, R150, R108). The model's choices (log 25): CLEAR alone is a CLEAR whose line number is missing:
SYNTAX; and CLEAR followed by a field that is neither ALL nor TANK nor a number of 1 to 9 digits, such as CLEAR 1234567890,
names no form: UNKNOWN. -/
def State.clearFields (s : State) : List String → State
  | [] => s.malformed ["CLEAR"] []
  | "ALL" :: args => s.noFields ["CLEAR", "ALL"] args s.takeClearAll
  | "TANK" :: args => s.oneNumber ["CLEAR", "TANK"] args s.takeClearTank
  | a :: args =>
    match numField a with
    | some n => if args = [] then s.takeClear n else s.malformed ["CLEAR"] (a :: args)
    | none => s.unknownWord "CLEAR"

/-- The requests of a line supervisor (R35, R40 to R53, R71, R72). -/
def State.lineFields (s : State) (kw : String) (args : List String) : Option State :=
  match kw with
  | "CONNECT" =>
    some (s.numberFirst ["CONNECT"] args fun n rest =>
      match rest with
      | [w] => (numField w).elim (s.malformed ["CONNECT"] args) (s.takeConnect n)
      | _ => s.malformed ["CONNECT"] args)
  | "DISCONNECT" => some (s.oneNumber ["DISCONNECT"] args s.takeDisconnect)
  | "STROKE" => some (s.oneNumber ["STROKE"] args s.takeStroke)
  | "STROKESET" =>
    some (s.numberFirst ["STROKESET"] args fun n rest =>
      match rest with
      | ["NONE"] => s.takeStrokeset n none
      | [w] => (numField w).elim (s.malformed ["STROKESET"] args) fun t => s.takeStrokeset n (some t)
      | _ => s.malformed ["STROKESET"] args)
  | "PERMIT" =>
    some (s.numberFirst ["PERMIT"] args fun n rest =>
      match rest with
      | [] => s.takePermitQuery n
      | ["CONFIRM"] => s.takePermitConfirm n
      | _ => s.malformed ["PERMIT"] args)
  | "START" => some (s.numberFirst ["START"] args fun n rest => lastField s ["START"] args rest (s.takeStart n))
  | "RATE" => some (s.numberFirst ["RATE"] args fun n rest => lastField s ["RATE"] args rest (s.takeRate n))
  | "LOOP" => some (s.numberFirst ["LOOP"] args fun n rest => s.takeLoop n (loopWordOf rest))
  | "HOLD" => some (s.oneNumber ["HOLD"] args s.takeHold)
  | "RESUME" => some (s.oneNumber ["RESUME"] args s.takeResume)
  | "FINISH" => some (s.oneNumber ["FINISH"] args s.takeFinish)
  | _ => none

/-- The requests of the tank watch and the limits store (R81, R89, R90, R92, R177, R178). -/
def State.tankFields (s : State) (kw : String) (args : List String) : Option State :=
  match kw with
  | "ASSIGN" => some (s.numberFirst ["ASSIGN"] args fun n rest => s.takeAssign n (rest.map numField))
  | "RELEASE" =>
    some (s.numberFirst ["RELEASE"] args fun n rest =>
      if rest = ["ALL"] then s.takeRelease n .all else s.takeRelease n (.list (rest.map numField)))
  | "FILL" => some (s.numberFirst ["FILL"] args fun n rest => lastField s ["FILL"] args rest (s.takeFill n))
  | "SOUND" =>
    some (s.numberFirst ["SOUND"] args fun n rest =>
      match rest with
      | [] => s.takeSound n none none
      | [v] => s.takeSound n (numField v) none
      | [v, w] => s.takeSound n (numField v) (valveWordOf w)
      | _ => s.malformed ["SOUND"] args)
  | "LIMITS" => some (s.numberFirst ["LIMITS"] args fun n rest => s.takeLimits n (rest.map numField))
  | "LOCK" => some (s.noFields ["LOCK"] args s.takeLock)
  | "UNLOCK" => some (s.noFields ["UNLOCK"] args s.takeUnlock)
  | _ => none

/-- The requests of the link, the trip unit, the settings and the port (R130, R141, R149, R155, R168, R172, R173). -/
def State.systemFields (s : State) (kw : String) (args : List String) : Option State :=
  match kw with
  | "READ" => some (s.readFields args)
  | "LINKSTART" => some (s.noFields ["LINKSTART"] args s.takeLinkstart)
  | "GAUGING" =>
    some (match args with
      | ["MANUAL"] => s.takeGaugingManual
      | ["LINKED"] => s.takeGaugingLinked
      | _ => s.malformed ["GAUGING"] [])
  | "ESD" => some (s.noFields ["ESD"] args s.takeEsd)
  | "CLEAR" => some (s.clearFields args)
  | "ACK" => some (s.ackFields args)
  | "SET" => some (s.takeSet (args.map fieldOf))
  | "MASK" => some (s.takeMask args)
  | "RESTART" => some (s.noFields ["RESTART"] args s.takeRestart)
  | _ => none

/-- R162: the request that a record names, from its fields. -/
def State.takeFields (s : State) : List String → State
  | [] => s.unknownWord ""
  | kw :: args =>
    match s.lineFields kw args, s.tankFields kw args, s.systemFields kw args with
    | some t, _, _ => t
    | none, some t, _ => t
    | none, none, some t => t
    | none, none, none => s.unknownWord kw

/-! ### Ended lines (R161, R164) -/

/-- The carriage return directly before the line feed is not part of the line. -/
def dropReturn (cs : List Char) : List Char := if cs.getLast? = some '\r' then cs.dropLast else cs

/-- An ended line is answered: LONG, CHECK, or the request it names. -/
def State.answerLine (s : State) (line : EndedLine) : State :=
  if line.long then s.answer ["?", "*", "LONG"]
  else
    match checkedFields line.text.toList with
    | none => s.answer ["?", "*", "CHECK"]
    | some fields => s.takeFields fields

/-- R161: the ended line of the characters gathered. -/
def endedLine (cs : List Char) : EndedLine := { text := String.ofList (cs.take 96), long := decide (96 < cs.length) }

/-- R161, R164: a line feed arrives. The line is answered when no reply waits, held when none is held, and discarded
otherwise. -/
def State.lineFeed (s : State) (chars : String) : State :=
  let cs := dropReturn (s.port.rx ++ chars).toList
  let s' := { s with port := { s.port with rx := "" } }
  if cs = [] then s'
  else
    match s.port.waiting, s.port.held with
    | none, _ => s'.answerLine (endedLine cs)
    | some _, none => { s' with port := { s'.port with held := some (endedLine cs) } }
    | some _, some _ => s'

/-- R164: the waiting reply is sent, and the held line is taken. -/
def State.replyGone (s : State) : State :=
  match s.port.waiting with
  | none => s
  | some _ =>
    let s' := s.sendWaiting
    match s'.port.held with
    | none => s'
    | some line => ({ s' with port := { s'.port with held := none } }).answerLine line

/-- The replies that wait before a request is taken are sent, and the held line taken, in their order (R164, log 6). -/
def State.drained (s : State) : State := s.replyGone.replyGone

end Sys2Proof.Machine
end

