-- ==== Sys2Proof/Machine/LineCommands.lean ====
section
/-! DEFINITION. The requests of a line supervisor as commands. A request's command is its taking: replies that wait before
it are sent first (R164, log 6). -/

namespace Sys2Proof.Machine

/-- CONNECT (R40). -/
def execConnect (line grade : Nat) (s : State) : Host.Outcome State Fault Refusal :=
  .next (s.drained.takeConnect line grade)

/-- DISCONNECT (R41). -/
def execDisconnect (line : Nat) (s : State) : Host.Outcome State Fault Refusal := .next (s.drained.takeDisconnect line)

/-- STROKE (R42). -/
def execStroke (line : Nat) (s : State) : Host.Outcome State Fault Refusal := .next (s.drained.takeStroke line)

/-- STROKESET (R35). -/
def execStrokeset (line : Nat) (time : Option Nat) (s : State) : Host.Outcome State Fault Refusal :=
  .next (s.drained.takeStrokeset line time)

/-- PERMIT without CONFIRM (R61, R137). -/
def execPermit (line : Nat) (s : State) : Host.Outcome State Fault Refusal := .next (s.drained.takePermitQuery line)

/-- PERMIT with CONFIRM (R61). -/
def execPermitConfirm (line : Nat) (s : State) : Host.Outcome State Fault Refusal :=
  .next (s.drained.takePermitConfirm line)

/-- START (R44, R45). -/
def execStart (line : Nat) (rate : NumField) (s : State) : Host.Outcome State Fault Refusal :=
  .next (s.drained.takeStart line rate)

/-- RATE (R72, R73). -/
def execRate (line : Nat) (target : NumField) (s : State) : Host.Outcome State Fault Refusal :=
  .next (s.drained.takeRate line target)

/-- LOOP (R71). -/
def execLoop (line : Nat) (mode : Option LoopWord) (s : State) : Host.Outcome State Fault Refusal :=
  .next (s.drained.takeLoop line mode)

/-- HOLD (R51). -/
def execHold (line : Nat) (s : State) : Host.Outcome State Fault Refusal := .next (s.drained.takeHold line)

/-- RESUME (R52). -/
def execResume (line : Nat) (s : State) : Host.Outcome State Fault Refusal := .next (s.drained.takeResume line)

/-- FINISH (R53). -/
def execFinish (line : Nat) (s : State) : Host.Outcome State Fault Refusal := .next (s.drained.takeFinish line)

/-- CLEAR of a line (R58). -/
def execClear (line : Nat) (s : State) : Host.Outcome State Fault Refusal := .next (s.drained.takeClear line)

end Sys2Proof.Machine
end

