-- ==== Sys2Proof/Machine/LinkEvents.lean ====
section
/-! DEFINITION. The events of the ship link: the replies by kind (R125), the continuation, the two timeouts (R124, R125), and
the two judgements of the link state that the end of an exchange makes, taken alone (R128, R129, log 5). -/

namespace Sys2Proof.Machine

def Query.isHeader : Query → Bool
  | .header => true
  | .entry _ | .level _ | .permit _ | .advice _ _ | .alive => false

def Query.isLevel : Query → Bool
  | .level _ => true
  | .header | .entry _ | .permit _ | .advice _ _ | .alive => false

def Query.isPermit : Query → Bool
  | .permit _ => true
  | .header | .entry _ | .level _ | .advice _ _ | .alive => false

def Query.isAdvice : Query → Bool
  | .advice _ _ => true
  | .header | .entry _ | .level _ | .permit _ | .alive => false

def Query.isAlive : Query → Bool
  | .alive => true
  | .header | .entry _ | .level _ | .permit _ | .advice _ _ => false

/-- HEADER_REPLY (R125, R131). -/
def execHeaderReply (telegram : List Byte) (s : State) : Host.Outcome State Fault Refusal :=
  .next (s.takeReply Query.isHeader false telegram)

/-- ENTRY_REPLY: an ENTRY reply without MORE (R125, R131). -/
def execEntryReply (telegram : List Byte) (s : State) : Host.Outcome State Fault Refusal :=
  .next (s.takeReply Query.takesMore false telegram)

/-- ENTRY_REPLY_MORE: an ENTRY reply that carries MORE (R125). -/
def execEntryReplyMore (telegram : List Byte) (s : State) : Host.Outcome State Fault Refusal :=
  .next (s.takeReply Query.takesMore true telegram)

/-- CONTINUATION (R125). -/
def execContinuation (telegram : List Byte) (s : State) : Host.Outcome State Fault Refusal :=
  .next (s.takeContinuation telegram)

/-- CONTINUATION_TIMEOUT (R125). -/
def execContinuationTimeout (s : State) : Host.Outcome State Fault Refusal := .next s.continuationLate

/-- LEVEL_REPLY (R140). -/
def execLevelReply (telegram : List Byte) (s : State) : Host.Outcome State Fault Refusal :=
  .next (s.takeReply Query.isLevel false telegram)

/-- PERMIT_REPLY (R137). -/
def execPermitReply (telegram : List Byte) (s : State) : Host.Outcome State Fault Refusal :=
  .next (s.takeReply Query.isPermit false telegram)

/-- ADVICE_REPLY (R136). -/
def execAdviceReply (telegram : List Byte) (s : State) : Host.Outcome State Fault Refusal :=
  .next (s.takeReply Query.isAdvice false telegram)

/-- ALIVE_REPLY (R135). -/
def execAliveReply (telegram : List Byte) (s : State) : Host.Outcome State Fault Refusal :=
  .next (s.takeReply Query.isAlive false telegram)

/-- REPLY_WINDOW_EXPIRED (R124). -/
def execReplyWindowExpired (s : State) : Host.Outcome State Fault Refusal := .next s.windowOut

/-- LINK_LOST (R128, R129). -/
def execLinkLost (s : State) : Host.Outcome State Fault Refusal := .next s.judgeLost

/-- LINK_RECOVERED (R128, R129). -/
def execLinkRecovered (s : State) : Host.Outcome State Fault Refusal := .next s.judgeRecovered

end Sys2Proof.Machine
end

