-- ==== Sys2Proof/Machine/PortEvents.lean ====
section
/-! DEFINITION. The events of the console line: a line that ends (R161, R162, R164), a reply sent (R164), a notice sent
(R165). -/

namespace Sys2Proof.Machine

/-- RECORD_REJECTED (R161, R162): a line feed has arrived after these characters. -/
def execRecordRejected (chars : String) (s : State) : Host.Outcome State Fault Refusal := .next (s.lineFeed chars)

/-- HELD_LINE (R164): a line feed has arrived after these characters, with a reply perhaps waiting (log 7). -/
def execHeldLine (chars : String) (s : State) : Host.Outcome State Fault Refusal := .next (s.lineFeed chars)

/-- REPLY_SENT (R164). -/
def execReplySent (s : State) : Host.Outcome State Fault Refusal := .next s.replyGone

/-- NOTICE_SENT (R165 to R167). -/
def execNoticeSent (s : State) : Host.Outcome State Fault Refusal := .next s.sendNotice

end Sys2Proof.Machine
end

