-- ==== Sys2Proof/Machine/SampleEvents.lean ====
section
/-! DEFINITION. The sample event (R2), and the rows of the table that come about inside a sample event. Taken alone, each of
those rows is the judgement that the sample event itself makes, by what the latest sample event took up (log 3, log 54). -/

namespace Sys2Proof.Machine

/-- SAMPLE_EVENT (R2). -/
def execSampleEvent (line : LineId) (sample : Sample) (s : State) : Host.Outcome State Fault Refusal :=
  .next (s.sampleEvent line sample)

/-- SENSOR_FAULT (R4). -/
def execSensorFault (line : LineId) (s : State) : Host.Outcome State Fault Refusal := .next (s.judgeSensorFault line)

/-- OVERPRESSURE (R8). -/
def execOverpressure (line : LineId) (s : State) : Host.Outcome State Fault Refusal := .next (s.judgeOverpressure line)

/-- STRETCH_WARN_CLEAR (R11). -/
def execStretchWarnClear (line : LineId) (s : State) : Host.Outcome State Fault Refusal :=
  .next (s.judgeStretchClear line)

/-- STRETCH_TRIP (R12). -/
def execStretchTrip (line : LineId) (s : State) : Host.Outcome State Fault Refusal := .next (s.judgeStretchTrip line)

/-- ENTER_STEADY (R13). -/
def execEnterSteady (line : LineId) (s : State) : Host.Outcome State Fault Refusal := .next (s.judgeSteady line)

/-- FLOW_UNSTEADY (R14). -/
def execFlowUnsteady (line : LineId) (s : State) : Host.Outcome State Fault Refusal := .next (s.judgeUnsteady line)

/-- TRACKING_CHECK_FAIL (R29). -/
def execTrackingCheckFail (line : LineId) (s : State) : Host.Outcome State Fault Refusal := .next (s.judgeTracking line)

/-- OPEN_TIMEOUT (R31). -/
def execOpenTimeout (line : LineId) (s : State) : Host.Outcome State Fault Refusal := .next (s.judgeOpenTimeout line)

/-- SETTLE_END (R31). -/
def execSettleEnd (line : LineId) (s : State) : Host.Outcome State Fault Refusal := .next (s.judgeSettleEnd line)

/-- CLOSE_TIMEOUT (R32). -/
def execCloseTimeout (line : LineId) (s : State) : Host.Outcome State Fault Refusal := .next (s.judgeCloseTimeout line)

/-- TAKEOVER (R70). -/
def execTakeover (line : LineId) (s : State) : Host.Outcome State Fault Refusal := .next (s.judgeTakeover line)

end Sys2Proof.Machine
end

