-- ==== Sys2Proof/Machine/SystemCommands.lean ====
section
/-! DEFINITION. The requests of the link, the trip unit, the settings, the store and the port as commands, and the READ
requests (R164, log 6). -/

namespace Sys2Proof.Machine

/-- LINKSTART (R130). -/
def execLinkstart (s : State) : Host.Outcome State Fault Refusal := .next s.drained.takeLinkstart

/-- GAUGING MANUAL (R141). -/
def execGaugingManual (s : State) : Host.Outcome State Fault Refusal := .next s.drained.takeGaugingManual

/-- GAUGING LINKED (R141). -/
def execGaugingLinked (s : State) : Host.Outcome State Fault Refusal := .next s.drained.takeGaugingLinked

/-- ESD (R149). -/
def execEsd (s : State) : Host.Outcome State Fault Refusal := .next s.drained.takeEsd

/-- CLEAR ALL (R59, R150). -/
def execClearAll (s : State) : Host.Outcome State Fault Refusal := .next s.drained.takeClearAll

/-- ACK (R155). -/
def execAck (objects : Option (List ObjectWord)) (kinds : Option (List (Option AlarmKind))) (s : State) :
    Host.Outcome State Fault Refusal :=
  .next (s.drained.takeAck objects kinds)

/-- SET (R172). -/
def execSet (fields : List Field) (s : State) : Host.Outcome State Fault Refusal := .next (s.drained.takeSet fields)

/-- LIMITS (R178). -/
def execLimits (line : Nat) (values : List NumField) (s : State) : Host.Outcome State Fault Refusal :=
  .next (s.drained.takeLimits line values)

/-- LOCK (R177). -/
def execLock (s : State) : Host.Outcome State Fault Refusal := .next s.drained.takeLock

/-- UNLOCK (R177). -/
def execUnlock (s : State) : Host.Outcome State Fault Refusal := .next s.drained.takeUnlock

/-- MASK (R168). -/
def execMask (fields : List String) (s : State) : Host.Outcome State Fault Refusal := .next (s.drained.takeMask fields)

/-- RESTART (R173). -/
def execRestart (s : State) : Host.Outcome State Fault Refusal := .next s.drained.takeRestart

/-- READ STATUS (R171). -/
def execReadStatus (s : State) : Host.Outcome State Fault Refusal := .next s.drained.takeReadStatus

/-- READ LINE (R169). -/
def execReadLine (line : Nat) (s : State) : Host.Outcome State Fault Refusal := .next (s.drained.takeReadLine line)

/-- READ TANK (R170). -/
def execReadTank (tank : Nat) (s : State) : Host.Outcome State Fault Refusal := .next (s.drained.takeReadTank tank)

/-- READ TANKS (R170). -/
def execReadTanks (s : State) : Host.Outcome State Fault Refusal := .next s.drained.takeReadTanks

/-- READ SET (R171). -/
def execReadSet (s : State) : Host.Outcome State Fault Refusal := .next s.drained.takeReadSet

/-- READ LIMITS (R171, R175). -/
def execReadLimits (line : Nat) (s : State) : Host.Outcome State Fault Refusal := .next (s.drained.takeReadLimits line)

end Sys2Proof.Machine
end

