-- ==== Sys2Proof/Machine/TankCommands.lean ====
section
/-! DEFINITION. The requests of the tank watch as commands (R164, log 6). -/

namespace Sys2Proof.Machine

/-- ASSIGN (R90, R91). -/
def execAssign (line : Nat) (tanks : List NumField) (s : State) : Host.Outcome State Fault Refusal :=
  .next (s.drained.takeAssign line tanks)

/-- RELEASE (R92). -/
def execRelease (line : Nat) (tanks : TankWords) (s : State) : Host.Outcome State Fault Refusal :=
  .next (s.drained.takeRelease line tanks)

/-- FILL (R81). -/
def execFill (tank : Nat) (limit : NumField) (s : State) : Host.Outcome State Fault Refusal :=
  .next (s.drained.takeFill tank limit)

/-- SOUND (R89). -/
def execSound (tank : Nat) (volume : NumField) (valve : Option ValveWord) (s : State) :
    Host.Outcome State Fault Refusal :=
  .next (s.drained.takeSound tank volume valve)

/-- CLEAR TANK (R108). -/
def execClearTank (tank : Nat) (s : State) : Host.Outcome State Fault Refusal := .next (s.drained.takeClearTank tank)

end Sys2Proof.Machine
end

