-- ==== Sys2Proof/Machine/TimeEvents.lean ====
section
/-! DEFINITION. The events of the field lines and of time: the loop readings and the key (R145, R146, R177), the change-over
timer (R93), the end of a write (R180), the resets and the end of start-up (R182, R183), and one ds of the part clock
(R184, log 1). -/

namespace Sys2Proof.Machine

/-- LOOP_READING_CHANGE (R145). -/
def execLoopReadingChange (reading : Contact) (s : State) : Host.Outcome State Fault Refusal :=
  .next (s.setLoopReading reading)

/-- FAR_LOOP_READING_CHANGE (R146). -/
def execFarLoopReadingChange (reading : Contact) (s : State) : Host.Outcome State Fault Refusal :=
  .next (s.setFarReading reading)

/-- KEY_INPUT_CHANGE (R177). -/
def execKeyInputChange (on : Bool) (s : State) : Host.Outcome State Fault Refusal := .next (s.setKey on)

/-! ### One ds (R184) -/

/-- R182: start-up ends when the clock has reached 20 ds. -/
def State.judgeStartup (s : State) : State :=
  match s.phase with
  | .starting => if 20 ≤ s.clock then s.endStartup else s
  | .running => s

/-- R179: a write ends when 4 ds have passed since it was taken. -/
def State.judgeWrite (s : State) : State :=
  match s.store.write with
  | some w => if w.since + 4 ≤ s.clock then s.endWrite w else s
  | none => s

/-- One ds of the part clock, and what falls due with it: the end of start-up, of a write, of change-over timers. -/
def State.tick (s : State) : State :=
  allTanks.foldl State.judgeChange ((s.nextDs.judgeStartup).judgeWrite)

/-- As many ds of the part clock, each with what falls due at it. -/
def State.ticks (s : State) : Nat → State
  | 0 => s
  | n + 1 => (s.ticks n).tick

/-- The part clock runs until it has reached a moment (log 4). -/
def State.passTo (s : State) (moment : Nat) : State := s.ticks (moment - s.clock)

/-! ### Events that time brings -/

/-- The change-over timer of a tank, while it is still to expire (R93). -/
def State.runningTimer (s : State) (t : TankId) : Option ChangeTimer :=
  ((s.tank t).bind (·.timer)).filter fun c => c.expired.isNone

/-- R93: a running change-over timer expires, time having passed up to its timeout (log 4). -/
def State.changeLate (s : State) (t : TankId) : State :=
  match s.runningTimer t with
  | some c => (s.passTo (c.since + s.settings.changeover)).judgeChange t
  | none => s

/-- CHANGEOVER_LATE (R93). -/
def execChangeoverLate (tank : TankId) (s : State) : Host.Outcome State Fault Refusal := .next (s.changeLate tank)

/-- R179, R180: the write in flight ends, time having passed up to 4 ds after it was taken (log 4). -/
def State.writeDone (s : State) : State :=
  match s.store.write with
  | some w => (s.passTo (w.since + 4)).judgeWrite
  | none => s

/-- LIMITS_WRITE_END (R180). -/
def execLimitsWriteEnd (s : State) : Host.Outcome State Fault Refusal := .next s.writeDone

/-- POWER_ON (R183). -/
def execPowerOn (loop far : Contact) (s : State) : Host.Outcome State Fault Refusal := .next (s.hardReset loop far)

/-- RESET_INPUT (R183). -/
def execResetInput (loop far : Contact) (s : State) : Host.Outcome State Fault Refusal := .next (s.hardReset loop far)

/-- R182: start-up ends, time having passed up to 20 ds (log 4). -/
def State.startupDone (s : State) : State :=
  match s.phase with
  | .starting => (s.passTo 20).judgeStartup
  | .running => s

/-- STARTUP_END (R182). -/
def execStartupEnd (s : State) : Host.Outcome State Fault Refusal := .next s.startupDone

end Sys2Proof.Machine
end

