-- ==== Sys2Proof/Machine/Dispatch.lean ====
section
/-! DEFINITION. The dispatch: one arm per command, each one direct call of its meaning. -/

namespace Sys2Proof.Machine

def exec (i : Instr) (s : State) : Host.Outcome State Fault Refusal :=
  match i with
  | .sampleEvent line sample => Sys2Proof.Machine.execSampleEvent line sample s
  | .sensorFault line => Sys2Proof.Machine.execSensorFault line s
  | .overpressure line => Sys2Proof.Machine.execOverpressure line s
  | .stretchWarnClear line => Sys2Proof.Machine.execStretchWarnClear line s
  | .stretchTrip line => Sys2Proof.Machine.execStretchTrip line s
  | .enterSteady line => Sys2Proof.Machine.execEnterSteady line s
  | .flowUnsteady line => Sys2Proof.Machine.execFlowUnsteady line s
  | .trackingCheckFail line => Sys2Proof.Machine.execTrackingCheckFail line s
  | .openTimeout line => Sys2Proof.Machine.execOpenTimeout line s
  | .settleEnd line => Sys2Proof.Machine.execSettleEnd line s
  | .closeTimeout line => Sys2Proof.Machine.execCloseTimeout line s
  | .takeover line => Sys2Proof.Machine.execTakeover line s
  | .connect line grade => Sys2Proof.Machine.execConnect line grade s
  | .disconnect line => Sys2Proof.Machine.execDisconnect line s
  | .stroke line => Sys2Proof.Machine.execStroke line s
  | .strokeset line time => Sys2Proof.Machine.execStrokeset line time s
  | .permit line => Sys2Proof.Machine.execPermit line s
  | .permitConfirm line => Sys2Proof.Machine.execPermitConfirm line s
  | .start line rate => Sys2Proof.Machine.execStart line rate s
  | .rate line target => Sys2Proof.Machine.execRate line target s
  | .loop line mode => Sys2Proof.Machine.execLoop line mode s
  | .hold line => Sys2Proof.Machine.execHold line s
  | .resume line => Sys2Proof.Machine.execResume line s
  | .finish line => Sys2Proof.Machine.execFinish line s
  | .assign line tanks => Sys2Proof.Machine.execAssign line tanks s
  | .release line tanks => Sys2Proof.Machine.execRelease line tanks s
  | .fill tank limit => Sys2Proof.Machine.execFill tank limit s
  | .sound tank volume valve => Sys2Proof.Machine.execSound tank volume valve s
  | .linkstart => Sys2Proof.Machine.execLinkstart s
  | .gaugingManual => Sys2Proof.Machine.execGaugingManual s
  | .gaugingLinked => Sys2Proof.Machine.execGaugingLinked s
  | .esd => Sys2Proof.Machine.execEsd s
  | .clear line => Sys2Proof.Machine.execClear line s
  | .clearAll => Sys2Proof.Machine.execClearAll s
  | .clearTank tank => Sys2Proof.Machine.execClearTank tank s
  | .ack objects kinds => Sys2Proof.Machine.execAck objects kinds s
  | .set fields => Sys2Proof.Machine.execSet fields s
  | .limits line values => Sys2Proof.Machine.execLimits line values s
  | .lock => Sys2Proof.Machine.execLock s
  | .unlock => Sys2Proof.Machine.execUnlock s
  | .mask fields => Sys2Proof.Machine.execMask fields s
  | .restart => Sys2Proof.Machine.execRestart s
  | .readStatus => Sys2Proof.Machine.execReadStatus s
  | .readLine line => Sys2Proof.Machine.execReadLine line s
  | .readTank tank => Sys2Proof.Machine.execReadTank tank s
  | .readTanks => Sys2Proof.Machine.execReadTanks s
  | .readSet => Sys2Proof.Machine.execReadSet s
  | .readLimits line => Sys2Proof.Machine.execReadLimits line s
  | .recordRejected chars => Sys2Proof.Machine.execRecordRejected chars s
  | .replySent => Sys2Proof.Machine.execReplySent s
  | .noticeSent => Sys2Proof.Machine.execNoticeSent s
  | .headerReply telegram => Sys2Proof.Machine.execHeaderReply telegram s
  | .entryReply telegram => Sys2Proof.Machine.execEntryReply telegram s
  | .continuation telegram => Sys2Proof.Machine.execContinuation telegram s
  | .continuationTimeout => Sys2Proof.Machine.execContinuationTimeout s
  | .levelReply telegram => Sys2Proof.Machine.execLevelReply telegram s
  | .permitReply telegram => Sys2Proof.Machine.execPermitReply telegram s
  | .adviceReply telegram => Sys2Proof.Machine.execAdviceReply telegram s
  | .aliveReply telegram => Sys2Proof.Machine.execAliveReply telegram s
  | .replyWindowExpired => Sys2Proof.Machine.execReplyWindowExpired s
  | .linkLost => Sys2Proof.Machine.execLinkLost s
  | .linkRecovered => Sys2Proof.Machine.execLinkRecovered s
  | .loopReadingChange reading => Sys2Proof.Machine.execLoopReadingChange reading s
  | .farLoopReadingChange reading => Sys2Proof.Machine.execFarLoopReadingChange reading s
  | .keyInputChange on => Sys2Proof.Machine.execKeyInputChange on s
  | .changeoverLate tank => Sys2Proof.Machine.execChangeoverLate tank s
  | .limitsWriteEnd => Sys2Proof.Machine.execLimitsWriteEnd s
  | .powerOn loop far => Sys2Proof.Machine.execPowerOn loop far s
  | .resetInput loop far => Sys2Proof.Machine.execResetInput loop far s
  | .startupEnd => Sys2Proof.Machine.execStartupEnd s
  | .heldLine chars => Sys2Proof.Machine.execHeldLine chars s
  | .entryReplyMore telegram => Sys2Proof.Machine.execEntryReplyMore telegram s

end Sys2Proof.Machine
end

