-- ==== Sys2Proof/Safety.lean ====
section
/-! DEFINITION. What counts as a safe state of the part, in the terms its statements use: the invariants that the rules
state of every moment, the ways a command may leave the rest of the part alone, and which commands are requests. -/

namespace Sys2Proof.Machine

/-! ### Invariants -/

/-- R62: on every line the pump-permit relay is on exactly while its four conditions hold. -/
abbrev PumpsFollow (s : State) : Prop := ∀ l, (s.seq l).pump = pumpPermit (s.seq l) s.esd.loop

/-- R156: the horn is on exactly while an entry is unacknowledged. -/
abbrev HornFollows (s : State) : Prop := s.horn = s.alarms.any fun a => !a.acked

/-- R152: no two alarm entries have the same kind and object. -/
abbrev AlarmsDistinct (s : State) : Prop := (s.alarms.map fun a => (a.kind, a.object)).Nodup

/-- R154: an acknowledged entry whose condition is gone has left the set. -/
abbrev AlarmsLive (s : State) : Prop := ∀ a ∈ s.alarms, a.acked = true → a.present = true

/-- R165: each pair at most once, and no pair of a kind that is off in the mask. -/
abbrev NoticesSound (s : State) : Prop := s.notices.Nodup ∧ ∀ n ∈ s.notices, n.allowed s.port.mask = true

/-- R47: a line holds hold causes only in HOLDING, HELD and FINISHING. -/
abbrev HoldsPlaced (s : State) : Prop :=
  ∀ l, (s.seq l).holds ≠ [] →
    (s.seq l).state = .holding ∨ (s.seq l).state = .held ∨ (s.seq l).state = .finishing

/-- R55 to R58: a line holds trip causes only in TRIPPING and TRIPPED. -/
abbrev TripsPlaced (s : State) : Prop :=
  ∀ l, (s.seq l).trips ≠ [] → (s.seq l).state = .tripping ∨ (s.seq l).state = .tripped

/-- The line states in which a ship permit is held (R60). -/
def LineState.mayHoldPermit : LineState → Bool
  | .connected | .opening | .delivering | .holding | .held | .finishing => true
  | .disconnected | .stroking | .tripping | .tripped => false

/-- R60: a line holds a ship permit only in those states. -/
abbrev PermitsPlaced (s : State) : Prop := ∀ l, (s.seq l).permit = true → (s.seq l).state.mayHoldPermit = true

/-- R21: drive-enable is on in every line state except DISCONNECTED. -/
abbrev DrivesEnabled (s : State) : Prop :=
  ∀ l, (s.drive l).enabled = !decide ((s.seq l).state = .disconnected)

/-- R82: at most six tanks in a lineup. -/
abbrev LineupsBounded (s : State) : Prop := ∀ l, (s.lineup l).length ≤ 6

/-- R82: a tank stands in a line's lineup exactly while its record names that line, once, and it is lined up exactly while
it is watched. -/
abbrev LineupsSound (s : State) : Prop :=
  (∀ l k, k ∈ s.lineup l ↔ s.tankLine k = some l)
    ∧ (∀ k r, s.tank k = some r → r.line.isSome = r.state.watched) ∧ ∀ l, (s.lineup l).Nodup

/-- R82: the grade of each tank of a lineup is the grade of its line. -/
abbrev LineupsGraded (s : State) : Prop :=
  ∀ l, ∀ k ∈ s.lineup l, ∀ r, s.tank k = some r → (s.seq l).grade = some r.grade

/-- R41, R94: a DISCONNECTED line has an empty lineup. -/
abbrev LineupsClosed (s : State) : Prop := ∀ l, (s.seq l).state = .disconnected → s.lineup l = []

/-- R39: the setpoint of a line is 0, and no ramp is in flight, in the five states in which the valve rests. A stroke test that
closes the valve (R31) has its setpoint at 0 too, so that its line returns to CONNECTED with it (R32). -/
abbrev RestDrives (s : State) : Prop :=
  ∀ l, (s.seq l).state ∈ [.disconnected, .connected, .held, .tripping, .tripped]
      ∨ (s.seq l).state = .stroking ∧ (s.drive l).stage = some .closeMove →
    (s.drive l).setpoint = 0 ∧ (s.drive l).ramp = none

/-- R15, R69: outside DELIVERING the steady flag is off, and its two runs and the takeover runs stand at 0. -/
abbrev QuietOutsideDelivering (s : State) : Prop :=
  ∀ l, (s.seq l).state ≠ .delivering →
    (s.meas l).steady = false ∧ (s.meas l).inRun = 0 ∧ (s.meas l).outRun = 0
      ∧ (s.rate l).surgeRun = 0 ∧ (s.rate l).maxRun = 0

/-- R175: the fields of a record in their order, each with its value, its least and its greatest value. -/
def limitFields (x : Limits) : List (String × Nat × Nat × Nat) :=
  [("PRATED", x.pRated, 300, 2500), ("QMAX", x.qMax, 500, 20000), ("K", x.k, 100, 20000), ("VD", x.vd, 0, 5000),
   ("F", x.f, 10, 10000), ("WRUN", x.warnRun, 1, 3000), ("WSETTLE", x.warnSettle, 1, 3000), ("STRIP", x.tripLimit, 1, 3000),
   ("TMIN", x.tMin, 20, 600), ("TMAX", x.tMax, 100, 1800), ("SOPEN", x.startOpening, 50, 500),
   ("LSTEP", x.loopStep, 1, 20), ("QTOP", x.qTop, 100, x.qMax), ("QCAP", x.qCap, 100, x.qMax)]

/-- A field lies within its range. -/
abbrev FieldWithin (f : String × Nat × Nat × Nat) : Prop := f.2.2.1 ≤ f.2.1 ∧ f.2.1 ≤ f.2.2.2

/-- R175: the relations of a record in their order: whether each holds, and its two fields. -/
def limitPairs (x : Limits) : List (Bool × String × String) :=
  [(decide (x.warnRun < x.warnSettle), "WRUN", "WSETTLE"), (decide (x.warnSettle < x.tripLimit), "WSETTLE", "STRIP"),
   (decide (x.tMin ≤ x.tMax), "TMIN", "TMAX"), (decide (x.qTop ≤ x.qMax), "QTOP", "QMAX"),
   (decide (x.qCap ≤ x.qMax), "QCAP", "QMAX")]

/-- R175: a record obeys every range and relation. -/
abbrev LimitsSound (x : Limits) : Prop := (∀ f ∈ limitFields x, FieldWithin f) ∧ ∀ p ∈ limitPairs x, p.1 = true

/-- R175: every record in force, and the record of a write in flight, obeys the ranges and relations. -/
abbrev RecordsObey (s : State) : Prop :=
  (∀ l x, s.limits l = some x → LimitsSound x) ∧ ∀ w, s.store.write = some w → LimitsSound w.record

/-- R178, R44: a line whose record is being written is in no state in which target_eff is formed. -/
abbrev WritesAtRest (s : State) : Prop :=
  ∀ w, s.store.write = some w → (s.seq w.line).state ∉ [.opening, .delivering, .holding, .held, .finishing]

/-- R63, R96: the topping throttle of a line is on exactly while a tank of its lineup is TOPPING. -/
abbrev ThrottleFollows (s : State) : Prop := ∀ l, (s.rate l).throttle = decide (0 < s.countIn l .topping)

/-- R64: target_eff is absent outside the states in which it is formed. Where it is present it is at least 25 and exceeds
none of: the console rate target, the max flow, Q_surge, the topping rate while the throttle is on, the manual cap in MANUAL
gauging. The least values of its terms (R17, R44) are part of it. -/
abbrev TargetsBounded (s : State) : Prop :=
  (∀ l, (s.seq l).state ∉ [.opening, .delivering, .holding, .held, .finishing] →
      (s.rate l).eff = none ∧ (s.rate l).governing = none)
    ∧ (∀ l, (s.seq l).state ∈ [.opening, .delivering, .holding, .held, .finishing] → 100 ≤ (s.rate l).target)
    ∧ (∀ l p, (s.rate l).pendingTarget = some p → 100 ≤ p) ∧ (∀ l q, (s.meas l).qSurge = some q → 25 ≤ q)
    ∧ ∀ l e, (s.rate l).eff = some e → ∃ lim, s.limits l = some lim ∧ 25 ≤ e ∧ e ≤ (s.rate l).target ∧ e ≤ lim.qMax
        ∧ (∀ q, (s.meas l).qSurge = some q → e ≤ q) ∧ ((s.rate l).throttle = true → e ≤ lim.qTop)
        ∧ (s.link.gauging = .manual → e ≤ lim.qCap)

/-- R172: every transfer setting lies within its range. -/
abbrev SettingsInRange (s : State) : Prop :=
  let x := s.settings
  (600 ≤ x.ttop ∧ x.ttop ≤ 18000) ∧ x.treact ≤ 100 ∧ (50 ≤ x.stalel ∧ x.stalel ≤ 600)
    ∧ (600 ≤ x.stalem ∧ x.stalem ≤ 6000) ∧ x.window ≤ 3 ∧ (x.estw = 4 ∨ x.estw = 8)
    ∧ (300 ≤ x.changeover ∧ x.changeover ≤ 6000) ∧ (3 ≤ x.linkloss ∧ x.linkloss ≤ 30)
    ∧ (20 ≤ x.band ∧ x.band ≤ 200) ∧ (5 ≤ x.steadyn ∧ x.steadyn ≤ 250)

/-- R123, R136 to R139: the ranges of the link controller's counts, and its queues hold each member once. -/
abbrev LinkBounded (s : State) : Prop :=
  let k := s.link
  k.window.length ≤ 32 ∧ k.failRun ≤ 255 ∧ k.succRun ≤ 3 ∧ k.spacing ≤ 15 ∧ k.polls ≤ 8 ∧ k.advices.length ≤ 16
    ∧ k.advices.Nodup ∧ k.queries.Nodup ∧ k.poll.Nodup

/-- R138: the poll queue holds exactly the tanks that have a record. `LinkBounded` says that it holds each once. -/
abbrev PollFollows (s : State) : Prop := ∀ k, k ∈ s.link.poll ↔ s.tank k ≠ none

/-- R144: each tank in OVERFILL is on the overfill list and in the device set, and the contact is open while the device set
holds a member other than ESD_IN; during start-up no line is connected, no tank is known, nothing is in flight on the ship
link and the set holds no such member (R182). -/
abbrev OverfillGuarded (s : State) : Prop :=
  (∀ t, s.tankState t = some .overfill → t ∈ s.overfills) ∧ (∀ t ∈ s.overfills, DeviceTrip.overfill t ∈ s.device)
    ∧ ((∃ d ∈ s.device, d ≠ .esdIn) → s.esd.contact = .opened)
    ∧ (s.phase = .starting →
        (∀ l, (s.seq l).state = .disconnected) ∧ (∀ t, s.tank t = none) ∧ s.link.state = .down
          ∧ s.link.exchange = none ∧ ∀ d ∈ s.device, d = .esdIn)

/-! ### Frames -/

/-- Every other line is as it was, with its lineup. -/
abbrev OnlyLine (s t : State) (l : LineId) : Prop :=
  ∀ k, k ≠ l → t.seq k = s.seq k ∧ t.rate k = s.rate k ∧ t.meas k = s.meas k ∧ t.drive k = s.drive k
    ∧ t.lineup k = s.lineup k

/-- Every other tank is as it was. -/
abbrev OnlyTank (s t : State) (x : TankId) : Prop := ∀ y, y ≠ x → t.tank y = s.tank y

/-- The queue, the clock, the start-up phase, the key, the transfer settings and the limits store are as they were. -/
abbrev KeepsBase (s t : State) : Prop :=
  t.pending = s.pending ∧ t.clock = s.clock ∧ t.phase = s.phase ∧ t.key = s.key ∧ t.settings = s.settings
    ∧ t.store = s.store

/-- The contact, the loop readings, the device set and the overfill list are as they were. -/
abbrev KeepsTrips (s t : State) : Prop :=
  t.esd = s.esd ∧ t.device = s.device ∧ t.overfills = s.overfills

/-- The pending set after a pair has become pending (R165). -/
def noticesWith (s : State) (n : Notice) : List Notice :=
  if n ∈ s.notices ∨ n.allowed s.port.mask = false then s.notices else s.notices ++ [n]

/-- The port with a reply waiting (R164). -/
def replied (s : State) (fields : List String) : Port := { s.port with waiting := some fields }

/-! ### What an event leaves -/

/-- An entry of the kind and object stands in the alarm set with its condition present (R152). -/
def AlarmPresent (s : State) (k : AlarmKind) (o : AlarmObject) : Prop :=
  ∃ a ∈ s.alarms, a.kind = k ∧ a.object = o ∧ a.present = true

/-- R22, R34, R56: a drive after CUT, and after ABANDON before it from STROKING. `last` is the last valid position then. -/
def cutDrive (st : LineState) (d : Drive) (last : Option Nat) : Drive :=
  let stroking := decide (st = .stroking)
  { d with
    setpoint := 0, ramp := none, track := 0, lastPos := last
    stage := if stroking then none else d.stage
    stageTimer := if stroking then none else d.stageTimer
    strokeTimer := if stroking then none else d.strokeTimer
    lastStroke := if stroking then some .abandoned else d.lastStroke }

/-- R76: rate-control state after the entry to TRIPPING from a state. -/
def trippedRate (st : LineState) (r : Rate) : Rate :=
  { r with
    eff := none, governing := none, pendingTarget := none
    surgeRun := if st = .delivering then 0 else r.surgeRun
    maxRun := if st = .delivering then 0 else r.maxRun }

/-- R14, R34, R55, R56, R76: a line after a trip cause has taken it into TRIPPING, with everything of it that changes. A line
that leaves DELIVERING leaves steady, with its FLOW_UNSTEADY condition gone, and an abandoned stroke test is reported. `last`
is the last valid position of its drive then. -/
def LineTrips (s t : State) (l : LineId) (c : TripCause) (last : Option Nat) : Prop :=
  t.seq l = { s.seq l with state := .tripping, trips := setInsert TripCause.all c (s.seq l).trips, permit := false,
                           holds := [], pump := false }
    ∧ t.drive l = cutDrive (s.seq l).state (s.drive l) last
    ∧ t.rate l = trippedRate (s.seq l).state (s.rate l)
    ∧ t.meas l = (if (s.seq l).state = .delivering then { s.meas l with steady := false, inRun := 0, outRun := 0 }
        else s.meas l)
    ∧ ((s.seq l).state = .delivering → AlarmsDistinct s → ¬ AlarmPresent t .flowUnsteady (.line l))
    ∧ ((s.seq l).state = .stroking → NoticeKind.done ∈ s.port.mask → Notice.doneStroke l ∈ t.notices)
    ∧ (NoticeKind.line ∈ s.port.mask → Notice.line l ∈ t.notices) ∧ AlarmPresent t c.alarm (.line l)

/-- R55, R56: a trip of one line. Its lineup and the other lines are as they were. -/
def TrippingBy (s t : State) (l : LineId) (c : TripCause) (last : Option Nat) : Prop :=
  LineTrips s t l c last ∧ OnlyLine s t l ∧ t.lineup l = s.lineup l

/-- R57: a trip cause that has joined the set of a line in TRIPPING or TRIPPED, whose state stays. -/
def CauseAdded (s t : State) (l : LineId) (c : TripCause) : Prop :=
  t.seq l = { s.seq l with trips := setInsert TripCause.all c (s.seq l).trips, pump := false }
    ∧ t.drive l = s.drive l ∧ t.rate l = s.rate l ∧ t.meas l = s.meas l ∧ AlarmPresent t c.alarm (.line l)

/-- R14, R76: a line that has left DELIVERING is out of steady, with its FLOW_UNSTEADY condition gone and its takeover runs at
0; one that was in another state keeps its measurement and rate-control state. The pending target is not judged. -/
def LeftDelivering (s t : State) (l : LineId) : Prop :=
  ((s.seq l).state = .delivering →
      t.meas l = { s.meas l with steady := false, inRun := 0, outRun := 0 }
      ∧ t.rate l = { s.rate l with surgeRun := 0, maxRun := 0, pendingTarget := (t.rate l).pendingTarget }
      ∧ (AlarmsDistinct s → ¬ AlarmPresent t .flowUnsteady (.line l))
      ∧ ((s.meas l).steady = true → NoticeKind.line ∈ s.port.mask → Notice.line l ∈ t.notices))
    ∧ ((s.seq l).state ≠ .delivering → t.meas l = s.meas l
        ∧ t.rate l = { s.rate l with pendingTarget := (t.rate l).pendingTarget })

/-- R47, R48, R14, R76: a line in OPENING or DELIVERING that a hold cause has taken into HOLDING: the cause stands, the valve
closes on its profile over a T_close computed afresh (the stored one is kept: log 46), and a line that leaves DELIVERING ends
what `LeftDelivering` says. The pending target is kept. -/
def HeldOnProfile (c : HoldCause) (s t : State) (l : LineId) : Prop :=
  (t.seq l).state = .holding ∧ c ∈ (t.seq l).holds ∧ (t.seq l).pump = pumpPermit (t.seq l) s.esd.loop
    ∧ t.drive l = ((s.drive l).rampTo 0 (s.freshTClose l)).trackFrom0
    ∧ (t.rate l).pendingTarget = (s.rate l).pendingTarget ∧ LeftDelivering s t l

/-- R47, R48: a hold cause handed to a line, in every line state. Only a line that it takes into HOLDING has its drive, its rates
and its measurements changed, and no other hold cause joins or leaves. -/
def HoldHanded (c : HoldCause) (s t : State) (l : LineId) : Prop :=
  let begins : Prop := (s.seq l).state ∈ [.opening, .delivering] ∧ c ∉ (s.seq l).holds
  (begins → HeldOnProfile c s t l)
    ∧ (¬ begins → (t.seq l).state = (s.seq l).state ∧ t.drive l = s.drive l ∧ t.rate l = s.rate l ∧ t.meas l = s.meas l)
    ∧ ((s.seq l).state ∈ [.opening, .delivering, .holding, .held] → c ∈ (t.seq l).holds)
    ∧ ((s.seq l).state ∉ [.opening, .delivering, .holding, .held] → (t.seq l).holds = (s.seq l).holds)
    ∧ (∀ d, d ≠ c → (d ∈ (t.seq l).holds ↔ d ∈ (s.seq l).holds))
    ∧ (t.seq l).grade = (s.seq l).grade ∧ (t.seq l).trips = (s.seq l).trips

/-- R64, R65, R14: target_eff formed in a gauging mode from the rate-control state `r`: the rate-control state `r'` and the
measurement state `m` that follow. A changed target_eff ends steady in DELIVERING, and outside the states in which target_eff is
formed nothing changes. -/
def TargetFormed (g : Gauging) (s : State) (l : LineId) (r r' : Rate) (m : Meas) : Prop :=
  ((s.seq l).state ∉ [.opening, .delivering, .holding, .held, .finishing] → r' = r ∧ m = s.meas l)
    ∧ ((s.seq l).state ∈ [.opening, .delivering, .holding, .held, .finishing] → ∀ lim, s.limits l = some lim →
        let least := leastTerm (targetTerms r lim (s.surgeTerm l) g)
        r' = { r with eff := least.map (·.1), governing := least.map (·.2) }
        ∧ m = (if (s.seq l).state = .delivering ∧ r.eff ≠ least.map (·.1) then
            { s.meas l with steady := false, inRun := 0, outRun := 0 } else s.meas l))

/-- R63, R96: the rate-control state of a line whose throttle follows the count of TOPPING tanks in `t`. -/
def throttledBy (s t : State) (l : LineId) : Rate := { s.rate l with throttle := decide (0 < t.countIn l .topping) }

/-- R96, R65, R14: a line that has been told of its count of TOPPING tanks after a departure: the throttle follows the count,
target_eff is formed in the states in which it is formed, and a changed target_eff ends steady in DELIVERING. Nothing
else of its rate-control and measurement state changes, and no other line does. -/
def ToldOfTopping (s t : State) (l : LineId) : Prop :=
  TargetFormed s.link.gauging s l (throttledBy s t l) (t.rate l) (t.meas l) ∧ OnlyLine s t l

/-- R96, R70, R112: a line that has been told of a tank that enters TOPPING: as after a departure, and a FREEZE or SET loop is then
taken over in every line state. -/
def ToldOfEntry (s t : State) (l : LineId) : Prop :=
  (∃ formed : Rate, TargetFormed s.link.gauging s l (throttledBy s t l) formed (t.meas l)
      ∧ t.rate l = (if formed.mode = .auto then formed else
          { formed with mode := .auto, opening := none, surgeRun := 0, maxRun := 0, mark := some .topping }))
    ∧ ((s.rate l).mode ≠ .auto → NoticeKind.loop ∈ s.port.mask → Notice.loop l ∈ t.notices) ∧ OnlyLine s t l

/-- R28: the tracking timer after a sample with the setpoint at `sp`: 0 when the sample is on track, 2 ds more when not. -/
def TracksTo (d : Drive) (sp : Nat) (pos : Option Nat) (n : Nat) : Prop :=
  let step := max (1000 / d.tStroke.getD 1800) 1
  let onTrack := ∃ p, pos = some p
    ∧ (absDiff p sp ≤ 50
      ∨ ∃ y, d.lastPos = some y ∧ (y < sp ∧ y + step ≤ p ∨ sp < y ∧ p + step ≤ y))
  onTrack ∧ n = 0 ∨ ¬ onTrack ∧ n = d.track + 2

/-- R33, R43: a line whose stroke test has failed. -/
def StrokeFailed (s t : State) (l : LineId) (why : StrokeFailure) : Prop :=
  t.seq l = { s.seq l with state := .connected, holds := [], pump := false }
    ∧ t.drive l = { s.drive l with stage := none, stageTimer := none, strokeTimer := none, ramp := none, setpoint := 0,
                                   track := 0, lastStroke := some (.failed why) }
    ∧ t.rate l = { s.rate l with eff := none, governing := none, pendingTarget := none }
    ∧ AlarmPresent t .strokeFailed (.line l) ∧ (NoticeKind.done ∈ s.port.mask → Notice.doneStroke l ∈ t.notices)
    ∧ OnlyLine s t l
    ∧ t = { s with seqs := t.seqs, rates := t.rates, drives := t.drives, alarms := t.alarms, horn := t.horn,
                   notices := t.notices }

/-- R83 to R85: the record of tank `k` after a complete directory, from the record before it. The first entry that names
the tank is judged, and every later one is rejected. -/
def DirectoryApplied (es : List DirEntry) (k : TankId) (old new : Option Tank) : Prop :=
  match es.filter fun e => decide (e.number = tankNumber k) with
  | [] => new = old.bind fun r =>
      if r.state = .listed then none else some { r with pendingEntry := some .vanished, conflict := true }
  | e :: later =>
    let inRange := (1 ≤ e.grade ∧ e.grade ≤ 4) ∧ (1000 ≤ e.cap ∧ e.cap ≤ 4000000) ∧ (900 ≤ e.hh ∧ e.hh ≤ 995)
      ∧ ((e.name.getD "").toList.all fun c => 32 ≤ c.toNat && c.toNat ≤ 126) = true
    let rejected (r : Tank) : Tank := { r with pendingEntry := none, conflict := true }
    let accepted (r : Tank) : Tank :=
      if e.grade = r.grade ∧ e.cap = r.cap ∧ e.hh = r.hh ∧ e.name = r.name then
        { r with pendingEntry := none, conflict := false }
      else if r.state = .listed then
        { r with
          grade := e.grade, cap := e.cap, hh := e.hh, name := e.name
          fl := if e.hh = r.hh then r.fl else max 500 (min (min 980 (e.hh - 20)) r.fl)
          vRep := r.vRep.map fun v => min v e.cap
          pendingEntry := none, conflict := false }
      else { r with pendingEntry := some (.entry e), conflict := true }
    let first := if inRange then (match old with | none => some (Tank.created e) | some r => some (accepted r))
      else old.map rejected
    new = if later = [] then first else first.map rejected

/-! ### What time brings (R93, R179, R182) -/

/-- Start-up does not end up to a moment. -/
abbrev NoStartupEnd (s : State) (moment : Nat) : Prop := s.phase = .running ∨ moment < 20

/-- No write ends up to a moment. -/
abbrev NoWriteEnd (s : State) (moment : Nat) : Prop := ∀ w, s.store.write = some w → moment < w.since + 4

/-- The change-over timer of a tank does not expire up to a moment. -/
abbrev NoTimerEnd (s : State) (moment : Nat) (k : TankId) : Prop :=
  ∀ c, s.runningTimer k = some c → c.run moment < s.settings.changeover

/-- A write and change-over timers that fell due between two states have ended and expired, each timer with the run at which
it fell due. -/
def DueMade (s t : State) : Prop :=
  (∀ w, s.store.write = some w → s.clock < w.since + 4 → w.since + 4 ≤ t.clock →
      t.store.write = none ∧ t.limits w.line = some w.record)
    ∧ ∀ k since, s.runningTimer k = some { since := since, expired := none } →
        s.clock < since + s.settings.changeover → since + s.settings.changeover ≤ t.clock →
        (t.tank k).bind (·.timer) = some { since := since, expired := some s.settings.changeover }

/-! ### What the measurement stage of a sample event does (R8 to R14) -/

/-- R4, R8 to R12: the runs, causes, holds and alarms that the measurement stage of a sample event brings a line that is not
DISCONNECTED. -/
def RunsJudged (l : LineId) (x : Sample) (lim : Limits) (s t : State) : Prop :=
  let q := s.seq l
  let m := s.meas l
  let w := if m.band = .settling then lim.warnSettle else lim.warnRun
  let high := match x.pressure with | some p => if lim.pRated < p then m.overRun + 1 else 0 | none => m.overRun
  let quiet := match x.stretch with | some v => if v < max (w - 50) 1 then m.clearRun + 1 else 0 | none => m.clearRun
  let trip := match x.stretch with | some v => if lim.tripLimit < v then m.tripRun + 1 else 0 | none => m.tripRun
  let warned : Prop := ∃ v, x.stretch = some v ∧ w < v
  let cleared : Prop := m.warn = true ∧ 50 ≤ quiet
  let sensor : Prop := q.state ∈ [.opening, .delivering, .holding, .held, .finishing]
    ∧ (5 ≤ (t.meas l).pressureOut ∨ 5 ≤ (t.meas l).stretchOut ∨ 5 ≤ (t.meas l).positionOut)
  let found (c : TripCause) : Prop :=
    c = .sensorFault ∧ sensor ∨ c = .overpressure ∧ 3 ≤ high ∨ c = .stretchTrip ∧ 2 ≤ trip
  let joins : Prop := ∃ c, found c ∧ c ∉ q.trips
  let holdsStretch : Prop := q.state ∈ [.opening, .delivering, .holding, .held] ∧ warned
  (t.meas l).overRun = high ∧ (t.meas l).clearRun = quiet ∧ (t.meas l).tripRun = trip
    ∧ ((t.meas l).warn = true ↔ (m.warn = true ∨ warned) ∧ ¬ cleared)
    ∧ (∀ c, c ∈ (t.seq l).trips ↔ c ∈ q.trips ∨ found c)
    ∧ (t.seq l).grade = q.grade
    ∧ (joins → (t.seq l).state = (if q.state = .tripped then .tripped else .tripping))
    ∧ (joins → q.state ∉ [.tripping, .tripped] →
        t.seq l = { q with state := .tripping, trips := (t.seq l).trips, permit := false, holds := [], pump := false }
        ∧ t.drive l = cutDrive q.state (s.drive l) (s.drive l).lastPos ∧ t.rate l = trippedRate q.state (s.rate l)
        ∧ (q.state = .delivering → ¬ AlarmPresent t .flowUnsteady (.line l)))
    ∧ (joins → q.state ∈ [.tripping, .tripped] →
        t.seq l = { q with trips := (t.seq l).trips, holds := (t.seq l).holds, pump := false }
        ∧ (∀ c, c ∈ (t.seq l).holds ↔ c ∈ q.holds ∧ (c = .stretch → ¬ cleared))
        ∧ t.drive l = s.drive l ∧ t.rate l = s.rate l)
    ∧ (∀ c, found c → c ∉ q.trips → AlarmPresent t c.alarm (.line l))
    ∧ (¬ joins →
        (t.seq l).permit = q.permit
        ∧ (holdsStretch → HoldCause.stretch ∉ q.holds → q.state ∈ [.opening, .delivering] → (t.seq l).state = .holding)
        ∧ (¬ holdsStretch ∨ HoldCause.stretch ∈ q.holds ∨ q.state ∉ [.opening, .delivering] → (t.seq l).state = q.state)
        ∧ (holdsStretch ∧ HoldCause.stretch ∉ q.holds ∧ q.state ∈ [.opening, .delivering] →
            t.drive l = ((s.drive l).rampTo 0 (t.freshTClose l)).trackFrom0
            ∧ t.rate l = (if q.state = .delivering then { s.rate l with surgeRun := 0, maxRun := 0 } else s.rate l)
            ∧ (q.state = .delivering → ¬ AlarmPresent t .flowUnsteady (.line l)))
        ∧ (¬ (holdsStretch ∧ HoldCause.stretch ∉ q.holds ∧ q.state ∈ [.opening, .delivering]) →
            t.drive l = s.drive l ∧ t.rate l = s.rate l)
        ∧ (HoldCause.stretch ∈ (t.seq l).holds ↔ (HoldCause.stretch ∈ q.holds ∨ holdsStretch) ∧ ¬ cleared)
        ∧ ∀ c, c ≠ .stretch → (c ∈ (t.seq l).holds ↔ c ∈ q.holds))
    ∧ (warned → AlarmPresent t .stretchWarn (.line l)) ∧ (cleared → ¬ AlarmPresent t .stretchWarn (.line l))
    ∧ (2 ≤ trip → DeviceTrip.stretchTrip l ∈ t.device ∧ t.esd.contact = .opened)
    ∧ (∀ d, d ≠ .stretchTrip l → (d ∈ t.device ↔ d ∈ s.device)) ∧ (trip < 2 → t.device = s.device ∧ t.esd = s.esd)

/-- R13, R14: the steady detector at the measurement stage, for a line that is in DELIVERING before and after it. -/
def SteadyJudged (l : LineId) (s t : State) : Prop :=
  let m := s.meas l
  let n := t.meas l
  ∀ q e, n.q = some q → (s.rate l).eff = some e →
    let b := max (e * s.settings.band / 1000) 50
    (m.steady = false → absDiff q e ≤ b →
      (m.inRun + 1 < s.settings.steadyn →
        n.steady = false ∧ n.inRun = m.inRun + 1 ∧ n.outRun = m.outRun ∧ n.epoch = m.epoch ∧ n.band = m.band)
      ∧ (s.settings.steadyn ≤ m.inRun + 1 →
        n.steady = true ∧ n.inRun = 0 ∧ n.outRun = 0 ∧ n.epoch = (m.epoch + 1) % 65536 ∧ n.band = .running
          ∧ ¬ AlarmPresent t .flowUnsteady (.line l)))
    ∧ (m.steady = false → b < absDiff q e →
        n.steady = false ∧ n.inRun = 0 ∧ n.outRun = m.outRun ∧ n.epoch = m.epoch ∧ n.band = m.band)
    ∧ (m.steady = true → 2 * b < absDiff q e →
      (m.outRun + 1 < 3 →
        n.steady = true ∧ n.inRun = m.inRun ∧ n.outRun = m.outRun + 1 ∧ n.epoch = m.epoch ∧ n.band = m.band)
      ∧ (3 ≤ m.outRun + 1 →
        n.steady = false ∧ n.inRun = 0 ∧ n.outRun = 0 ∧ n.epoch = m.epoch ∧ n.band = m.band
          ∧ AlarmPresent t .flowUnsteady (.line l)))
    ∧ (m.steady = true → absDiff q e ≤ 2 * b →
        n.steady = true ∧ n.inRun = m.inRun ∧ n.outRun = 0 ∧ n.epoch = m.epoch ∧ n.band = m.band)

/-! ### Records that leave a lineup (R86, R94) -/

/-- R86: a record that has become LISTED, with its pending entry applied. -/
def pendingApplied (r : Tank) : Option Tank :=
  match r.pendingEntry with
  | none => some r
  | some .vanished => none
  | some (.entry e) => some (r.withEntry e)

/-- R82, R93: a record of a lineup that becomes LISTED. -/
def unlined (r : Tank) : Option Tank :=
  pendingApplied { r with state := .listed, timer := none, line := none, stale := false }

/-- R93: a record of a lineup that becomes RELEASING at a moment. One in RELEASING keeps its timer. -/
def releasedAt (now : Nat) (r : Tank) : Tank :=
  if r.state = .releasing then r else { r with state := .releasing, timer := some { since := now, expired := none } }

/-- R94: "line finished", for a tank of the lineup of line `l` with the record `r` before it. -/
def TankFinished (s t : State) (l : LineId) (k : TankId) (r : Tank) : Prop :=
  if r.valve = .closed then k ∉ t.lineup l ∧ t.tank k = unlined r
  else k ∈ t.lineup l ∧ t.tank k = some (releasedAt s.clock r)

/-! ### What an evaluation does (R106, R109 to R112) -/

/-- R47, R48, R110, R111: TANK_FULL handed to a line, whose ship permit stays. -/
def TankFullHanded (l : LineId) (s t : State) : Prop :=
  HoldHanded .tankFull s t l ∧ (t.seq l).permit = (s.seq l).permit

/-- R106: the actions of an evaluation with the figures `e`, of tank `k` with the record `r`, lined up to line `l`: the first
that applies of OVERRUN, FULL and TOPPING, and TANK_FULL again for a tank left FULL. Where a TOPPING tank becomes FULL, the line is
told of the departure before it is held: the state `b` stands between the two. -/
def ActedOn (k : TankId) (l : LineId) (r : Tank) (e : Results) (s t : State) : Prop :=
  let overrun : Prop := (s.seq l).state ∈ [.opening, .delivering, .holding, .finishing]
    ∧ r.state ∈ [.filling, .topping, .full, .releasing] ∧ r.cap * r.hh / 1000 ≤ e.endVol
  let full : Prop := e.margin ≤ 0 ∧ r.state ∈ [.filling, .topping, .releasing]
  let topping : Prop := r.state = .filling ∧ ∃ tau, e.tau = some tau ∧ tau ≤ s.settings.ttop
  (overrun → TripCause.overrun ∉ (s.seq l).trips →
      TrippingBy s t l .overrun (s.drive l).lastPos ∧ t.tankState k = some r.state ∧ t.link = s.link)
    ∧ (¬ overrun → full → t.tankState k = some .full ∧ (t.tank k).bind (·.timer) = none
        ∧ (r.state ≠ .topping → TankFullHanded l s t)
        ∧ (r.state = .topping → ∃ b : State, ToldOfTopping s b l ∧ b.seq l = s.seq l ∧ b.drive l = s.drive l
            ∧ b.freshTClose l = s.freshTClose l ∧ b.tanks = t.tanks ∧ b.lineups = t.lineups ∧ b.alarms = s.alarms
            ∧ b.esd = s.esd ∧ b.port = s.port ∧ TankFullHanded l b t)
        ∧ (s.link.gauging = .linked → (k, .full) ∈ t.link.advices)
        ∧ (r.state = .topping → (t.rate l).throttle = decide (0 < t.countIn l .topping))
        ∧ (r.state = .releasing → AlarmsDistinct s → ¬ AlarmPresent t .changeoverLate (.tank k)))
    ∧ (¬ overrun → ¬ full → topping → t.tankState k = some .topping ∧ t.seq l = s.seq l ∧ t.drive l = s.drive l
        ∧ ToldOfEntry s t l
        ∧ (s.link.gauging = .linked → (k, .topping) ∈ t.link.advices)
        ∧ (t.rate l).throttle = decide (0 < t.countIn l .topping) ∧ (t.rate l).mode = .auto)
    ∧ (¬ overrun → r.state = .full → t.tankState k = some .full ∧ TankFullHanded l s t ∧ t.link = s.link)
    ∧ (¬ overrun → ¬ full → ¬ topping → r.state ≠ .full → t.tankState k = some r.state ∧ t.seq l = s.seq l
        ∧ t.rate l = s.rate l ∧ t.meas l = s.meas l ∧ t.drive l = s.drive l ∧ t.link = s.link)
    ∧ OnlyLine s t l ∧ OnlyTank s t k ∧ t.lineups = s.lineups ∧ t.port = s.port ∧ KeepsBase s t ∧ KeepsTrips s t

/-! ### What a level report does (R87, R88, R96, R97, R107, R115 to R118) -/

/-- R115 to R118: ring and anchor of a record after a report with the volume and the measurement time of the record, from
the steady flag and epoch of its line. `w` is the greatest length of a ring. -/
def estimated (steady : Bool) (epoch w : Nat) (fault : Bool) (r : Tank) : List Nat × Option Anchor :=
  if fault = true then (r.ring, r.anchor)
  else
    match r.line, r.vRep, r.mTime with
    | some _, some v, some m =>
      if r.valve ≠ .opened ∨ steady = false then (r.ring, none)
      else
        match r.anchor with
        | none => (r.ring, some { volume := v, time := m, epoch := epoch })
        | some a =>
          if a.epoch ≠ epoch then (r.ring, some { volume := v, time := m, epoch := epoch })
          else if m - a.time < 20 then (r.ring, some a)
          else
            let ring := r.ring ++ [(v - a.volume) * 600 / (m - a.time)]
            (ring.drop (ring.length - w), some { volume := v, time := m, epoch := epoch })
    | _, _, _ => (r.ring, none)

/-- R88, R86: the record of a tank after the transitions that a report applied to it brings. A report of CLOSED clears its
ring and anchor (R118) whatever its gauge fault says: the model's choice (log 53). -/
def transited (r : Tank) : Option Tank :=
  if r.valve = .opened then
    if r.state = .assigned ∧ r.vRep ≠ none then some { r with state := .filling, timer := none } else some r
  else
    match r.state with
    | .filling | .topping => some { r with state := .assigned, timer := none, ring := [], anchor := none }
    | .full => unlined { r with topped := true, ring := [], anchor := none }
    | .releasing => unlined { r with ring := [], anchor := none }
    | .listed | .assigned | .overfill => some { r with ring := [], anchor := none }

/-- The tanks of a lineup whose ship valve is reported OPEN (R97). -/
def openOutlets (s : State) (l : LineId) : List TankId :=
  (s.lineup l).filter fun k => decide ((s.tank k).map (·.valve) = some .opened)

/-- R87: a level report of tank `k`, not older than its record `r`, from a state `s` to a state `t`. The state `b` stands
after the transitions and the estimator, before overfill and the evaluation; a NO_OUTLET that holds a moving line closes it
on its profile (R48), with the stored T_close kept (log 46). A report of CLOSED makes the anchor absent, also with gauge fault
yes (log 53). Where the tank enters OVERFILL, `c` is the state after the line has been told that a TOPPING or FULL tank has left,
before NO_OUTLET is judged (R96, R97). -/
def ReportMade (k : TankId) (v : Nat) (w : ValveWord) (fault : Bool) (mTime : Nat) (s : State) (r : Tank) (t : State) :
    Prop :=
  let reported : Tank := { r with
    valve := reportedValve w
    fault := some fault
    vRep := if fault = true then r.vRep else some (min v r.cap)
    mTime := if fault = true then r.mTime else some mTime }
  let steady (l : Option LineId) : Bool := l.any fun l => (s.meas l).steady
  let epoch (l : Option LineId) : Nat := (l.map fun l => (s.meas l).epoch).getD 0
  let full (x : Tank) : Prop := x.state ≠ .overfill ∧ ∃ y, x.vRep = some y ∧ x.cap * x.hh / 1000 ≤ y
  ∃ b : State,
    OnlyTank s b k ∧ KeepsTrips s b ∧ KeepsBase s b ∧ b.port = s.port ∧ (AlarmsDistinct s → AlarmsDistinct b)
    ∧ (r.line = none → b = { s with tanks := b.tanks, notices := b.notices })
    ∧ (transited reported ≠ none → b.link = s.link)
    ∧ (∀ x, transited reported = some x → ¬ full x →
        (let e := estimated (steady x.line) (epoch x.line) s.settings.estw fault x
         b.tank k = some { x with ring := e.1, anchor := e.2 }) ∧ t = b.evaluate k)
    ∧ (∀ x, transited reported = some x → full x → b.tank k = some x ∧ (∃ y, t.tank k = some y ∧ y.state = .overfill
        ∧ y.line = none ∧ y.timer = none ∧ y.stale = false ∧ y.ring = [] ∧ y.anchor = none) ∧ OnlyTank s t k
        ∧ k ∈ t.overfills ∧ DeviceTrip.overfill k ∈ t.device ∧ t.esd.contact = .opened
        ∧ AlarmPresent t .overfill (.tank k) ∧ (s.link.gauging = .linked → (k, .overfill) ∈ t.link.advices)
        ∧ ∀ l, x.line = some l → t.lineup l = setErase k (s.lineup l)
          ∧ ((b.seq l).state ∈ [.opening, .delivering] → openOutlets b l = [k] → HoldCause.noOutlet ∈ (t.seq l).holds)
          ∧ ∃ c : State, c.tanks = t.tanks ∧ c.lineups = t.lineups ∧ c.esd.loop = b.esd.loop ∧ c.drive l = b.drive l
            ∧ c.freshTClose l = b.freshTClose l ∧ c.port = b.port ∧ (AlarmsDistinct b → AlarmsDistinct c)
            ∧ (x.state = .topping → ToldOfTopping b c l)
            ∧ (x.state ≠ .topping → c.rate l = b.rate l ∧ c.meas l = b.meas l)
            ∧ c.seq l = (if x.state = .full ∧ t.countIn l .full = 0 then
                { b.seq l with holds := setErase .tankFull (b.seq l).holds, pump := pumpPermit (b.seq l) b.esd.loop }
              else b.seq l)
            ∧ ((b.seq l).state ∈ [.opening, .delivering] ∧ openOutlets b l = [k] → HoldHanded .noOutlet c t l)
            ∧ ((b.seq l).state ∉ [.opening, .delivering] ∨ openOutlets b l ≠ [k] →
                t.seq l = c.seq l ∧ t.drive l = c.drive l ∧ t.rate l = c.rate l ∧ t.meas l = c.meas l)
            ∧ ∀ j, j ≠ l → t.seq j = b.seq j ∧ t.rate j = b.rate j ∧ t.meas j = b.meas j ∧ t.drive j = b.drive j
                ∧ t.lineup j = b.lineup j)
    ∧ (transited reported = none → b.tank k = none ∧ t = b ∧ k ∉ t.link.poll)
    ∧ ∀ l, r.line = some l →
        OnlyLine s b l
        ∧ ((b.tank k).bind (·.line) = none → k ∉ b.lineup l) ∧ ((b.tank k).bind (·.line) = some l → b.lineup l = s.lineup l)
        ∧ (r.state = .assigned → b.tankState k = some .filling → HoldCause.noOutlet ∉ (b.seq l).holds)
        ∧ (r.state = .full → b.tankState k ≠ some .full → b.countIn l .full = 0 → HoldCause.tankFull ∉ (b.seq l).holds)
        ∧ (r.state = .topping → b.tankState k ≠ some .topping → (b.rate l).throttle = decide (0 < b.countIn l .topping))
        ∧ ((s.seq l).state ∈ [.opening, .delivering] → openOutlets s l ≠ [] → openOutlets b l = [] →
            HoldCause.noOutlet ∈ (b.seq l).holds
              ∧ (HoldCause.noOutlet ∉ (s.seq l).holds → (b.seq l).state = .holding))
        ∧ ((s.seq l).state ∉ [.opening, .delivering] ∨ openOutlets s l = [] ∨ openOutlets b l ≠ [] →
            (b.seq l).state = (s.seq l).state
              ∧ (HoldCause.noOutlet ∈ (b.seq l).holds → HoldCause.noOutlet ∈ (s.seq l).holds))
        ∧ b.seq l = { s.seq l with state := (b.seq l).state, holds := (b.seq l).holds, pump := (b.seq l).pump }
        ∧ b.meas l = { s.meas l with
            steady := (b.meas l).steady, inRun := (b.meas l).inRun, outRun := (b.meas l).outRun }
        ∧ b.rate l = { s.rate l with
            throttle := (b.rate l).throttle, eff := (b.rate l).eff, governing := (b.rate l).governing
            surgeRun := (b.rate l).surgeRun, maxRun := (b.rate l).maxRun }
        ∧ ((b.seq l).state = (s.seq l).state → b.drive l = s.drive l
            ∧ (r.state ≠ .topping ∨ b.tankState k = some .topping → b.meas l = s.meas l ∧ b.rate l = s.rate l)
            ∧ (r.state = .topping → b.tankState k ≠ some .topping → ToldOfTopping s b l))
        ∧ ((b.seq l).state ≠ (s.seq l).state → b.drive l = ((s.drive l).rampTo 0 (s.freshTClose l)).trackFrom0
            ∧ ((s.seq l).state = .delivering → (b.meas l).steady = false ∧ (b.meas l).inRun = 0 ∧ (b.meas l).outRun = 0
                ∧ (b.rate l).surgeRun = 0 ∧ (b.rate l).maxRun = 0
                ∧ (AlarmsDistinct s → ¬ AlarmPresent b .flowUnsteady (.line l))))

/-! ### What the end of an exchange does (R126 to R128, R134, R135, R139) -/

/-- R126, R47, R48, R60: the STOP flag of a good reply, handed to each line. A line that SHIP takes into HOLDING leaves DELIVERING
as every hold does, with the stored T_close kept (log 46). A success leaves the other drives, rates and measurements as they were;
with a link-loss count of 0, which no run reaches (R172), it loses the link instead, and nothing is said. -/
def StopTaken (stop : Bool) (s t : State) : Prop :=
  ∀ l, (stop = true →
      (t.seq l).permit = false
      ∧ ((s.seq l).state ∈ [.opening, .delivering, .holding, .held] → HoldCause.ship ∈ (t.seq l).holds)
      ∧ ((s.seq l).state ∈ [.opening, .delivering] → HoldCause.ship ∉ (s.seq l).holds →
          HeldOnProfile .ship s t l))
    ∧ (stop = false → HoldCause.ship ∉ (t.seq l).holds)
    ∧ (0 < s.settings.linkloss →
        stop = false ∨ (s.seq l).state ∉ [.opening, .delivering] ∨ HoldCause.ship ∈ (s.seq l).holds →
          (t.seq l).state = (s.seq l).state ∧ t.drive l = s.drive l ∧ t.rate l = s.rate l ∧ t.meas l = s.meas l)

/-- R129, R47, R48, R60: what the loss of the link brings the lines: in LINKED gauging the ship permit cleared and LINK handed to
each, in MANUAL gauging nothing. -/
def LinkLossHanded (s t : State) : Prop :=
  (s.link.gauging = .linked → ∀ l, (t.seq l).permit = false ∧ (t.seq l).pump = false ∧ HoldHanded .link s t l)
    ∧ (s.link.gauging = .manual → t.seqs = s.seqs ∧ t.rates = s.rates ∧ t.meass = s.meass ∧ t.drives = s.drives)

/-- R127, R128: the end of a counted exchange, which takes up the link-loss count in force into a field of the model's own
(log 54), and the judgement of the link state that follows it. A failure that loses the link in LINKED gauging hands LINK to every
line (`LinkLossHanded`), and one that loses it in MANUAL gauging leaves the lines as they were. With a link-loss count of 0, which
no run reaches (R172), a success loses the link too, and less is said of the lines. -/
def OutcomeJudged (failed : Bool) (s t : State) : Prop :=
  let k := s.link
  let window := (k.window ++ [failed]).drop ((k.window ++ [failed]).length - 32)
  let failures := (window.filter fun f => f).length
  let run := if failed = true then min 255 (k.failRun + 1) else 0
  let successes := if failed = true then 0 else min 3 (k.succRun + 1)
  (k.state ∈ [.good, .poor] →
    (s.settings.linkloss ≤ run →
      t.link.state = .lost ∧ t.link.succRun = 0 ∧ t.link.queries = [] ∧ AlarmPresent t .linkLost .link
        ∧ (k.gauging = .linked → ∀ l, (t.seq l).permit = false
            ∧ ((s.seq l).state ∈ [.opening, .delivering, .holding, .held] → HoldCause.link ∈ (t.seq l).holds))
        ∧ (failed = true → LinkLossHanded s t))
    ∧ (run < s.settings.linkloss →
      t.link.state = (if k.state = .good then (if 8 ≤ failures then .poor else .good)
        else if failures ≤ 2 then .good else .poor)))
    ∧ (k.state ∈ [.good, .poor] → t.link.failRun = run ∧ t.link.window = window)
    ∧ (k.state ∈ [.good, .poor, .lost] → t.link.lossCount = s.settings.linkloss)
    ∧ (k.state = .lost →
      (3 ≤ successes → t.link.state = .good ∧ t.link.window = [] ∧ t.link.failRun = 0
        ∧ ∀ l, HoldCause.link ∉ (t.seq l).holds)
      ∧ (successes < 3 → t.link.state = .lost ∧ t.link.window = window ∧ t.link.failRun = run ∧ t.link.succRun = successes))
    ∧ (k.state = .down → t.link.state = .down ∧ t.link.window = k.window ∧ t.link.failRun = k.failRun
        ∧ t.link.succRun = k.succRun ∧ t.link.lossCount = k.lossCount)

/-- R139: the tank that a LEVEL exchange picks from a poll queue, with the queue and the watched-poll count it leaves.
`near` are the tanks in TOPPING or FULL. -/
def PollPicked (watched near : TankId → Bool) (poll : List TankId) (polls : Nat) (p : TankId) (poll' : List TankId)
    (polls' : Nat) : Prop :=
  let unwatched (k : TankId) : Bool := !watched k
  let rest := setErase p poll
  (if (8 ≤ polls ∧ poll.any unwatched = true) ∨ poll.any watched = false then poll.find? unwatched = some p
    else poll.find? watched = some p)
  ∧ (if watched p = true then
      polls' = min 8 (polls + 1)
        ∧ poll' = (if near p = true then
            match rest.dropWhile unwatched with
            | [] => rest ++ [p]
            | first :: behind => rest.takeWhile unwatched ++ first :: p :: behind
          else rest ++ [p])
    else polls' = 0 ∧ poll' = rest ++ [p])

/-- R135: the exchange chosen in GOOD, POOR and LOST while gauging is LINKED, from a link record `k` with none in flight. -/
def ExchangeChosen (watched near : TankId → Bool) (window : Nat) (k k' : Link) : Prop :=
  let sent (q : Query) (refresh : Bool) : Option Exchange :=
    some { query := q, refresh := refresh, window := window, part := none }
  let due : Option Query := k.refresh.map fun p => if p.header = none then .header else .entry p.next
  match k.advices, k.queries with
  | a :: rest, _ => k' = { k with advices := rest, exchange := sent (.advice a.1 a.2) false }
  | [], l :: rest => k' = { k with queries := rest, exchange := sent (.permit l) false }
  | [], [] =>
    (∀ q, due = some q → k.spacing = 15 ∨ k.poll = [] → k' = { k with exchange := sent q true })
      ∧ (due = none ∨ k.spacing ≠ 15 → k.poll ≠ [] → ∃ p poll polls, PollPicked watched near k.poll k.polls p poll polls
          ∧ k' = { k with exchange := sent (.level p) false, poll := poll, polls := polls })
      ∧ (due = none → k.poll = [] → k' = { k with exchange := sent .alive false })

/-- A tank that the ship link polls as a watched one (R138). -/
def watchedTank (s : State) (k : TankId) : Bool :=
  decide (∃ st ∈ [TankState.assigned, .filling, .topping, .full, .releasing], s.tankState k = some st)

/-- A tank near its stop (R139). -/
def nearStopTank (s : State) (k : TankId) : Bool := decide (s.tankState k = some .topping ∨ s.tankState k = some .full)

/-- R124, R131, R135: what follows the end of an exchange: the next exchange, by the link state and gauging mode that stand
then, from the advices and the poll queue given. The permit queries are those of `s`, but that an entry to LOST drops them. -/
def NextFrom (advices : List (TankId × AdviceKind)) (poll : List TankId) (s t : State) : Prop :=
  let before : Link := { t.link with
    exchange := none
    advices := advices
    queries := if t.link.state = .lost ∧ s.link.state ≠ .lost then [] else s.link.queries
    poll := poll
    polls := s.link.polls }
  (t.link.state ∈ [.good, .poor, .lost] → t.link.gauging = .linked →
    ExchangeChosen (watchedTank s) (nearStopTank s) s.settings.window before t.link)
  ∧ (t.link.state = .down ∨ t.link.state ∈ [.good, .poor, .lost] ∧ t.link.gauging = .manual → t.link = before)
  ∧ (t.link.state = .acquiring → ∀ a, t.link.acq = some a → t.link = { before with
      exchange := some { query := (if a.header = none then .header else .entry a.next), refresh := false,
                         window := s.settings.window, part := none } })

/-- What follows the end of an exchange that left the advices and the poll queue as they were. -/
def NextBegins (s t : State) : Prop := NextFrom s.link.advices s.link.poll s t

/-- What follows the end of an exchange that applied a directory (R85, R138): a tank created has joined the tail of the poll
queue, in the order of the entries, and one removed has left it, with every advice queued for it. -/
def NextAfterDirectory (es : List DirEntry) (s t : State) : Prop :=
  let created := ((es.filterMap fun e => tankOf e.number).eraseDups).filter fun k =>
    (s.tank k).isNone && (t.tank k).isSome
  NextFrom (s.link.advices.filter fun a => (t.tank a.1).isSome || (s.tank a.1).isNone)
    ((s.link.poll ++ created).filter fun k => (t.tank k).isSome) s t

/-- The value of a setting (R172). -/
def settingValue (x : Settings) : SettingName → Nat
  | .ttop => x.ttop
  | .treact => x.treact
  | .stalel => x.stalel
  | .stalem => x.stalem
  | .window => x.window
  | .estw => x.estw
  | .changeover => x.changeover
  | .linkloss => x.linkloss
  | .band => x.band
  | .steadyn => x.steadyn

/-! ### Requests -/

/-- R90, check 4: why a tank number fails for a line, `before` tanks having been named before it. -/
def AssignFault (s : State) (l : LineId) (before n : Nat) (why : String) : Prop :=
  (∀ k, n = tankNumber k → s.tank k = none) ∧ why = "RANGE"
    ∨ ∃ k r, n = tankNumber k ∧ s.tank k = some r ∧
      let taken : Prop := ∃ j, r.line = some j ∧ j ≠ l
      let unfit : Prop := r.state ≠ .listed ∨ r.conflict = true
      let graded : Prop := (s.seq l).grade = some r.grade
      (taken ∧ why = "TAKEN" ∨ ¬ taken ∧ unfit ∧ why = "STATE" ∨ ¬ taken ∧ ¬ unfit ∧ ¬ graded ∧ why = "GRADE"
        ∨ ¬ taken ∧ ¬ unfit ∧ graded ∧ 6 ≤ (s.lineup l).length + before ∧ why = "FULLLINE")

/-- The part takes requests: start-up has ended (R182) and no reply waits (R164). -/
abbrev Ready (s : State) : Prop := s.phase = .running ∧ s.port.waiting = none

/-- The READ requests. -/
def isRead : Instr → Bool
  | .readStatus | .readLine _ | .readTank _ | .readTanks | .readSet | .readLimits _ => true
  | _ => false

/-- The commands that are console requests other than READ (09_console_records.md, Requests). -/
def isRequest : Instr → Bool
  | .connect _ _ | .disconnect _ | .stroke _ | .strokeset _ _ | .permit _ | .permitConfirm _ | .start _ _ | .rate _ _
  | .loop _ _ | .hold _ | .resume _ | .finish _ | .clear _ | .assign _ _ | .release _ _ | .fill _ _ | .sound _ _ _
  | .clearTank _ | .linkstart | .gaugingManual | .gaugingLinked | .esd | .clearAll | .ack _ _ | .set _ | .limits _ _
  | .lock | .unlock | .mask _ | .restart => true
  | _ => false

/-- Two number fields of a request, both numbers. -/
def twoNumbers (a b : String) (c : Nat → Nat → Instr) : Option Instr :=
  match numField a, numField b with
  | some m, some n => some (c m n)
  | _, _ => none

/-- The request that the fields of a record name, where they read as one (R159, R162; 09_console_records.md, Requests). -/
def requestOf : List String → Option Instr
  | [kw] =>
    [("LINKSTART", Instr.linkstart), ("ESD", .esd), ("LOCK", .lock), ("UNLOCK", .unlock), ("RESTART", .restart)].lookup kw
  | kw :: a :: rest =>
    match kw, rest with
    | "READ", [] => [("STATUS", Instr.readStatus), ("TANKS", .readTanks), ("SET", .readSet)].lookup a
    | "READ", [n] =>
      ([("LINE", Instr.readLine), ("TANK", .readTank), ("LIMITS", .readLimits)].lookup a).bind fun c => (numField n).map c
    | "GAUGING", [] => [("MANUAL", Instr.gaugingManual), ("LINKED", .gaugingLinked)].lookup a
    | "CLEAR", [] => if a = "ALL" then some .clearAll else (numField a).map .clear
    | "CLEAR", [n] => if a = "TANK" then (numField n).map .clearTank else none
    | "CONNECT", [g] => twoNumbers a g .connect
    | "STROKESET", [w] =>
      if w = "NONE" then (numField a).map fun n => .strokeset n none
      else twoNumbers a w fun n t => .strokeset n (some t)
    | "PERMIT", ["CONFIRM"] => (numField a).map .permitConfirm
    | "START", [w] => (numField a).map fun n => .start n (numField w)
    | "RATE", [w] => (numField a).map fun n => .rate n (numField w)
    | "FILL", [w] => (numField a).map fun n => .fill n (numField w)
    | "SOUND", [v, w] => (numField a).map fun n => .sound n (numField v) (valveWordOf w)
    | "LOOP", ws => (numField a).map fun n => .loop n (loopWordOf ws)
    | "ASSIGN", ws => (numField a).map fun n => .assign n (ws.map numField)
    | "RELEASE", ws =>
      (numField a).map fun n => .release n (if ws = ["ALL"] then .all else .list (ws.map numField))
    | "LIMITS", ws => (numField a).map fun n => .limits n (ws.map numField)
    | "SET", ws => some (.set ((a :: ws).map fieldOf))
    | "MASK", ws => some (.mask (a :: ws))
    | "ACK", ws =>
      let p := ackWords (a :: ws)
      some (.ack p.1 (if p.2 = ["ALL"] then none else some (p.2.map alarmKindOf)))
    | _, [] =>
      ([("DISCONNECT", Instr.disconnect), ("STROKE", .stroke), ("PERMIT", .permit), ("HOLD", .hold), ("RESUME", .resume),
        ("FINISH", .finish)].lookup kw).bind fun c => (numField a).map c
    | _, _ :: _ => none
  | [] => none

/-- The keyword of a request that opens with a line number, and that number. -/
def lineOpening : Instr → Option (String × Nat)
  | .connect n _ => some ("CONNECT", n)
  | .disconnect n => some ("DISCONNECT", n)
  | .stroke n => some ("STROKE", n)
  | .strokeset n _ => some ("STROKESET", n)
  | .permit n => some ("PERMIT", n)
  | .permitConfirm n => some ("PERMIT", n)
  | .start n _ => some ("START", n)
  | .rate n _ => some ("RATE", n)
  | .loop n _ => some ("LOOP", n)
  | .hold n => some ("HOLD", n)
  | .resume n => some ("RESUME", n)
  | .finish n => some ("FINISH", n)
  | .clear n => some ("CLEAR", n)
  | .assign n _ => some ("ASSIGN", n)
  | .release n _ => some ("RELEASE", n)
  | .limits n _ => some ("LIMITS", n)
  | _ => none

/-- The cells of the table "Requests by line state" that read STATE (03_the_line_sequence.md). A START or RATE without a
number is refused SYNTAX before its state is judged (R44, R72). -/
def refusedInState : Instr → LineState → Bool
  | .connect _ _, st => st != .disconnected
  | .disconnect _, st => st != .connected
  | .stroke _, st => st != .connected && st != .stroking
  | .strokeset _ none, st => st != .disconnected && st != .connected
  | .permit _, st => st != .connected && st != .held
  | .permitConfirm _, st => st != .connected && st != .held
  | .start _ (some _), st => st != .connected
  | .rate _ (some _), st => st != .opening && st != .delivering && st != .holding && st != .held
  | .loop _ _, st => st == .disconnected
  | .hold _, st => st != .opening && st != .delivering && st != .holding && st != .held
  | .resume _, st => st != .holding && st != .held
  | .finish _, st => st != .opening && st != .delivering && st != .holding && st != .held
  | .clear _, st => st != .tripped
  | .assign _ _, st => st == .disconnected || st == .tripped
  | .release _ _, st => st == .disconnected
  | _, _ => false

end Sys2Proof.Machine
end

