-- ==== Sys2Proof/Certificates/Slice0/Obligations.lean ====
section
/-! DEFINITION. The statements for the provers: one step, reset and the invariants every step keeps, what holds of all
requests, and then each command's own effect with its frame. -/

section

open Sys2Proof Sys2Proof.Machine

/-! ### One step and reset -/

/-- A step runs the command at the front of the queue with the queue's rest, and on an empty queue one ds passes (the
model's choice, log 1). -/
def Obligations.StepRunsTheFrontCommand : Prop :=
  (∀ (c : Instr) (rest : List Instr) (s : State), s.pending = c :: rest → step s = exec c { s with pending := rest })
    ∧ ∀ s : State, s.pending = [] → step s = .next s.tick

/-- The reset values that R19, R37, R38, R63, R78, R123, R143, R146, R158, R172, R182 and R184 give. The loop readings, the
key and the stored records are the model's choices (log 11, log 12) and are not stated: Q_L follows each record's status, and
ESD_IN the far-loop reading. The model's own fields (the outcome of the latest stroke test, the count of rejected entries, the
record last sent: log 34; the flow last handed to the tank watch: log 16; what the latest sample event, loop mode and exchange
took up: log 54) are not stated. -/
def Obligations.ResetLeavesTheStatedValues : Prop :=
  let s := State.reset
  s.clock = 0 ∧ s.phase = .starting ∧ s.pending = []
    ∧ (∀ l, s.seq l = { state := .disconnected, grade := none, holds := [], trips := [], permit := false, pump := false })
    ∧ (∀ l, s.rate l = { s.rate l with
        target := 0, mode := .auto, pendingTarget := none, opening := none, throttle := false
        eff := none, governing := none, surgeRun := 0, maxRun := 0, mark := none })
    ∧ (∀ l, s.drive l = { s.drive l with
        setpoint := 0, enabled := false, ramp := none, stage := none, stageTimer := none, strokeTimer := none
        tMeas := none, tOvr := none, track := 0, lastPos := none })
    ∧ (∀ l, s.meas l = { s.meas l with
        window := [0, 0, 0, 0, 0], q := match (s.record l).status with | .sound => some 0 | .blank => none
        pTot := 0, dBase := 0, pressure := none, stretch := none, position := none
        pressureOut := 0, stretchOut := 0, positionOut := 0, overRun := 0, warn := false, clearRun := 0, tripRun := 0
        band := .settling, steady := false, inRun := 0, outRun := 0, epoch := 0
        tClose := none, qSurge := none, tC := none })
    ∧ (∀ l, s.lineup l = []) ∧ (∀ k, s.tank k = none)
    ∧ s.link = { s.link with
        state := .down, gauging := .linked, exchange := none, window := [], failRun := 0, succRun := 0, rev := none
        acq := none, refresh := none, spacing := 0, lastAcq := none, stop := none, advices := [], queries := []
        outcomes := Vector.replicate 4 none, poll := [], polls := 0 }
    ∧ s.esd.contact = .opened ∧ s.overfills = []
    ∧ s.device = (if s.esd.far = .opened then [.esdIn] else [])
    ∧ s.alarms = (if s.esd.far = .opened then
        [{ kind := .esdIn, object := .loop, acked := false, present := true, time := 0 }] else [])
    ∧ s.horn = decide (s.esd.far = .opened) ∧ (s.esd.far = .closed → s.notices = [])
    ∧ s.port = { s.port with
        rx := "", held := none, waiting := none, mask := [.line, .tank, .link, .trip, .alarm, .done, .directory, .loop] }
    ∧ s.settings = { ttop := 3000, treact := 20, stalel := 150, stalem := 3000, window := 1, estw := 4,
                     changeover := 1200, linkloss := 10, band := 50, steadyn := 25 }

/-- The invariants below hold right after reset. -/
def Obligations.ResetMeetsEveryInvariant : Prop :=
  let s := State.reset
  PumpsFollow s ∧ HornFollows s ∧ AlarmsDistinct s ∧ AlarmsLive s ∧ NoticesSound s ∧ HoldsPlaced s ∧ TripsPlaced s
    ∧ PermitsPlaced s ∧ DrivesEnabled s ∧ LineupsBounded s ∧ LineupsSound s ∧ SettingsInRange s ∧ LinkBounded s
    ∧ PollFollows s ∧ OverfillGuarded s ∧ LineupsClosed s ∧ LineupsGraded s ∧ RestDrives s ∧ QuietOutsideDelivering s
    ∧ ThrottleFollows s ∧ RecordsObey s ∧ WritesAtRest s ∧ TargetsBounded s

/-! ### Invariants every step keeps -/

/-- R62. -/
def Obligations.PumpPermitFollows : Prop :=
  ∀ s t : State, PumpsFollow s → step s = .next t → PumpsFollow t

/-- R156. -/
def Obligations.HornFollowsTheAlarms : Prop :=
  ∀ s t : State, HornFollows s → step s = .next t → HornFollows t

/-- R152, R154. -/
def Obligations.AlarmSetStaysSound : Prop :=
  ∀ s t : State, AlarmsDistinct s ∧ AlarmsLive s → step s = .next t → AlarmsDistinct t ∧ AlarmsLive t

/-- R165, R168. -/
def Obligations.PendingNoticesStaySound : Prop :=
  ∀ s t : State, NoticesSound s → step s = .next t → NoticesSound t

/-- R47, R55 to R58, R60: where a line holds hold causes, trip causes and a ship permit. R39: where its setpoint is 0.
R15, R69: where its steady flag, its runs and its takeover runs are at rest. -/
def Obligations.CausesAndPermitsStayPlaced : Prop :=
  ∀ s t : State, step s = .next t →
    (HoldsPlaced s ∧ TripsPlaced s ∧ PermitsPlaced s → HoldsPlaced t ∧ TripsPlaced t ∧ PermitsPlaced t)
    ∧ (RestDrives s → RestDrives t)
    ∧ (QuietOutsideDelivering s → QuietOutsideDelivering t)

/-- R21. -/
def Obligations.DriveEnableFollowsTheState : Prop :=
  ∀ s t : State, DrivesEnabled s → step s = .next t → DrivesEnabled t

/-- R82: at most six tanks in a lineup; a tank is lined up exactly while it is watched, in the one lineup its record
names, once. R41, R94: a DISCONNECTED line has an empty lineup. R82, over such lineups: the grade of each tank of a lineup is the
grade of its line, which CONNECT sets (R40). -/
def Obligations.LineupsStaySound : Prop :=
  ∀ s t : State, LineupsSound s ∧ LineupsBounded s → step s = .next t →
    LineupsSound t ∧ LineupsBounded t
      ∧ (LineupsClosed s → LineupsClosed t ∧ (LineupsGraded s → LineupsGraded t))

/-- R172: the transfer settings. R64: target_eff, never above the least of its terms and never below 25, over records that
obey R175, lineups that are sound (O10), throttles that follow their tanks (R63, R96), and writes on lines at rest. -/
def Obligations.SettingsStayInRange : Prop :=
  ∀ s t : State, step s = .next t →
    (SettingsInRange s → SettingsInRange t)
    ∧ (RecordsObey s → RecordsObey t)
    ∧ (WritesAtRest s → WritesAtRest t)
    ∧ (LineupsSound s ∧ ThrottleFollows s → ThrottleFollows t)
    ∧ (RecordsObey s ∧ WritesAtRest s ∧ TargetsBounded s → TargetsBounded t)

/-- R123, R136 to R139: the ranges of the link's counts and queues, and a poll queue that holds exactly the tanks with a
record, each once. -/
def Obligations.LinkCountsStayBounded : Prop :=
  ∀ s t : State, step s = .next t → (LinkBounded s → LinkBounded t) ∧ (PollFollows s → PollFollows t)

/-- R144: while any tank is in OVERFILL, the ESD contact is open. -/
def Obligations.OverfillKeepsTheContactOpen : Prop :=
  ∀ s t : State, OverfillGuarded s → step s = .next t →
    OverfillGuarded t ∧ ((∃ k, t.tankState k = some .overfill) → t.esd.contact = .opened)

/-- R6: the delivered total of a line never falls while the line stays connected. A command that finds a held line takes
that line too (R164), so the premise asks for none (the model's choice, log 6). -/
def Obligations.TotalNeverFalls : Prop :=
  ∀ (c : Instr) (s t : State) (l : LineId), s.port.held = none → exec c s = .next t →
    (s.seq l).state ≠ .disconnected → (t.seq l).state ≠ .disconnected → s.delivered l ≤ t.delivered l

/-! ### What holds of all requests -/

/-- R162: a refused request changes nothing in the part but the reply that waits. -/
def Obligations.RefusalChangesOnlyTheReply : Prop :=
  ∀ (c : Instr) (s t : State) (ws : List String), isRequest c = true → s.port.waiting = none → exec c s = .next t →
    t.port.waiting = some ("?" :: ws) → t = { s with port := replied s ("?" :: ws) }

/-- R162, R182: during start-up every request other than READ is refused STARTING, under
name words of the model's choice (log 23). -/
def Obligations.StartupRefusesRequests : Prop :=
  ∀ (c : Instr) (s : State), isRequest c = true → s.phase = .starting → s.port.waiting = none →
    ∃ name : List String, exec c s = .next { s with port := replied s ("?" :: name ++ ["STARTING"]) }

/-- R162: a line number outside 1 to 4 is refused RANGE; and the cells of the table "Requests by line state"
(03_the_line_sequence.md) that read STATE or BUSY, those of LIMITS with the key ON and the lock CLEAR (R178), those of RESTART
with the first line that stands in the way (R173), and its BUSY during a write (R179). Orders of checks that no rule gives:
log 24. That RESTART names a line by its number alone is the model's choice (log 21). -/
def Obligations.LineRequestsRefused : Prop :=
  (∀ (c : Instr) (s : State) (kw : String) (n : Nat), Ready s → lineOpening c = some (kw, n) → n = 0 ∨ 4 < n →
    exec c s = .next { s with port := replied s ["?", kw, numText n, "RANGE"] })
  ∧ (∀ (c : Instr) (s : State) (kw : String) (l : LineId), Ready s → lineOpening c = some (kw, lineNumber l) →
    refusedInState c (s.seq l).state = true →
    exec c s = .next { s with port := replied s ["?", kw, numText (lineNumber l), "STATE"] })
  ∧ (∀ (l : LineId) (s : State), Ready s → (s.seq l).state = .stroking →
    exec (.stroke (lineNumber l)) s = .next { s with port := replied s ["?", "STROKE", numText (lineNumber l), "BUSY"] })
  ∧ (∀ (l : LineId) (vs : List NumField) (s : State), Ready s → s.key = true → s.store.lock = false →
    (s.seq l).state ∉ [.disconnected, .connected] →
    exec (.limits (lineNumber l) vs) s =
      .next { s with port := replied s ["?", "LIMITS", numText (lineNumber l), "STATE"] })
  ∧ ∀ (s : State), Ready s →
    let busy : LineId → Prop := fun l => (s.seq l).state ∈ [.stroking, .opening, .delivering, .holding, .finishing]
    (∀ l, busy l → (∀ k, k < l → ¬ busy k) →
      exec .restart s = .next { s with port := replied s ["?", "RESTART", "STATE", numText (lineNumber l)] })
    ∧ ∀ w, (∀ l, ¬ busy l) → s.store.write = some w →
      exec .restart s = .next { s with port := replied s ["?", "RESTART", "BUSY", numText (lineNumber w.line)] }

/-- R169 to R171, R175: a READ is taken in every state of the part, answers from the state, and changes nothing else. A
line or tank number outside its range is refused RANGE. The names and form of items that no sample shows, the words of WARN
and the minus sign are the model's choices (log 22). -/
def Obligations.ReadAnswersFromTheState : Prop :=
  ∀ s : State, s.port.waiting = none →
    exec .readStatus s = .next { s with
        port := replied s (["=", "READ", "STATUS", item "STARTUP" s.phase.text, item "CLOCK" (numText s.clock)]
          ++ s.link.items ++ s.tripItems ++ s.storeItems ++ [item "MASK" (listText (s.port.mask.map NoticeKind.text))]) }
    ∧ (∀ l, exec (.readLine (lineNumber l)) s = .next { s with
        port := replied s (["=", "READ", "LINE", numText (lineNumber l)] ++ s.sequenceItems l ++ (s.rate l).items ++ s.measurementItems l
            ++ (s.drive l).items ++ [item "LINEUP" (listText ((s.lineup l).map s.lineupEntry))]) })
    ∧ (∀ k, exec (.readTank (tankNumber k)) s = .next { s with
        port := replied s (["=", "READ", "TANK", numText (tankNumber k)] ++
          match s.tank k with
          | some r => r.recordItems s.clock ++ resultItems r.results
          | none => ["STATE=ABSENT"]) })
    ∧ (let groups := allTanks.filterMap fun k => (s.tank k).map fun r => colons [numText (tankNumber k), r.state.text,
          optText (fun l => numText (lineNumber l)) r.line, r.valve.text, optNum r.vRep, listText r.marks]
       exec .readTanks s = .next { s with
        port := replied s (["=", "READ", "TANKS"] ++ if groups = [] then ["-"] else groups) })
    ∧ exec .readSet s = .next { s with port := replied s (["=", "READ", "SET"] ++ s.settings.items) }
    ∧ (∀ l, exec (.readLimits (lineNumber l)) s = .next { s with
        port := replied s (["=", "READ", "LIMITS", numText (lineNumber l)] ++ s.limitsItems l) })
    ∧ (∀ n, n = 0 ∨ 4 < n →
        exec (.readLine n) s = .next { s with port := replied s ["?", "READ", "LINE", numText n, "RANGE"] }
        ∧ exec (.readLimits n) s = .next { s with port := replied s ["?", "READ", "LIMITS", numText n, "RANGE"] })
    ∧ ∀ n, n = 0 ∨ 16 < n →
        exec (.readTank n) s = .next { s with port := replied s ["?", "READ", "TANK", numText n, "RANGE"] }

/-- R164: a request is taken after the reply that waits has been sent (the model's choice, log 6). -/
def Obligations.WaitingReplyGoesFirst : Prop :=
  ∀ (c : Instr) (s : State) (r : List String), isRequest c = true ∨ isRead c = true → s.port.waiting = some r →
    s.port.held = none →
    exec c s = exec c { s with port := { s.port with waiting := none, out := some (written r) } }

/-! ### Sample events and what comes about in them -/

/-- R2, R3, R5, R6: a sample event enters the pulse count into the window, forms Q_L, counts the totaliser and takes in the
readings, and leaves the other lines, the store, the settings and the port alone. R4, R8 to R14: its measurement stage counts
the over-pressure run, the stretch runs and the runs of the steady detector, and brings the causes, holds, alarms and steady
spells that they call for. R16 to R18: its closure stage forms T_close and Q_surge, and its handing stage T_c. R98 to R101:
its handing stage judges the staleness of each tank of the lineup and evaluates it, in lineup order. R24, R28, R29, R46, R50,
R54, R57, R64 to R70: its drive step forms target_eff, which ends steady where it changes (R14), moves the setpoint by the
ramp or by the loop, runs the tracking check and takes the line's transition; R31, R32: in STROKING it makes the stage of the
stroke test. Clauses on the drive step hold from every state that the two stages before it leave. Where R50 and R54 meet a
failed check, the failure wins by the model's choice (log 45); a setpoint below 50 is left inside the deadband, and raised by
the step alone in SET, by the model's choice (log 44); in the stroke test R28 decides what is on track at 950 to 979 permille,
and the timeout is judged before the check, by the model's choice (log 51, log 52). The steady count and allowance taken up,
and the loop mode that waits for its drive step, stand in fields of the model's own (log 54). -/
def Obligations.SampleEventMeasures : Prop :=
  (∀ (l : LineId) (x : Sample) (s : State), LineupsSound s → ∃ t, exec (.sampleEvent l x) s = .next t
    ∧ (t.meas l).window = (s.meas l).window.drop 1 ++ [x.pulses]
    ∧ (t.meas l).q = (s.limits l).map (fun lim =>
        min 20000 (((s.meas l).window.drop 1 ++ [x.pulses]).sum * 6000 / lim.f))
    ∧ (t.meas l).pTot =
        (if (s.seq l).state = .disconnected then (s.meas l).pTot else (s.meas l).pTot + x.pulses)
    ∧ (t.meas l).dBase = (s.meas l).dBase
    ∧ (t.meas l).steadyN = s.settings.steadyn ∧ (t.meas l).allowed = 20 + ceilDiv ((s.drive l).tStroke.getD 1800) 10
    ∧ ((t.meas l).pressure, (t.meas l).pressureOut) = (match x.pressure with
        | some v => (some v, 0) | none => ((s.meas l).pressure, min 255 ((s.meas l).pressureOut + 1)))
    ∧ ((t.meas l).stretch, (t.meas l).stretchOut) = (match x.stretch with
        | some v => (some v, 0) | none => ((s.meas l).stretch, min 255 ((s.meas l).stretchOut + 1)))
    ∧ ((t.meas l).position, (t.meas l).positionOut) = (match x.position with
        | some v => (some v, 0) | none => ((s.meas l).position, min 255 ((s.meas l).positionOut + 1)))
    ∧ OnlyLine s t l ∧ (∀ k, k ∉ s.lineup l → t.tank k = s.tank k)
    ∧ t.esd.loop = s.esd.loop ∧ t.esd.far = s.esd.far ∧ t.port = s.port ∧ KeepsBase s t)
  -- the measurement stage: the runs, the steady detector, and what they bring
  ∧ (∀ (l : LineId) (x : Sample) (s : State),
    let t := s.measureStage l x
    ((s.seq l).state = .disconnected → t.seq l = s.seq l ∧ (t.meas l).overRun = 0 ∧ (t.meas l).clearRun = 0
        ∧ (t.meas l).tripRun = 0)
      ∧ ((s.seq l).state ≠ .disconnected → AlarmsDistinct s → ∀ lim, s.limits l = some lim →
          RunsJudged l x lim s t
          ∧ ((s.seq l).state = .delivering → (t.seq l).state = .delivering → SteadyJudged l s t)
          ∧ ((s.seq l).state = .delivering → (t.seq l).state ≠ .delivering →
              (t.meas l).steady = false ∧ (t.meas l).inRun = 0 ∧ (t.meas l).outRun = 0)
          ∧ ((s.seq l).state ≠ .delivering → (t.meas l).steady = (s.meas l).steady
              ∧ (t.meas l).inRun = (s.meas l).inRun ∧ (t.meas l).outRun = (s.meas l).outRun)))
  -- the handing stage: Q_L and T_c go to the tank watch, which judges and evaluates each tank of the lineup in order
  ∧ (∀ (l : LineId) (u : State),
    let tc : Option Nat := match (u.seq l).state with
      | .disconnected => none
      | .holding | .finishing => some (match (u.drive l).ramp with
          | some r => 2 * ceilDiv (u.drive l).setpoint r.step
          | none => 0)
      | _ => (u.meas l).tClose
    u.handStage l = (u.lineup l).foldl (fun a k => (a.judgeStale k).evaluate k)
      { u with meass := vset u.meass l { u.meas l with tC := tc, watchQ := (u.meas l).q } })
  -- the four stages, the closure figures and T_c
  ∧ (∀ (l : LineId) (x : Sample) (s : State),
    let v := (s.measureStage l x).closureStage l
    let u := v.driveStage l x.position
    let t := u.handStage l
    exec (.sampleEvent l x) s = .next t
      ∧ ((s.seq l).state = .disconnected → (t.meas l).tClose = none ∧ (t.meas l).qSurge = none ∧ (t.meas l).tC = none)
      ∧ ((s.seq l).state ≠ .disconnected → ∀ lim, s.limits l = some lim →
          let q := min 20000 (((s.meas l).window.drop 1 ++ [x.pulses]).sum * 6000 / lim.f)
          let head := max (lim.pRated - x.pressure.getD lim.pRated) 50
          let stroke := match (s.drive l).tStroke with
            | some n => ceilDiv (n * x.position.getD 1000) 1000
            | none => lim.tMax
          (t.meas l).tClose = some (min lim.tMax (max (ceilDiv (lim.k * q) (100 * head)) (max stroke lim.tMin)))
            ∧ (t.meas l).qSurge = some (lim.tMax * 100 * head / lim.k))
      ∧ ((s.seq l).state ≠ .disconnected →
          (t.meas l).tC = (match (u.seq l).state with
            | .holding | .finishing => some (match (u.drive l).ramp with
                | some r => 2 * ceilDiv (u.drive l).setpoint r.step
                | none => 0)
            | _ => (t.meas l).tClose)))
  -- the drive step of a line that ramps or closes: ramp, tracking check, transition
  ∧ (∀ (l : LineId) (pos : Option Nat) (v : State) (n : Nat),
    let d := v.drive l
    let last := match pos with | some p => some p | none => d.lastPos
    let ramped : Drive := match d.ramp with
      | none => d
      | some r =>
        if absDiff d.setpoint r.target ≤ r.step then { d with setpoint := r.target, ramp := none }
        else { d with setpoint := if d.setpoint < r.target then d.setpoint + r.step else d.setpoint - r.step }
    let moved := if (v.seq l).state = .tripping then d else ramped
    let rested : Drive := { moved with ramp := none, setpoint := 0, track := 0, lastPos := last }
    let u := v.driveStage l pos
    (TracksTo d moved.setpoint pos n →
      (n ≤ 20 + ceilDiv (d.tStroke.getD 1800) 10 →
        ((v.seq l).state = .opening → ∀ lim, v.limits l = some lim →
          ((∃ p, pos = some p ∧ absDiff p lim.startOpening ≤ 20) →
              u.seq l = { v.seq l with
                  state := .delivering
                  pump := (v.seq l).permit && (v.seq l).trips.isEmpty && decide (v.esd.loop = .closed) }
              ∧ u.drive l = { moved with ramp := none, track := 0, lastPos := last }
              ∧ (u.rate l).surgeRun = 0 ∧ (u.rate l).maxRun = 0 ∧ (u.rate l).loopWaits = true
              ∧ (u.meas l).inRun = 0 ∧ (u.meas l).outRun = 0)
          ∧ ((∀ p, pos = some p → 20 < absDiff p lim.startOpening) →
              u.seq l = v.seq l ∧ u.drive l = { moved with track := n, lastPos := last }))
        ∧ ((v.seq l).state ∈ [.holding, .finishing, .tripping] →
          ((∃ p, pos = some p ∧ p ≤ 20) → u.drive l = rested
            ∧ ((v.seq l).state = .holding → u.seq l = { v.seq l with state := .held, pump := false })
            ∧ ((v.seq l).state = .finishing → LineupsSound v →
                u.seq l = { v.seq l with state := .connected, holds := [], pump := false }
                ∧ ∀ k ∈ v.lineup l, ∀ r, v.tank k = some r → TankFinished v u l k r)
            ∧ ((v.seq l).state = .tripping → u.seq l = { v.seq l with state := .tripped, pump := false }))
          ∧ ((∀ p, pos = some p → 20 < p) →
              u.seq l = v.seq l ∧ u.drive l = { moved with track := n, lastPos := last })))
      ∧ (20 + ceilDiv (d.tStroke.getD 1800) 10 < n →
        ((v.seq l).state ∈ [.opening, .holding, .finishing] → TripCause.valveTravel ∉ (v.seq l).trips →
          TrippingBy v u l .valveTravel last)
        ∧ ((v.seq l).state = .tripping → u.drive l = rested ∧ (u.seq l).state = .tripped
            ∧ TripCause.valveTravel ∈ (u.seq l).trips)))
    ∧ ((v.seq l).state = .held → u.seq l = v.seq l ∧ u.drive l = { ramped with lastPos := last })
    ∧ ((v.seq l).state ∈ [.disconnected, .connected, .tripped] →
        u = { v with drives := vset v.drives l { d with lastPos := last } }))
  -- target_eff at the drive step of a line that is not in DELIVERING
  ∧ (∀ (l : LineId) (pos : Option Nat) (v : State) (lim : Limits) (surge e : Nat) (g : Governing),
    (v.seq l).state ∈ [.opening, .holding, .held, .finishing] → v.limits l = some lim → (v.meas l).qSurge = some surge →
    leastTerm (targetTerms (v.rate l) lim surge v.link.gauging) = some (e, g) →
    let u := v.driveStage l pos
    ((u.seq l).state = (v.seq l).state ∨ (u.seq l).state = .held →
        u.rate l = { v.rate l with eff := some e, governing := some g } ∧ u.meas l = v.meas l)
    ∧ ((u.seq l).state = .delivering →
        u.rate l = { v.rate l with eff := some e, governing := some g, surgeRun := 0, maxRun := 0, loopWaits := true })
    ∧ ((u.seq l).state ∈ [.connected, .tripping] → (u.rate l).eff = none ∧ (u.rate l).governing = none))
  -- the drive step of a line in DELIVERING: takeover runs, takeover, target_eff, loop step, tracking check
  ∧ (∀ (l : LineId) (pos : Option Nat) (v : State) (lim : Limits) (q surge e n : Nat) (g : Governing),
    (v.seq l).state = .delivering → v.limits l = some lim → (v.meas l).q = some q → (v.meas l).qSurge = some surge →
    leastTerm (targetTerms (v.rate l) lim surge v.link.gauging) = some (e, g) →
    let d := v.drive l
    let r := v.rate l
    let surgeRun := if surge < q then min 5 (r.surgeRun + 1) else 0
    let maxRun := if lim.qMax < q then min 5 (r.maxRun + 1) else 0
    let why : Option TakeoverReason :=
      if r.throttle = true then some .topping else if 5 ≤ surgeRun then some .surge else if 5 ≤ maxRun then some .maxflow
      else none
    let mode := if why = none then r.mode else .auto
    let sp := match mode with
      | .auto =>
        if q + max (e / 100) 20 < e then max 50 (min 1000 (d.setpoint + lim.loopStep))
        else if e + max (e / 100) 20 < q then max 50 (min 1000 (d.setpoint - lim.loopStep))
        else d.setpoint
      | .freeze => d.setpoint
      | .set =>
        let o := r.opening.getD d.setpoint
        if d.setpoint < o then min o (d.setpoint + lim.loopStep) else max o (d.setpoint - lim.loopStep)
    let u := v.driveStage l pos
    TracksTo d sp pos n →
      (n ≤ 20 + ceilDiv (d.tStroke.getD 1800) 10 →
        u.seq l = v.seq l
        ∧ u.drive l = { d with
            setpoint := sp
            ramp := if sp = d.setpoint then d.ramp else none
            track := n
            lastPos := match pos with | some p => some p | none => d.lastPos }
        ∧ u.rate l = (if r.mode ≠ .auto ∧ why ≠ none then
            { r with mode := .auto, opening := none, surgeRun := 0, maxRun := 0, mark := why, eff := some e,
                     governing := some g, loopWaits := false }
          else { r with surgeRun := surgeRun, maxRun := maxRun, eff := some e, governing := some g, loopWaits := false })
        ∧ u.meas l = (if r.eff ≠ some e then { v.meas l with steady := false, inRun := 0, outRun := 0 } else v.meas l))
      ∧ (20 + ceilDiv (d.tStroke.getD 1800) 10 < n → TripCause.valveTravel ∉ (v.seq l).trips →
        let switched : Rate := if r.mode ≠ .auto ∧ why ≠ none then { r with mode := .auto, opening := none, mark := why } else r
        let taken : Rate := { switched with loopWaits := false }
        TrippingBy { v with rates := vset v.rates l taken } u l .valveTravel
          (match pos with | some p => some p | none => d.lastPos)))
  -- the drive step of a line in STROKING: the stages of the stroke test
  ∧ ∀ (l : LineId) (pos : Option Nat) (v : State) (timer n : Nat), (v.seq l).state = .stroking →
    (v.drive l).stageTimer = some timer →
    let d := v.drive l
    let last := match pos with | some p => some p | none => d.lastPos
    let u := v.driveStage l pos
    let failed (why : StrokeFailure) : Prop :=
      (u.seq l).state = .connected ∧ AlarmPresent u .strokeFailed (.line l)
        ∧ u.drive l = { d with stage := none, stageTimer := none, strokeTimer := none, ramp := none, setpoint := 0,
                               track := 0, lastStroke := some (.failed why), lastPos := last }
    let goesOn (d' : Drive) : Prop :=
      (n ≤ 20 + ceilDiv (d.tStroke.getD 1800) 10 →
        u.seq l = v.seq l ∧ u.drive l = { d' with track := n, lastPos := last })
      ∧ (20 + ceilDiv (d.tStroke.getD 1800) 10 < n → failed .travel)
    (d.stage = some .openMove →
        ((∃ p, pos = some p ∧ 980 ≤ p) → TracksTo d d.setpoint pos n →
          goesOn { d with stage := some .settle, stageTimer := some 0 })
        ∧ ((∀ p, pos = some p → p < 980) →
          (1800 ≤ timer + 2 → failed .openTimeout)
          ∧ (timer + 2 < 1800 → TracksTo d d.setpoint pos n → goesOn { d with stageTimer := some (timer + 2) })))
      ∧ (d.stage = some .settle →
        (20 ≤ timer + 2 → TracksTo d 0 pos n →
          goesOn { d with stage := some .closeMove, stageTimer := some 0, ramp := none, setpoint := 0 })
        ∧ (timer + 2 < 20 → TracksTo d d.setpoint pos n → goesOn { d with stageTimer := some (timer + 2) }))
      ∧ (d.stage = some .closeMove →
        let stroke := match d.strokeTimer with
          | some m => some (m + 2)
          | none => if pos.any (· < 980) then some 0 else none
        (∀ m, stroke = some m → (∃ p, pos = some p ∧ p ≤ 20) →
          let tMeas := ceilDiv (m * 1000) 960
          (20 ≤ tMeas ∧ tMeas ≤ 1800 → AlarmsDistinct v →
            (u.seq l).state = .connected ∧ ¬ AlarmPresent u .strokeFailed (.line l)
            ∧ u.drive l = { d with stage := none, stageTimer := none, strokeTimer := none, tMeas := some tMeas,
                                   track := 0, lastStroke := some (.pass tMeas), lastPos := last }
            ∧ (NoticeKind.done ∈ v.port.mask → Notice.doneStroke l ∈ u.notices))
          ∧ (tMeas < 20 ∨ 1800 < tMeas → failed .outOfRange))
        ∧ (stroke = none ∨ (∀ p, pos = some p → 20 < p) →
          (1800 ≤ timer + 2 → failed .closeTimeout)
          ∧ (timer + 2 < 1800 → TracksTo d d.setpoint pos n →
              goesOn { d with stageTimer := some (timer + 2), strokeTimer := stroke })))

/-- R4, R8, R55, R56, R14, R34, R76: SENSOR_FAULT and OVERPRESSURE take a line into TRIPPING: `LineTrips` gives its sequence,
drive, measurement and rate-control state whole. The rows taken alone: the model's choice (log 3). -/
def Obligations.SensorAndPressureTrips : Prop :=
  (∀ (l : LineId) (s : State), (s.seq l).state ∈ [.opening, .delivering, .holding, .held, .finishing] →
    5 ≤ (s.meas l).pressureOut ∨ 5 ≤ (s.meas l).stretchOut ∨ 5 ≤ (s.meas l).positionOut →
    TripCause.sensorFault ∉ (s.seq l).trips →
    ∃ t, exec (.sensorFault l) s = .next t ∧ TrippingBy s t l .sensorFault (s.drive l).lastPos
      ∧ t = { s with seqs := t.seqs, rates := t.rates, meass := t.meass, drives := t.drives, alarms := t.alarms,
                     horn := t.horn, notices := t.notices })
  ∧ ∀ (l : LineId) (s : State), (s.seq l).state ∉ [.disconnected, .tripping, .tripped] → 3 ≤ (s.meas l).overRun →
    TripCause.overpressure ∉ (s.seq l).trips →
    ∃ t, exec (.overpressure l) s = .next t ∧ TrippingBy s t l .overpressure (s.drive l).lastPos
      ∧ t = { s with seqs := t.seqs, rates := t.rates, meass := t.meass, drives := t.drives, alarms := t.alarms,
                     horn := t.horn, notices := t.notices }

/-- R12, R147, R14, R34, R56, R76: a stretch trip takes its line into TRIPPING, as `LineTrips` gives it whole, and opens the ESD
contact (row taken alone: log 3). -/
def Obligations.StretchTripOpensTheContact : Prop :=
  ∀ (l : LineId) (s : State), (s.seq l).state ∉ [.disconnected, .tripping, .tripped] → 2 ≤ (s.meas l).tripRun →
    TripCause.stretchTrip ∉ (s.seq l).trips →
    ∃ t, exec (.stretchTrip l) s = .next t ∧ TrippingBy s t l .stretchTrip (s.drive l).lastPos
      ∧ (∀ d, d ∈ t.device ↔ d = .stretchTrip l ∨ d ∈ s.device) ∧ t.esd = { s.esd with contact := .opened }
      ∧ t = { s with seqs := t.seqs, rates := t.rates, meass := t.meass, drives := t.drives, esd := t.esd,
                     device := t.device, alarms := t.alarms, horn := t.horn, notices := t.notices }

/-- R28, R29, R57: a failed tracking check trips the line, ends a TRIPPING line in TRIPPED, whether or not VALVE_TRAVEL
stands in its set already, or fails a stroke test. The row taken alone judges by the allowance that the latest sample event took
up (log 3, log 54), and at or under it nothing changes. -/
def Obligations.TrackingCheckFails : Prop :=
  (∀ (l : LineId) (s : State), (s.drive l).track ≤ (s.meas l).allowed → exec (.trackingCheckFail l) s = .next s)
  ∧ ∀ (l : LineId) (s : State), (s.meas l).allowed < (s.drive l).track →
    ((s.seq l).state ∈ [.opening, .delivering, .holding, .finishing] → TripCause.valveTravel ∉ (s.seq l).trips →
      ∃ t, exec (.trackingCheckFail l) s = .next t ∧ TrippingBy s t l .valveTravel (s.drive l).lastPos
        ∧ t = { s with seqs := t.seqs, rates := t.rates, meass := t.meass, drives := t.drives, alarms := t.alarms,
                       horn := t.horn, notices := t.notices })
    ∧ ((s.seq l).state = .tripping →
      ∃ t, exec (.trackingCheckFail l) s = .next t
        ∧ t.seq l = { s.seq l with
            state := .tripped
            pump := false
            trips := if TripCause.valveTravel ∈ (s.seq l).trips then (s.seq l).trips
              else setInsert TripCause.all .valveTravel (s.seq l).trips }
        ∧ t.drive l = { s.drive l with ramp := none, setpoint := 0, track := 0 }
        ∧ (TripCause.valveTravel ∉ (s.seq l).trips → AlarmPresent t .valveTravel (.line l))
        ∧ (TripCause.valveTravel ∈ (s.seq l).trips → t.alarms = s.alarms) ∧ OnlyLine s t l
        ∧ t = { s with seqs := t.seqs, rates := t.rates, drives := t.drives, alarms := t.alarms, horn := t.horn,
                       notices := t.notices })
    ∧ ((s.seq l).state = .stroking →
      ∃ t, exec (.trackingCheckFail l) s = .next t ∧ StrokeFailed s t l .travel)

/-- R31 to R33: the stages of a stroke test that run out (rows taken alone: log 3). -/
def Obligations.StrokeStagesEnd : Prop :=
  ∀ (l : LineId) (s : State) (n : Nat), (s.seq l).state = .stroking → (s.drive l).stageTimer = some n →
    ((s.drive l).stage = some .openMove → 1800 ≤ n →
      ∃ t, exec (.openTimeout l) s = .next t ∧ StrokeFailed s t l .openTimeout)
    ∧ ((s.drive l).stage = some .closeMove → 1800 ≤ n →
      ∃ t, exec (.closeTimeout l) s = .next t ∧ StrokeFailed s t l .closeTimeout)
    ∧ ((s.drive l).stage = some .settle → 20 ≤ n →
      exec (.settleEnd l) s = .next { s with
        drives := vset s.drives l { s.drive l with ramp := none, setpoint := 0, stage := some .closeMove, stageTimer := some 0 } })

/-- R69, R70: a takeover switches a FREEZE or SET loop to AUTO and says why, the first reason of the table that holds.
A mode chosen since the latest drive step in DELIVERING waits for the next (R71), and nothing changes. The row taken alone: log 3,
log 54. -/
def Obligations.TakeoverSwitchesToAuto : Prop :=
  (∀ (l : LineId) (s : State), (s.rate l).loopWaits = true → exec (.takeover l) s = .next s)
  ∧ ∀ (l : LineId) (s : State) (why : TakeoverReason), (s.seq l).state = .delivering → (s.rate l).mode ≠ .auto →
    (s.rate l).loopWaits = false →
    ((s.rate l).throttle = true ∧ why = .topping
      ∨ (s.rate l).throttle = false ∧ 5 ≤ (s.rate l).surgeRun ∧ why = .surge
      ∨ (s.rate l).throttle = false ∧ (s.rate l).surgeRun < 5 ∧ 5 ≤ (s.rate l).maxRun ∧ why = .maxflow) →
    exec (.takeover l) s = .next { s with
      rates := vset s.rates l { s.rate l with mode := .auto, opening := none, surgeRun := 0, maxRun := 0, mark := some why }
      notices := noticesWith s (.loop l) }

/-- R13, R14, R11: entry into steady, its loss without a change of target, and the end of a stretch warning.
R15: entry is judged by the steady count that the latest sample event took up, and below it nothing changes.
The rows taken alone: log 3, log 54. -/
def Obligations.DetectorsAct : Prop :=
  (∀ (l : LineId) (s : State), (s.meas l).inRun < (s.meas l).steadyN → exec (.enterSteady l) s = .next s)
  ∧ (∀ (l : LineId) (s : State), (s.seq l).state = .delivering → (s.meas l).steady = false →
    (s.meas l).steadyN ≤ (s.meas l).inRun → AlarmsDistinct s →
    ∃ t, exec (.enterSteady l) s = .next t
      ∧ t.meas l = { s.meas l with steady := true, inRun := 0, outRun := 0, epoch := ((s.meas l).epoch + 1) % 65536,
                                   band := .running }
      ∧ ¬ AlarmPresent t .flowUnsteady (.line l) ∧ (NoticeKind.line ∈ s.port.mask → Notice.line l ∈ t.notices)
      ∧ OnlyLine s t l
      ∧ t = { s with meass := t.meass, alarms := t.alarms, horn := t.horn, notices := t.notices })
  ∧ (∀ (l : LineId) (s : State), (s.seq l).state = .delivering → (s.meas l).steady = true → 3 ≤ (s.meas l).outRun →
    ∃ t, exec (.flowUnsteady l) s = .next t
      ∧ t.meas l = { s.meas l with steady := false, inRun := 0, outRun := 0 }
      ∧ AlarmPresent t .flowUnsteady (.line l) ∧ (NoticeKind.line ∈ s.port.mask → Notice.line l ∈ t.notices)
      ∧ OnlyLine s t l
      ∧ t = { s with meass := t.meass, alarms := t.alarms, horn := t.horn, notices := t.notices })
  ∧ ∀ (l : LineId) (s : State), (s.meas l).warn = true → 50 ≤ (s.meas l).clearRun → AlarmsDistinct s →
    ∃ t, exec (.stretchWarnClear l) s = .next t
      ∧ t.meas l = { s.meas l with warn := false }
      ∧ t.seq l = { s.seq l with holds := setErase .stretch (s.seq l).holds, pump := pumpPermit (s.seq l) s.esd.loop }
      ∧ ¬ AlarmPresent t .stretchWarn (.line l) ∧ OnlyLine s t l
      ∧ t = { s with seqs := t.seqs, meass := t.meass, alarms := t.alarms, horn := t.horn, notices := t.notices }

/-! ### Requests of a line -/

/-- R40, R6, R9, R21: CONNECT, taken, and refused RANGE for a grade and BLANK for a record that is none or being written. -/
def Obligations.ConnectTaken : Prop :=
  ∀ (l : LineId) (g : Nat) (s : State), Ready s → (s.seq l).state = .disconnected →
    let refused (why : String) : Prop :=
      exec (.connect (lineNumber l) g) s = .next { s with port := replied s ["?", "CONNECT", numText (lineNumber l), why] }
    (1 ≤ g → g ≤ 4 → s.limits l ≠ none → s.writing l = false →
      exec (.connect (lineNumber l) g) s = .next { s with
        seqs := vset s.seqs l { s.seq l with state := .connected, grade := some g, pump := false }
        meass := vset s.meass l { s.meas l with pTot := 0, dBase := 0, band := .settling }
        drives := vset s.drives l { s.drive l with enabled := true, ramp := none, setpoint := 0 }
        port := replied s ["=", "CONNECT", numText (lineNumber l), "CONNECTED", numText g]
        notices := noticesWith s (.line l) })
    ∧ (g < 1 ∨ 4 < g → refused "RANGE")
    ∧ (1 ≤ g → g ≤ 4 → s.limits l = none ∨ s.writing l = true → refused "BLANK")

/-- R41, R19, R21, R33, R76, R82, R86, R94: DISCONNECT makes every tank of the lineup LISTED, with its pending directory
entry applied, turns the drive off, ends the line's STRETCH_WARN and STROKE_FAILED conditions, and leaves everything else.
That the reply gives DISCONNECTED is the model's choice (log 21). -/
def Obligations.DisconnectTaken : Prop :=
  ∀ (l : LineId) (s : State), Ready s → (s.seq l).state = .connected → LineupsSound s → AlarmsDistinct s →
    ∃ t, exec (.disconnect (lineNumber l)) s = .next t
      ∧ t.seq l = { s.seq l with
          state := .disconnected, grade := none, permit := false, pump := false
          holds := if 0 < s.countIn l .full then setErase .tankFull (s.seq l).holds else (s.seq l).holds }
      ∧ t.drive l = { s.drive l with enabled := false, ramp := none, setpoint := 0, track := 0 }
      ∧ t.rate l = { s.rate l with
          eff := none, governing := none
          throttle := if 0 < s.countIn l .topping then false else (s.rate l).throttle }
      ∧ t.meas l = { s.meas l with
          overRun := 0, warn := false, clearRun := 0, tripRun := 0, steady := false, inRun := 0, outRun := 0
          tClose := none, qSurge := none, tC := none }
      ∧ t.lineup l = []
      ∧ (∀ k ∈ s.lineup l, ∀ r, s.tank k = some r →
          let listed := { r with state := .listed, timer := none, line := none, stale := false }
          t.tank k = match r.pendingEntry with
            | none => some listed
            | some .vanished => none
            | some (.entry e) => some (listed.withEntry e))
      ∧ (∀ k, k ∉ s.lineup l → t.tank k = s.tank k)
      ∧ ¬ AlarmPresent t .stretchWarn (.line l) ∧ ¬ AlarmPresent t .strokeFailed (.line l)
      ∧ (∀ a : Alarm, (a.kind, a.object) ∉ [(.stretchWarn, .line l), (.strokeFailed, .line l)] →
          (∀ k ∈ s.lineup l, (a.kind, a.object) ≠ (.changeoverLate, .tank k)) → (a ∈ t.alarms ↔ a ∈ s.alarms))
      ∧ (∀ n, n ∉ [.line l, .alarm .stretchWarn (.line l), .alarm .strokeFailed (.line l)] →
          (∀ k ∈ s.lineup l, n ≠ .tank k ∧ n ≠ .alarm .changeoverLate (.tank k)) → (n ∈ t.notices ↔ n ∈ s.notices))
      ∧ (let gone (k : TankId) : Bool := decide (k ∈ s.lineup l) && (t.tank k).isNone
         t.link = { s.link with poll := s.link.poll.filter fun k => !gone k
                                advices := s.link.advices.filter fun a => !gone a.1 })
      ∧ t.port = replied s ["=", "DISCONNECT", numText (lineNumber l), "DISCONNECTED"]
      ∧ OnlyLine s t l
      ∧ t = { s with seqs := t.seqs, rates := t.rates, meass := t.meass, drives := t.drives, lineups := t.lineups,
                     tanks := t.tanks, link := t.link, alarms := t.alarms, horn := t.horn, notices := t.notices,
                     port := t.port }

/-- R42, R30, R76: STROKE begins a test, and is refused STATE with PERMIT for a line that holds a ship permit; R35: STROKESET
stores or removes the override. Reply words that no sample shows, and the hyphen for a T_stroke left absent: log 21. -/
def Obligations.StrokeAndStrokesetTaken : Prop :=
  (∀ (l : LineId) (s : State), Ready s → (s.seq l).state = .connected → (s.seq l).permit = false →
    exec (.stroke (lineNumber l)) s = .next { s with
      seqs := vset s.seqs l { s.seq l with state := .stroking, pump := false }
      rates := vset s.rates l { s.rate l with eff := none, governing := none }
      drives := vset s.drives l { s.drive l with ramp := none, setpoint := 1000, stage := some .openMove,
                                                 stageTimer := some 0, strokeTimer := none, track := 0 }
      port := replied s ["=", "STROKE", numText (lineNumber l), "STROKING"]
      notices := noticesWith s (.line l) })
  ∧ (∀ (l : LineId) (s : State), Ready s → (s.seq l).state = .connected → (s.seq l).permit = true →
    exec (.stroke (lineNumber l)) s = .next { s with
      port := replied s ["?", "STROKE", numText (lineNumber l), "STATE", "PERMIT"] })
  ∧ (∀ (l : LineId) (v : Nat) (s : State), Ready s →
    let used := max 20 (min 1800 v)
    let d := { s.drive l with tOvr := some used }
    exec (.strokeset (lineNumber l) (some v)) s = .next { s with
      drives := vset s.drives l d
      port := replied s (["=", "STROKESET", numText (lineNumber l), numText used, optNum d.tStroke]
        ++ (if v = used then [] else ["CLAMPED"]) ++ d.heldToMeasured) })
  ∧ ∀ (l : LineId) (s : State), Ready s → (s.seq l).state ∈ [.disconnected, .connected] →
    exec (.strokeset (lineNumber l) none) s = .next { s with
      drives := vset s.drives l { s.drive l with tOvr := none }
      port := replied s ["=", "STROKESET", numText (lineNumber l), "NONE",
        optNum ({ s.drive l with tOvr := none } : Drive).tStroke] }

/-- R61, R137: PERMIT queues a query in LINKED gauging; PERMIT CONFIRM sets the permit at once in MANUAL gauging. PERMIT is
refused LINK in MANUAL gauging and outside GOOD and POOR, PERMIT CONFIRM in LINKED gauging.
Reply words that no sample shows: log 21. -/
def Obligations.PermitTaken : Prop :=
  (∀ (l : LineId) (s : State), Ready s → (s.seq l).state ∈ [.connected, .held] → s.link.gauging = .linked →
    s.link.state ∈ [.good, .poor] →
    exec (.permit (lineNumber l)) s = .next { s with
      link := { s.link with
        queries := if l ∈ s.link.queries then s.link.queries else s.link.queries ++ [l]
        outcomes := vset s.link.outcomes l (some .pending) }
      notices := if vget s.link.outcomes l = some .pending then s.notices else noticesWith s (.line l)
      port := replied s ["=", "PERMIT", numText (lineNumber l), "QUERIED"] })
  ∧ (∀ (l : LineId) (s : State), Ready s → (s.seq l).state ∈ [.connected, .held] → s.link.gauging = .manual →
    let q := { s.seq l with permit := true, pump := false }
    exec (.permitConfirm (lineNumber l)) s = .next { s with
      seqs := vset s.seqs l q
      notices := if q = s.seq l then s.notices else noticesWith s (.line l)
      port := replied s ["=", "PERMIT", numText (lineNumber l), "GRANTED"] })
  ∧ ∀ (l : LineId) (s : State), Ready s → (s.seq l).state ∈ [.connected, .held] →
    let refused : State := { s with port := replied s ["?", "PERMIT", numText (lineNumber l), "LINK"] }
    (s.link.gauging = .manual ∨ s.link.state ∉ [.good, .poor] → exec (.permit (lineNumber l)) s = .next refused)
    ∧ (s.link.gauging = .linked → exec (.permitConfirm (lineNumber l)) s = .next refused)

/-- R44, R45, R64, R65: START, with every check of R44 passed, and the refusals of its rows 3 to 9, each with the rows before it
passed. Before the first sample event Q_surge is a free value (log 15), and the statement holds for each. The order of the
causes of TRIP, the names of the transmitters and the order of the FULL tanks are the model's choices (log 21), and so is that
a START without a number is refused SYNTAX before its state is judged (log 24). That NO_OUTLET, and not FULL, refuses it with a
FULL tank and no FILLING one is the model's choice too: the order of R44 against the words of R110 and R111 (log 55). -/
def Obligations.StartTaken : Prop :=
  (∀ (l : LineId) (asked : Nat) (s : State) (lim : Limits), Ready s → (s.seq l).state = .connected →
    s.limits l = some lim → s.writing l = false → s.esd.loop = .closed → s.pressureHigh l = false →
    s.stretchHigh l = false → s.device = [] →
    (s.meas l).pressureOut < 5 ∧ (s.meas l).stretchOut < 5 ∧ (s.meas l).positionOut < 5 →
    (s.seq l).permit = true → (s.drive l).tStroke ≠ none → 0 < s.countIn l .filling →
    (∀ k ∈ s.lineup l, s.tankState k ≠ some .full) → (s.seq l).trips = [] →
    let used := max 100 (min lim.qMax asked)
    let least := leastTerm (targetTerms { s.rate l with target := used } lim (s.surgeTerm l) s.link.gauging)
    ∃ t, exec (.start (lineNumber l) (some asked)) s = .next t
      ∧ t.seq l = { s.seq l with state := .opening, holds := setErase .operator (s.seq l).holds, pump := true }
      ∧ t.rate l = { s.rate l with target := used, eff := least.map (·.1), governing := least.map (·.2) }
      ∧ t.drive l = ((s.drive l).rampTo lim.startOpening
          (halfSpeedTime ((s.drive l).tStroke.getD 0) (s.drive l).setpoint lim.startOpening)).trackFrom0
      ∧ t.port = replied s (["=", "START", numText (lineNumber l), "OPENING", numText used]
          ++ (if asked = used then [] else ["CLAMPED"]))
      ∧ OnlyLine s t l
      ∧ t = { s with seqs := t.seqs, rates := t.rates, drives := t.drives, notices := t.notices, port := t.port })
  ∧ (∀ (l : LineId) (s : State), Ready s →
    exec (.start (lineNumber l) none) s = .next { s with
      port := replied s ["?", "START", numText (lineNumber l), "SYNTAX"] })
  -- rows 3 to 9, in their order
  ∧ ∀ (l : LineId) (asked : Nat) (s : State), Ready s → (s.seq l).state = .connected →
    let m := s.meas l
    let refused (why : List String) : Prop := exec (.start (lineNumber l) (some asked)) s = .next { s with
      port := replied s (["?", "START", numText (lineNumber l)] ++ why) }
    let high : Prop := ∃ lim p, s.limits l = some lim ∧ m.pressure = some p ∧ lim.pRated < p
    let stretched : Prop := ∃ lim e, s.limits l = some lim ∧ m.stretch = some e ∧ lim.tripLimit < e
    let tripped : Prop := s.esd.loop = .opened ∨ s.device ≠ [] ∨ high ∨ stretched
    let faulted : Prop := 5 ≤ m.pressureOut ∨ 5 ≤ m.stretchOut ∨ 5 ≤ m.positionOut
    let full := (s.lineup l).filter fun k => decide (s.tankState k = some .full)
    (s.writing l = true → refused ["BUSY"])
    ∧ (s.writing l = false →
      (tripped → refused ("TRIP"
        :: ((if s.esd.loop = .opened then ["ESD_IN"] else []) ++ (if s.pressureHigh l = true then ["OVERPRESSURE"] else [])
          ++ (if s.stretchHigh l = true then ["STRETCH_TRIP"] else [])
          ++ (s.device.filter fun d => !(decide (d = .esdIn) && decide (s.esd.loop = .opened))).flatMap DeviceTrip.text)))
      ∧ (s.pressureHigh l = true ↔ high) ∧ (s.stretchHigh l = true ↔ stretched)
      ∧ (¬ tripped →
        (faulted → refused ("SENSOR" :: ((if 5 ≤ m.pressureOut then ["PRESSURE"] else [])
          ++ (if 5 ≤ m.stretchOut then ["STRETCH"] else []) ++ (if 5 ≤ m.positionOut then ["POSITION"] else []))))
        ∧ (¬ faulted →
          ((s.seq l).permit = false → refused ["PERMIT"])
          ∧ ((s.seq l).permit = true →
            ((s.drive l).tMeas = none ∧ (s.drive l).tOvr = none → refused ["UNCHECKED"])
            ∧ ((s.drive l).tMeas ≠ none ∨ (s.drive l).tOvr ≠ none →
              ((∀ k ∈ s.lineup l, s.tankState k ≠ some .filling) → refused ["NO_OUTLET"])
              ∧ ((∃ k ∈ s.lineup l, s.tankState k = some .filling) → full ≠ [] →
                  refused ("FULL" :: full.map fun k => numText (tankNumber k))))))))

/-- R72 to R74: RATE replaces the console rate target, or stores the pending one, and a rate target change clears the
rings of the lineup; an equal target keeps them. A RATE without a number is refused SYNTAX before its state is judged (the
model's choice, log 24). Before the first sample event Q_surge is a free value (log 15), and the
statement holds for each. -/
def Obligations.RateTaken : Prop :=
  (∀ (l : LineId) (s : State), Ready s →
    exec (.rate (lineNumber l) none) s = .next { s with port := replied s ["?", "RATE", numText (lineNumber l), "SYNTAX"] })
  ∧ ∀ (l : LineId) (asked : Nat) (s : State) (lim : Limits), Ready s → s.limits l = some lim →
    let used := max 100 (min lim.qMax asked)
    let least := leastTerm (targetTerms { s.rate l with target := used } lim (s.surgeTerm l) s.link.gauging)
    ((s.seq l).state ∈ [.opening, .delivering] →
      ∃ t, exec (.rate (lineNumber l) (some asked)) s = .next t
        ∧ t.rate l = { s.rate l with target := used, eff := least.map (·.1), governing := least.map (·.2) }
        ∧ t.meas l = (if (s.seq l).state = .delivering ∧ (s.rate l).eff ≠ least.map (·.1) then
            { s.meas l with steady := false, inRun := 0, outRun := 0 } else s.meas l)
        ∧ ((s.rate l).target ≠ used → ∀ k ∈ s.lineup l,
            t.tank k = (s.tank k).map fun r => { r with ring := [], anchor := none })
        ∧ ((s.rate l).target = used → t.tanks = s.tanks) ∧ (∀ k, k ∉ s.lineup l → t.tank k = s.tank k)
        ∧ t.port = replied s (["=", "RATE", numText (lineNumber l), (s.seq l).state.text, numText used,
            optNum (t.rate l).eff, optText Governing.text (t.rate l).governing]
            ++ (if asked = used then [] else ["CLAMPED"]))
        ∧ OnlyLine s t l
        ∧ t = { s with rates := t.rates, meass := t.meass, tanks := t.tanks, notices := t.notices, port := t.port })
    ∧ ((s.seq l).state ∈ [.holding, .held] →
      ∃ t, exec (.rate (lineNumber l) (some asked)) s = .next t
        ∧ t.rate l = { s.rate l with pendingTarget := some used }
        ∧ ((s.rate l).pendingTarget.getD (s.rate l).target ≠ used → ∀ k ∈ s.lineup l,
            t.tank k = (s.tank k).map fun r => { r with ring := [], anchor := none })
        ∧ ((s.rate l).pendingTarget.getD (s.rate l).target = used → t.tanks = s.tanks)
        ∧ (∀ k, k ∉ s.lineup l → t.tank k = s.tank k)
        ∧ t.port = replied s (["=", "RATE", numText (lineNumber l), (s.seq l).state.text, numText (s.rate l).target,
            "STORED", numText used] ++ (if asked = used then [] else ["CLAMPED"]))
        ∧ OnlyLine s t l
        ∧ t = { s with rates := t.rates, tanks := t.tanks, port := t.port })

/-- R71: the three loop modes, and a LOOP without one, refused SYNTAX. A changed mode waits for the next drive step in DELIVERING
(log 54). The order of the reply's last words: log 21. -/
def Obligations.LoopTaken : Prop :=
  (∀ (l : LineId) (s : State), Ready s → (s.seq l).state ≠ .disconnected →
    exec (.loop (lineNumber l) none) s = .next { s with port := replied s ["?", "LOOP", numText (lineNumber l), "SYNTAX"] })
  ∧ ∀ (l : LineId) (w : LoopWord) (s : State), Ready s → (s.seq l).state ≠ .disconnected →
    let chosen := match w with
      | .auto => { s.rate l with mode := .auto, opening := none }
      | .freeze => { s.rate l with mode := .freeze, opening := none }
      | .set o => { s.rate l with mode := .set, opening := some (max 50 (min 1000 o)) }
    let r := if chosen.mode = (s.rate l).mode then chosen else { chosen with loopWaits := true }
    ∃ ws, exec (.loop (lineNumber l) (some w)) s = .next { s with
      rates := vset s.rates l r
      notices := if r.mode = (s.rate l).mode then s.notices else noticesWith s (.line l)
      port := replied s (["=", "LOOP", numText (lineNumber l), r.mode.text] ++ ws) }

/-- R51, R47, R48: HOLD holds a moving line on its profile, or adds OPERATOR to a paused one. R14, R76: a line that leaves
DELIVERING leaves steady, with its takeover runs at 0. Readings that no
sample event has given yet are free values (log 14). That the stored T_close stays when the closure begins is the model's
choice (log 46). -/
def Obligations.HoldTaken : Prop :=
  (∀ (l : LineId) (s : State), Ready s → (s.seq l).state ∈ [.opening, .delivering] →
    HoldCause.operator ∉ (s.seq l).holds →
    let held := setInsert HoldCause.all .operator (s.seq l).holds
    ∃ t, exec (.hold (lineNumber l)) s = .next t
      ∧ t.seq l = { s.seq l with
          state := .holding
          holds := held
          pump := (s.seq l).permit && (s.seq l).trips.isEmpty && decide (s.esd.loop = .closed) }
      ∧ t.drive l = ((s.drive l).rampTo 0 (s.freshTClose l)).trackFrom0
      ∧ (t.rate l).pendingTarget = (s.rate l).pendingTarget ∧ LeftDelivering s t l
      ∧ ((s.seq l).holds = [] → held = [.operator])
      ∧ t.port = replied s (["=", "HOLD", numText (lineNumber l), "HOLDING"] ++ held.map HoldCause.text)
      ∧ OnlyLine s t l
      ∧ t = { s with seqs := t.seqs, rates := t.rates, meass := t.meass, drives := t.drives, alarms := t.alarms,
                     horn := t.horn, notices := t.notices, port := t.port })
  ∧ (∀ (l : LineId) (s : State), Ready s → (s.seq l).state ∈ [.opening, .delivering] →
    HoldCause.operator ∈ (s.seq l).holds →
    exec (.hold (lineNumber l)) s = .next { s with
      port := replied s (["=", "HOLD", numText (lineNumber l), (s.seq l).state.text] ++ (s.seq l).holds.map HoldCause.text) })
  ∧ ∀ (l : LineId) (s : State), Ready s → (s.seq l).state ∈ [.holding, .held] →
    let q := if HoldCause.operator ∈ (s.seq l).holds then s.seq l
      else { s.seq l with holds := setInsert HoldCause.all .operator (s.seq l).holds,
                          pump := pumpPermit (s.seq l) s.esd.loop }
    exec (.hold (lineNumber l)) s = .next { s with
      seqs := vset s.seqs l q
      notices := if q = s.seq l then s.notices else noticesWith s (.line l)
      port := replied s (["=", "HOLD", numText (lineNumber l), q.state.text] ++ q.holds.map HoldCause.text) }

/-- R52, R73, R95: RESUME, with every check of R52 passed, and its refusals CAUSES, PERMIT and NO_OUTLET, each with the checks
before it passed. Before the first sample event Q_surge is a free value (log 15), and the statement holds for each. -/
def Obligations.ResumeTaken : Prop :=
  (∀ (l : LineId) (s : State) (lim : Limits), Ready s → (s.seq l).state ∈ [.holding, .held] →
    (∀ c ∈ (s.seq l).holds, c = .operator) → (s.seq l).permit = true → 0 < s.countIn l .filling →
    s.limits l = some lim →
    let target := (s.rate l).pendingTarget.getD (s.rate l).target
    let least := leastTerm (targetTerms { s.rate l with target := target } lim (s.surgeTerm l) s.link.gauging)
    ∃ t, exec (.resume (lineNumber l)) s = .next t
      ∧ t.seq l = { s.seq l with
          state := .opening
          holds := []
          pump := (s.seq l).trips.isEmpty && decide (s.esd.loop = .closed) }
      ∧ t.rate l = { s.rate l with target := target, pendingTarget := none, eff := least.map (·.1),
                                   governing := least.map (·.2) }
      ∧ t.drive l = ((s.drive l).rampTo lim.startOpening
          (halfSpeedTime ((s.drive l).tStroke.getD 0) (s.drive l).setpoint lim.startOpening)).trackFrom0
      ∧ (∀ k ∈ s.lineup l, t.tank k = (s.tank k).map fun r => { r with ring := [], anchor := none })
      ∧ (∀ k, k ∉ s.lineup l → t.tank k = s.tank k)
      ∧ t.port = replied s ["=", "RESUME", numText (lineNumber l), "OPENING"]
      ∧ OnlyLine s t l
      ∧ t = { s with seqs := t.seqs, rates := t.rates, drives := t.drives, tanks := t.tanks, notices := t.notices,
                     port := t.port })
  ∧ ∀ (l : LineId) (s : State), Ready s → (s.seq l).state ∈ [.holding, .held] →
    let others := (s.seq l).holds.filter fun c => !decide (c = .operator)
    let refused (why : List String) : Prop := exec (.resume (lineNumber l)) s = .next { s with
      port := replied s (["?", "RESUME", numText (lineNumber l)] ++ why) }
    (others ≠ [] → refused ("CAUSES" :: others.map HoldCause.text))
    ∧ (others = [] →
      ((s.seq l).permit = false → refused ["PERMIT"])
      ∧ ((s.seq l).permit = true → (∀ k ∈ s.lineup l, s.tankState k ≠ some .filling) → refused ["NO_OUTLET"]))

/-- R53, R54, R94: FINISH begins or continues the closure, or takes a HELD line to CONNECTED and its tanks to LISTED, with a
pending entry applied (R86), or to RELEASING with a timer (R93). R14, R76: a line that leaves DELIVERING leaves steady, with
its takeover runs at 0. Readings that no sample event has given yet are free values (log 14). The model's choices: the stored
T_close stays when the closure begins (log 46), and the reply to FINISH in HELD gives CONNECTED (log 21). -/
def Obligations.FinishTaken : Prop :=
  ∀ (l : LineId) (s : State), Ready s →
    ((s.seq l).state ∈ [.opening, .delivering, .holding] →
      ∃ t, exec (.finish (lineNumber l)) s = .next t
        ∧ t.seq l = { s.seq l with state := .finishing, permit := false, pump := false }
        ∧ t.drive l = (if (s.seq l).state = .holding then (s.drive l).trackFrom0
            else ((s.drive l).rampTo 0 (s.freshTClose l)).trackFrom0)
        ∧ (t.rate l).pendingTarget = none ∧ LeftDelivering s t l
        ∧ t.port = replied s ["=", "FINISH", numText (lineNumber l), "FINISHING"] ∧ OnlyLine s t l
        ∧ t = { s with seqs := t.seqs, rates := t.rates, meass := t.meass, drives := t.drives, alarms := t.alarms,
                       horn := t.horn, notices := t.notices, port := t.port })
    ∧ ((s.seq l).state = .held → LineupsSound s →
      ∃ t, exec (.finish (lineNumber l)) s = .next t
        ∧ t.seq l = { s.seq l with state := .connected, holds := [], permit := false, pump := false }
        ∧ t.drive l = { s.drive l with ramp := none, setpoint := 0, track := 0 }
        ∧ t.rate l = { s.rate l with
            pendingTarget := none, eff := none, governing := none
            throttle := if 0 < s.countIn l .topping then false else (s.rate l).throttle }
        ∧ t.meas l = s.meas l
        ∧ (∀ k ∈ s.lineup l, ∀ r, s.tank k = some r → TankFinished s t l k r)
        ∧ (∀ k, k ∉ s.lineup l → t.tank k = s.tank k)
        ∧ t.port = replied s ["=", "FINISH", numText (lineNumber l), "CONNECTED"] ∧ OnlyLine s t l
        ∧ KeepsBase s t ∧ KeepsTrips s t)

/-- R58: CLEAR of a line whose conditions are gone; with any of them standing it is refused TRIP, with the line's own causes
that persist and the members of the device set. -/
def Obligations.ClearTaken : Prop :=
  (∀ (l : LineId) (s : State) (p : Nat), Ready s → (s.seq l).state = .tripped → s.device = [] →
    s.esd.far = .closed → s.pressureHigh l = false → s.stretchHigh l = false →
    (s.meas l).pressureOut = 0 ∧ (s.meas l).stretchOut = 0 ∧ (s.meas l).positionOut = 0 →
    (s.meas l).position = some p → p ≤ 20 → AlarmsDistinct s →
    ∃ t, exec (.clear (lineNumber l)) s = .next t
      ∧ t.seq l = { s.seq l with state := .connected, trips := [], holds := [], pump := false }
      ∧ t.drive l = { s.drive l with ramp := none, setpoint := 0, track := 0 }
      ∧ t.rate l = { s.rate l with eff := none, governing := none, pendingTarget := none }
      ∧ (∀ c ∈ (s.seq l).trips, ¬ AlarmPresent t c.alarm (.line l))
      ∧ t.port = replied s ["=", "CLEAR", numText (lineNumber l), "CONNECTED"] ∧ OnlyLine s t l
      ∧ t = { s with seqs := t.seqs, rates := t.rates, drives := t.drives, alarms := t.alarms, horn := t.horn,
                     notices := t.notices, port := t.port })
  ∧ ∀ (l : LineId) (s : State), Ready s → (s.seq l).state = .tripped →
    let m := s.meas l
    let closed : Prop := m.positionOut = 0 ∧ ∃ p, m.position = some p ∧ p ≤ 20
    let own (c : TripCause) : Prop :=
      c = .esdIn ∧ s.esd.far = .opened
      ∨ c = .overpressure ∧ (∃ lim p, s.limits l = some lim ∧ m.pressure = some p ∧ lim.pRated < p)
      ∨ c = .stretchTrip ∧ (∃ lim e, s.limits l = some lim ∧ m.stretch = some e ∧ lim.tripLimit < e)
      ∨ c = .sensorFault ∧ (m.pressureOut ≠ 0 ∨ m.stretchOut ≠ 0 ∨ m.positionOut ≠ 0)
      ∨ c = .valveTravel ∧ ¬ closed
    ∀ cs : List TripCause, (∀ c, c ∈ cs ↔ own c) → cs = TripCause.all.filter (fun c => decide (c ∈ cs)) →
      cs ≠ [] ∨ s.device ≠ [] →
      exec (.clear (lineNumber l)) s = .next { s with
        port := replied s (["?", "CLEAR", numText (lineNumber l), "TRIP"] ++ cs.map TripCause.text
          ++ (s.device.filter fun d => !(decide (d = .esdIn) && decide (TripCause.esdIn ∈ cs))).flatMap DeviceTrip.text) }

/-! ### Requests of a tank, and its evaluation -/

/-- R90, R91: ASSIGN, with every check of R90 passed, of which the line keeps everything but NO_OUTLET, which a tank that becomes
FILLING clears (R97). The refusals: SYNTAX of the list, and the first tank that fails (`AssignFault`). Reply words that no
sample shows: log 21. The order of the checks of the list: log 24. -/
def Obligations.AssignTaken : Prop :=
  (∀ (l : LineId) (ks : List TankId) (s : State), Ready s → (s.seq l).state ≠ .disconnected →
    (s.seq l).state ≠ .tripped → ks ≠ [] → ks.Nodup → (s.lineup l).length + ks.length ≤ 6 →
    (∀ k ∈ ks, ∃ r, s.tank k = some r ∧ r.line = none ∧ r.state = .listed ∧ r.conflict = false
      ∧ (s.seq l).grade = some r.grade) →
    ∃ t ws, exec (.assign (lineNumber l) (ks.map fun k => some (tankNumber k))) s = .next t
      ∧ t.lineup l = s.lineup l ++ ks
      ∧ (∀ k ∈ ks, ∀ r, s.tank k = some r → t.tank k = some { r with
          line := some l
          ring := [], anchor := none, topped := false, results := none
          state := if r.valve = .opened ∧ r.vRep.isSome = true then .filling else .assigned })
      ∧ (∀ k, k ∉ ks → t.tank k = s.tank k)
      ∧ ((∃ k ∈ ks, t.tankState k = some .filling) → t.seq l = { s.seq l with
          holds := setErase .noOutlet (s.seq l).holds, pump := pumpPermit (s.seq l) s.esd.loop })
      ∧ ((∀ k ∈ ks, t.tankState k ≠ some .filling) → t.seq l = s.seq l)
      ∧ (t.seq l).state = (s.seq l).state ∧ (t.seq l).trips = (s.seq l).trips ∧ (t.seq l).permit = (s.seq l).permit
      ∧ t.port = replied s ("=" :: "ASSIGN" :: numText (lineNumber l) :: ws) ∧ OnlyLine s t l
      ∧ t = { s with seqs := t.seqs, lineups := t.lineups, tanks := t.tanks, notices := t.notices, port := t.port })
  ∧ (∀ (l : LineId) (fs : List NumField) (s : State), Ready s → (s.seq l).state ≠ .disconnected →
    (s.seq l).state ≠ .tripped → fs = [] ∨ 6 < fs.length ∨ none ∈ fs ∨ ¬ fs.Nodup →
    exec (.assign (lineNumber l) fs) s = .next { s with
      port := replied s ["?", "ASSIGN", numText (lineNumber l), "SYNTAX"] })
  ∧ ∀ (l : LineId) (before after : List Nat) (n : Nat) (why : String) (s : State), Ready s →
    (s.seq l).state ≠ .disconnected → (s.seq l).state ≠ .tripped → (before ++ n :: after).length ≤ 6 →
    (before ++ n :: after).Nodup → (∀ i m, before[i]? = some m → ∀ w, ¬ AssignFault s l i m w) →
    AssignFault s l before.length n why →
    exec (.assign (lineNumber l) ((before ++ n :: after).map some)) s = .next { s with
      port := replied s ["?", "ASSIGN", numText (lineNumber l), why, numText n] }

/-- R92, R86, R93: RELEASE of tanks of the lineup, named or ALL, by the ship valve each record holds. A tank in RELEASING
keeps its timer, and a tank that becomes LISTED takes its pending entry: VANISHED removes it. R96: what the line is told of a
tank that leaves FULL or TOPPING, with target_eff formed afresh (R65) and steady ended where it changes (R14). R93: a tank that
leaves RELEASING ends its CHANGEOVER_LATE condition. The refusals: SYNTAX of the list, and the first tank that is no tank of the
lineup (log 21). The order of the checks of the list: log 24. Before the first sample event Q_surge is a free value
(log 15). -/
def Obligations.ReleaseTaken : Prop :=
  (∀ (l : LineId) (ks : List TankId) (w : TankWords) (s : State), Ready s → (s.seq l).state ≠ .disconnected →
    LineupsSound s → ks.Nodup → (∀ k ∈ ks, k ∈ s.lineup l) →
    (w = .list (ks.map fun k => some (tankNumber k)) ∧ ks ≠ [] ∨ w = .all ∧ ks = s.lineup l) →
    ∃ t ws, exec (.release (lineNumber l) w) s = .next t
      ∧ (∀ k ∈ ks, ∀ r, s.tank k = some r →
          if r.valve = .opened then k ∈ t.lineup l ∧ t.tank k = some (if r.state = .releasing then r else
            { r with state := .releasing, timer := some { since := s.clock, expired := none } })
          else k ∉ t.lineup l ∧
            (let listed := { r with state := .listed, timer := none, line := none, stale := false }
             t.tank k = match r.pendingEntry with
              | none => some listed
              | some .vanished => none
              | some (.entry e) => some (listed.withEntry e)))
      ∧ (∀ k, k ∉ ks → t.tank k = s.tank k)
      ∧ t.lineup l = (s.lineup l).filter (fun k =>
          !(decide (k ∈ ks) && decide ((s.tank k).map (·.valve) ≠ some .opened)))
      ∧ t.seq l = (if (∃ k ∈ ks, s.tankState k = some .full) ∧ t.countIn l .full = 0 then
          { s.seq l with holds := setErase .tankFull (s.seq l).holds, pump := pumpPermit (s.seq l) s.esd.loop } else s.seq l)
      ∧ ((∀ k ∈ ks, s.tankState k ≠ some .topping) → t.rate l = s.rate l ∧ t.meas l = s.meas l)
      ∧ ((∃ k ∈ ks, s.tankState k = some .topping) →
          let throttled : Rate := { s.rate l with throttle := decide (0 < t.countIn l .topping) }
          let ended : Meas := { s.meas l with steady := false, inRun := 0, outRun := 0 }
          ((s.seq l).state ∉ [.opening, .delivering, .holding, .held, .finishing] → t.rate l = throttled)
          ∧ ((s.seq l).state ≠ .delivering → t.meas l = s.meas l)
          ∧ ((s.seq l).state ∈ [.opening, .delivering, .holding, .held, .finishing] → ∀ lim, s.limits l = some lim →
              let least := leastTerm (targetTerms throttled lim (s.surgeTerm l) s.link.gauging)
              t.rate l = { throttled with eff := least.map (·.1), governing := least.map (·.2) }
              ∧ (t.meas l = s.meas l ∨ t.meas l = ended)
              ∧ ((s.seq l).state = .delivering → (s.rate l).eff ≠ least.map (·.1) → t.meas l = ended)))
      ∧ (AlarmsDistinct s → ∀ k ∈ ks, s.tankState k = some .releasing → (s.tank k).map (·.valve) ≠ some .opened →
          ¬ AlarmPresent t .changeoverLate (.tank k))
      ∧ (∀ a : Alarm, (∀ k ∈ ks, (a.kind, a.object) ≠ (.changeoverLate, .tank k)) → (a ∈ t.alarms ↔ a ∈ s.alarms))
      ∧ (let gone (k : TankId) : Bool := decide (k ∈ ks) && (t.tank k).isNone
         t.link = { s.link with poll := s.link.poll.filter fun k => !gone k
                                advices := s.link.advices.filter fun a => !gone a.1 })
      ∧ t.port = replied s ("=" :: "RELEASE" :: numText (lineNumber l) :: ws) ∧ OnlyLine s t l
      ∧ t = { s with seqs := t.seqs, rates := t.rates, meass := t.meass, lineups := t.lineups, tanks := t.tanks, link := t.link,
                     alarms := t.alarms, horn := t.horn, notices := t.notices, port := t.port })
  ∧ (∀ (l : LineId) (fs : List NumField) (s : State), Ready s → (s.seq l).state ≠ .disconnected →
    fs = [] ∨ none ∈ fs ∨ ¬ fs.Nodup →
    exec (.release (lineNumber l) (.list fs)) s = .next { s with
      port := replied s ["?", "RELEASE", numText (lineNumber l), "SYNTAX"] })
  ∧ ∀ (l : LineId) (before : List TankId) (after : List Nat) (n : Nat) (s : State), Ready s →
    (s.seq l).state ≠ .disconnected → (∀ k ∈ before, k ∈ s.lineup l) →
    let ns := before.map tankNumber ++ n :: after
    let refused (why : String) : Prop := exec (.release (lineNumber l) (.list (ns.map some))) s = .next { s with
      port := replied s ["?", "RELEASE", numText (lineNumber l), why, numText n] }
    ns.Nodup → (n = 0 ∨ 16 < n → refused "RANGE") ∧ ∀ k, n = tankNumber k → k ∉ s.lineup l → refused "STATE"

/-- R80, R81: FILL stores the limit used. R96, R113: a raised limit takes a TOPPING tank to FILLING, of which its line is told,
and the tank is evaluated at once, which may send it back (R99, `ActedOn` in O43). R162: a number that names no tank is refused
RANGE, and a FILL without a limit SYNTAX. Q_surge before the first sample event and Q_L before the first line-sampled event are
free values (log 15, log 16), and the statement holds for each. -/
def Obligations.FillTaken : Prop :=
  (∀ (k : TankId) (asked : Nat) (s : State) (r : Tank), Ready s → s.tank k = some r →
    let used := max 500 (min (min 980 (r.hh - 20)) asked)
    let words := ["=", "FILL", numText (tankNumber k), numText used, numText (r.cap * used / 1000)]
      ++ (if asked = used then [] else ["CLAMPED"])
    (r.state ≠ .topping ∨ used ≤ r.fl →
      exec (.fill (tankNumber k) (some asked)) s = .next { s with
        tanks := vset s.tanks k (some { r with fl := used })
        notices := if used = r.fl then s.notices else noticesWith s (.tank k)
        port := replied s words })
    ∧ (r.state = .topping → r.fl < used →
      ∃ t r', exec (.fill (tankNumber k) (some asked)) s = .next t ∧ t.tank k = some r' ∧ r'.fl = used
        ∧ (r'.state = .filling ∨ r'.state = .topping ∨ r'.state = .full) ∧ OnlyTank s t k
        ∧ (∀ l, r.line = some l → (s.seq l).state.evaluates = false → r'.state = .filling)
        ∧ t.port = replied s words ∧ t.lineups = s.lineups ∧ KeepsBase s t ∧ KeepsTrips s t)
    ∧ (r.state = .topping → r.fl < used →
      ∃ b : State, exec (.fill (tankNumber k) (some asked)) s = .next { b.evaluate k with port := replied s words }
        ∧ b = { s with seqs := b.seqs, rates := b.rates, meass := b.meass, notices := b.notices
                       tanks := vset s.tanks k (some { r with fl := used, state := .filling, timer := none }) }
        ∧ ∀ l, r.line = some l → ToldOfTopping s b l
            ∧ b.seq l = { s.seq l with holds := setErase .noOutlet (s.seq l).holds, pump := pumpPermit (s.seq l) s.esd.loop }))
  ∧ (∀ (n asked : Nat) (s : State), Ready s → n = 0 ∨ 16 < n ∨ (∃ k, n = tankNumber k ∧ s.tank k = none) →
    exec (.fill n (some asked)) s = .next { s with port := replied s ["?", "FILL", numText n, "RANGE"] })
  ∧ ∀ (k : TankId) (s : State), Ready s → s.tank k ≠ none →
    exec (.fill (tankNumber k) none) s = .next { s with port := replied s ["?", "FILL", numText (tankNumber k), "SYNTAX"] }

/-- R89, R87, R107: SOUND is a level report of this moment; a volume at or above V_hh puts the tank into OVERFILL.
R86, R88, R96, R97, R115 to R118: with sound lineups, the transitions of the report, what its line is told of them, the ring
and anchor, and the evaluation (`ReportMade`). That OVERFILL takes the place of the estimator is an inference of the model
(log 32). That the stored T_close stays when NO_OUTLET begins a closure is the model's choice (log 46). Readings and figures
that no event has given yet are free values (log 14, log 15, log 16). In LINKED gauging SOUND is refused LINK, for a number that
names no tank RANGE, and without a volume or a valve word SYNTAX; the order of these checks: log 24. -/
def Obligations.SoundTaken : Prop :=
  (∀ (k : TankId) (v : Nat) (w : ValveWord) (s : State) (r : Tank), Ready s → s.link.gauging = .manual →
    s.tank k = some r → r.mTime.getD 0 ≤ s.clock → r.pendingEntry = none →
    ∃ t r' ws, exec (.sound (tankNumber k) (some v) (some w)) s = .next t ∧ t.tank k = some r'
      ∧ r'.vRep = some (min v r.cap) ∧ r'.mTime = some s.clock ∧ r'.valve = reportedValve w ∧ r'.fault = some false
      ∧ (r.cap * r.hh / 1000 ≤ min v r.cap → r.state ≠ .overfill →
          r'.state = .overfill ∧ r'.line = none ∧ k ∈ t.overfills ∧ DeviceTrip.overfill k ∈ t.device
            ∧ t.esd.contact = .opened)
      ∧ OnlyTank s t k ∧ t.port = replied s ("=" :: "SOUND" :: numText (tankNumber k) :: ws) ∧ KeepsBase s t)
  ∧ (∀ (n : Nat) (v : NumField) (w : Option ValveWord) (s : State), Ready s →
    let refused (why : String) : Prop :=
      exec (.sound n v w) s = .next { s with port := replied s ["?", "SOUND", numText n, why] }
    (s.link.gauging = .linked → refused "LINK")
    ∧ (s.link.gauging = .manual →
      (n = 0 ∨ 16 < n ∨ (∃ k, n = tankNumber k ∧ s.tank k = none) → refused "RANGE")
      ∧ ((∃ k, n = tankNumber k ∧ s.tank k ≠ none) → v = none ∨ w = none → refused "SYNTAX")))
  ∧ ∀ (k : TankId) (v : Nat) (w : ValveWord) (s : State) (r : Tank), Ready s → s.link.gauging = .manual →
    s.tank k = some r → r.mTime.getD 0 ≤ s.clock → LineupsSound s →
    ∃ u ws, exec (.sound (tankNumber k) (some v) (some w)) s =
        .next { u with port := replied s ("=" :: "SOUND" :: numText (tankNumber k) :: ws) }
      ∧ ReportMade k v w false s.clock s r u

/-- R108, R148: CLEAR TANK returns a tank below its high-high level to LISTED and takes it off the overfill list; the
device set and the contact are left. R86: its pending entry is applied, and VANISHED removes the record, of which the reply
says ABSENT by the model's choice (log 21). The refusals, in the order of R108. -/
def Obligations.ClearTankTaken : Prop :=
  (∀ (k : TankId) (s : State) (r : Tank), Ready s → s.tank k = some r → r.state = .overfill → r.line = none →
    r.pendingEntry = none → (∀ v, r.vRep = some v → v < r.cap * r.hh / 1000) →
    exec (.clearTank (tankNumber k)) s = .next { s with
      tanks := vset s.tanks k (some { r with state := .listed, timer := none })
      overfills := setErase k s.overfills
      notices := noticesWith s (.tank k)
      port := replied s ["=", "CLEAR", "TANK", numText (tankNumber k), "LISTED", optNum r.vRep,
        numText (r.cap * r.hh / 1000)] })
  ∧ (∀ (k : TankId) (s : State) (r : Tank), Ready s → s.tank k = some r → r.state = .overfill → r.line = none →
    (∀ v, r.vRep = some v → v < r.cap * r.hh / 1000) →
    let after := pendingApplied { r with state := .listed, timer := none }
    exec (.clearTank (tankNumber k)) s = .next { s with
      tanks := vset s.tanks k after
      overfills := setErase k s.overfills
      link := if after = none then
          { s.link with poll := setErase k s.link.poll, advices := s.link.advices.filter fun a => !decide (a.1 = k) }
        else s.link
      notices := noticesWith s (.tank k)
      port := replied s (["=", "CLEAR", "TANK", numText (tankNumber k)] ++ match after with
        | some x => ["LISTED", optNum x.vRep, numText (x.cap * x.hh / 1000)]
        | none => ["ABSENT"]) })
  ∧ (∀ (n : Nat) (s : State), Ready s → n = 0 ∨ 16 < n ∨ (∃ k, n = tankNumber k ∧ s.tank k = none) →
    exec (.clearTank n) s = .next { s with port := replied s ["?", "CLEAR", "TANK", numText n, "RANGE"] })
  ∧ ∀ (k : TankId) (s : State) (r : Tank), Ready s → s.tank k = some r →
    (r.state ≠ .overfill → exec (.clearTank (tankNumber k)) s =
      .next { s with port := replied s ["?", "CLEAR", "TANK", numText (tankNumber k), "STATE"] })
    ∧ ∀ v, r.state = .overfill → r.vRep = some v → r.cap * r.hh / 1000 ≤ v → exec (.clearTank (tankNumber k)) s =
      .next { s with port := replied s ["?", "CLEAR", "TANK", numText (tankNumber k), "TRIP", numText v,
        numText (r.cap * r.hh / 1000)] }

/-- R101 to R105: the figures of an evaluation of a tank on a line, in every tank state and line state. R101: the staleness of
any tank. R99: an evaluation is made in five tank states and six line states, and stores its figures and the STALE mark;
otherwise nothing changes. R106, R109 to R112: an evaluation takes the first action that applies, in each of those states
(`ActedOn`): OVERRUN, FULL, TOPPING, none, and hands TANK_FULL again for a tank left FULL. Q_L before the first line-sampled
event, and the readings of a closure before the first sample event, are free values (log 16, log 14), and so is Q_surge (log
15). R96, R65, R70, R112: what the line is told of a TOPPING tank that enters or departs (`ToldOfEntry`, `ToldOfTopping`);
R14, R48, R76: what TANK_FULL ends in DELIVERING. That the stored T_close stays when TANK_FULL begins a closure is the model's
choice (log 46). -/
def Obligations.EvaluationActs : Prop :=
  (∀ (l : LineId) (r : Tank) (v : Nat) (s : State) (lim : Limits), s.limits l = some lim →
    let e := s.evaluation l r v
    let q := s.watchedFlow l
    let n := max (s.countIn l .filling + s.countIn l .topping) 1
    let limit := if s.link.gauging = .linked then s.settings.stalel else s.settings.stalem
    let est := if r.ring = [] then none else some (r.ring.sum / r.ring.length)
    e.age = s.clock - r.mTime.getD s.clock ∧ e.time = s.clock
      ∧ ((s.seq l).state ∈ [.connected, .held] ∨ r.state = .assigned → e.rm = 0)
      ∧ ((s.seq l).state ∉ [.connected, .held] → r.state ≠ .assigned →
          (r.vRep.isSome = true → limit < e.age → e.rm = q)
          ∧ (e.age ≤ limit → e.rm = match est with | some x => min q (max x (q / n)) | none => q))
      ∧ e.vNow = v + ceilDiv (e.rm * e.age) 600 ∧ e.room = (r.cap * r.fl / 1000 : Nat) - (e.vNow : Int)
      ∧ e.stop = ceilDiv (e.rm * ((s.meas l).tC.getD lim.tMax + 2 * s.settings.treact)) 1200 + lim.vd
      ∧ e.margin = e.room - e.stop ∧ e.endVol = e.vNow + e.stop
      ∧ e.tau = if 0 < e.rm ∧ 0 < e.margin then some (e.margin.toNat * 600 / e.rm) else none)
  -- staleness, and when an evaluation is made
  ∧ (∀ (k : TankId) (s : State), (s.tank k = none → s.judgeStale k = s) ∧ ∀ r, s.tank k = some r →
      let limit := if s.link.gauging = .linked then s.settings.stalel else s.settings.stalem
      let t := s.judgeStale k
      t = { s with
        tanks := vset s.tanks k (some { r with stale := decide (r.vRep ≠ none ∧ limit < s.clock - r.mTime.getD s.clock) })
        notices := t.notices })
  ∧ (∀ (k : TankId) (s : State) (r : Tank), s.tank k = some r →
      r.line = none ∨ r.vRep = none ∨ r.state ∈ [.listed, .overfill]
        ∨ (∃ l, r.line = some l ∧ (s.seq l).state ∈ [.disconnected, .stroking, .tripping, .tripped]) →
      s.evaluate k = s)
  ∧ (∀ (k : TankId) (l : LineId) (s : State) (r : Tank) (v : Nat), s.tank k = some r → r.line = some l → r.vRep = some v →
      r.state ∈ [.assigned, .filling, .topping, .full, .releasing] →
      (s.seq l).state ∈ [.connected, .opening, .delivering, .holding, .held, .finishing] →
      (∃ r', (s.evaluate k).tank k = some r' ∧ r'.results = some (s.evaluation l r v)
        ∧ (s.judgeStale k).tank k = some { r with stale := r'.stale })
      ∧ ActedOn k l r (s.evaluation l r v) s (s.evaluate k))
  ∧ ∀ (k : TankId) (l : LineId) (s : State) (r : Tank) (v : Nat), s.tank k = some r → r.line = some l → r.vRep = some v →
    r.state = .filling → (s.seq l).state = .delivering → (s.seq l).trips = [] → (s.seq l).holds = [] →
    let e := s.evaluation l r v
    let t := s.evaluate k
    e.vNow = v + ceilDiv (e.rm * e.age) 600 ∧ e.room = (r.cap * r.fl / 1000 : Nat) - (e.vNow : Int)
      ∧ e.margin = e.room - e.stop ∧ e.endVol = e.vNow + e.stop
      ∧ (∃ r', t.tank k = some r' ∧ r'.results = some e)
      ∧ (r.cap * r.hh / 1000 ≤ e.endVol →
          (t.seq l).state = .tripping ∧ (t.seq l).trips = [.overrun] ∧ t.tankState k = some .filling)
      ∧ (e.endVol < r.cap * r.hh / 1000 → e.margin ≤ 0 →
          (t.seq l).state = .holding ∧ (t.seq l).holds = [.tankFull] ∧ t.tankState k = some .full
            ∧ (s.link.gauging = .linked → (k, .full) ∈ t.link.advices))
      ∧ (e.endVol < r.cap * r.hh / 1000 → 0 < e.margin → ∀ tau, e.tau = some tau → tau ≤ s.settings.ttop →
          (t.seq l).state = .delivering ∧ t.tankState k = some .topping
            ∧ (s.link.gauging = .linked → (k, .topping) ∈ t.link.advices))
      ∧ (e.endVol < r.cap * r.hh / 1000 → 0 < e.margin → (∀ tau, e.tau = some tau → s.settings.ttop < tau) →
          t.seq l = s.seq l ∧ t.tankState k = some .filling)
      ∧ OnlyLine s t l ∧ OnlyTank s t k

/-! ### The ship link -/

/-- R130: LINKSTART where the table takes it, and its refusals BUSY and STATE. The next index 0 of the new acquisition, before its
header is read, is the model's choice (log 48). -/
def Obligations.LinkstartTaken : Prop :=
  (∀ s : State, Ready s → (s.link.state ∈ [.down, .lost] ∨ s.link.state ∈ [.good, .poor] ∧ s.link.gauging = .manual) →
    ∃ t, exec .linkstart s = .next t
      ∧ t.link.state = .acquiring ∧ t.link.window = [] ∧ t.link.failRun = 0 ∧ t.link.succRun = 0
      ∧ t.link.acq = some { header := none, next := 0, attempts := 0, entries := [] } ∧ t.link.refresh = none
      ∧ t.link.queries = [] ∧ (∀ l ∈ s.link.queries, vget t.link.outcomes l = some .noReply)
      ∧ (∀ l, l ∉ s.link.queries → vget t.link.outcomes l = vget s.link.outcomes l)
      ∧ t.link.advices = s.link.advices ∧ t.link.poll = s.link.poll ∧ t.link.gauging = s.link.gauging
      ∧ t.link.rev = s.link.rev
      ∧ t.link.exchange = (match s.link.exchange with
          | some x => some x
          | none => some { query := .header, refresh := false, window := s.settings.window, part := none })
      ∧ t = { s with link := t.link, notices := t.notices, port := replied s ["=", "LINKSTART", "ACQUIRING"] })
  ∧ (∀ s : State, Ready s → s.link.state = .acquiring →
    exec .linkstart s = .next { s with port := replied s ["?", "LINKSTART", "BUSY"] })
  ∧ ∀ s : State, Ready s → s.link.state ∈ [.good, .poor] → s.link.gauging = .linked →
    exec .linkstart s = .next { s with port := replied s ["?", "LINKSTART", "STATE"] }

/-- R141: the two gauging modes, with the rate-control and measurement state of every line (R14, R64, R65: `TargetFormed`),
and the exchange that the switch to LINKED begins where none is in flight (R135, R139). GAUGING LINKED outside GOOD and POOR
is refused LINK also while gauging is LINKED already: the model's choice (log 42). Before the first sample event Q_surge is a
free value (log 15). Reply words that no sample shows: log 21. -/
def Obligations.GaugingTaken : Prop :=
  (∀ s : State, Ready s → s.link.gauging = .linked →
    ∃ t, exec .gaugingManual s = .next t
      ∧ t.link.gauging = .manual ∧ t.link.advices = [] ∧ t.link.queries = [] ∧ t.link.refresh = none
      ∧ (∀ l ∈ s.link.queries, vget t.link.outcomes l = some .noReply)
      ∧ t.link.state = s.link.state ∧ t.link.exchange = s.link.exchange ∧ t.link.poll = s.link.poll
      ∧ (∀ l, t.seq l = { s.seq l with holds := setErase .link (s.seq l).holds,
                                       pump := pumpPermit (s.seq l) s.esd.loop })
      ∧ (∀ l, (s.seq l).state ∈ [.opening, .delivering, .holding, .held, .finishing] → ∀ lim, s.limits l = some lim →
          (t.rate l).eff = (leastTerm (targetTerms (s.rate l) lim (s.surgeTerm l) .manual)).map (·.1))
      ∧ (∀ l, TargetFormed .manual s l (s.rate l) (t.rate l) (t.meas l))
      ∧ t = { s with seqs := t.seqs, rates := t.rates, meass := t.meass, link := t.link, notices := t.notices,
                     port := replied s ["=", "GAUGING", "MANUAL"] })
  ∧ (∀ s : State, Ready s → s.link.gauging = .manual →
    exec .gaugingManual s = .next { s with port := replied s ["=", "GAUGING", "MANUAL"] })
  ∧ (∀ s : State, Ready s → s.link.state ∈ [.good, .poor] → s.link.gauging = .manual →
    ∃ t, exec .gaugingLinked s = .next t
      ∧ t.link.gauging = .linked ∧ t.link.state = s.link.state ∧ t.link.exchange.isSome = true
      ∧ (∀ x, s.link.exchange = some x → t.link = { s.link with gauging := .linked })
      ∧ (s.link.exchange = none → ExchangeChosen (watchedTank s) (nearStopTank s) s.settings.window
          { s.link with gauging := .linked } t.link)
      ∧ (∀ l, (s.seq l).state ∈ [.opening, .delivering, .holding, .held, .finishing] → ∀ lim, s.limits l = some lim →
          (t.rate l).eff = (leastTerm (targetTerms (s.rate l) lim (s.surgeTerm l) .linked)).map (·.1))
      ∧ (∀ l, TargetFormed .linked s l (s.rate l) (t.rate l) (t.meas l))
      ∧ t = { s with rates := t.rates, meass := t.meass, link := t.link, notices := t.notices,
                     port := replied s ["=", "GAUGING", "LINKED"] })
  ∧ (∀ s : State, Ready s → s.link.state ∈ [.good, .poor] → s.link.gauging = .linked →
    exec .gaugingLinked s = .next { s with port := replied s ["=", "GAUGING", "LINKED"] })
  ∧ ∀ s : State, Ready s → s.link.state ∉ [.good, .poor] →
    exec .gaugingLinked s = .next { s with port := replied s ["?", "GAUGING", "LINK", s.link.state.text] }

/-- R125, R126, R131 to R133, R83 to R85: the telegrams of an acquisition and of a background refresh, and the complete directory
applied to the tank table at their end. An ENTRY is gathered by its reply or, with a name, by its continuation. R127, R128, R134,
R135, R138, R139: an exchange of a refresh is counted and judged, those of an acquisition are not; the spacing counts and the next
exchange is chosen. R126: the STOP flag of each reaches every line (`StopTaken`). The model's choices: a refresh begins with the
next index 0 (log 48), and the stored T_close stays when SHIP begins a closure (log 46). Readings that no sample event has given
yet are free values (log 14).
The link-loss count taken up stands in a field of the model's own (log 54). -/
def Obligations.DirectoryReplies : Prop :=
  let gathers (c : Instr) (x : Exchange) (i : Nat) (stop : Bool) (e : DirEntry) : Prop :=
    x.query = .entry i
      ∧ ((∃ tele, c = .entryReply tele ∧ x.part = none
            ∧ readReply (.entry i) tele = some { stop := stop, more := false, body := .entry e })
        ∨ ∃ tele p name, c = .continuation tele ∧ x.part = some p ∧ readContinuation i tele = some name
            ∧ stop = p.stop ∧ e = { p.entry with name := some name })
  let applied (es : List DirEntry) (s t : State) : Prop :=
    (∀ k, DirectoryApplied es k (s.tank k) (t.tank k))
      ∧ (∀ k, s.tank k = none → t.tank k ≠ none → k ∈ t.link.poll)
      ∧ ∀ k, s.tank k ≠ none → t.tank k = none → k ∉ t.link.poll
  -- HEADER, for the acquisition and for a refresh
  (∀ (s : State) (x : Exchange) (a : Acquisition) (tele : List Byte) (stop : Bool) (h : Header),
    s.link.state = .acquiring → s.link.exchange = some x → x.part = none → x.refresh = false → x.query = .header →
    s.link.acq = some a → readReply .header tele = some { stop := stop, more := false, body := .header h } →
    ∃ t, exec (.headerReply tele) s = .next t ∧ t.link.stop = some stop ∧ StopTaken stop s t ∧ t.link.state = .acquiring
      ∧ t.link.acq = some { a with header := some h, next := 1, attempts := 0 }
      ∧ t.link.exchange = some { query := .entry 1, refresh := false, window := s.settings.window, part := none }
      ∧ t.tanks = s.tanks ∧ t.lineups = s.lineups ∧ t.port = s.port ∧ KeepsBase s t ∧ KeepsTrips s t)
  ∧ (∀ (s : State) (x : Exchange) (p : Refresh) (tele : List Byte) (stop : Bool) (h : Header),
    s.link.exchange = some x → x.part = none → x.refresh = true → x.query = .header → s.link.refresh = some p →
    readReply .header tele = some { stop := stop, more := false, body := .header h } →
    ∃ t, exec (.headerReply tele) s = .next t ∧ t.link.stop = some stop ∧ StopTaken stop s t
      ∧ t.link.refresh = some { p with header := some h, next := 1 } ∧ t.link.rev = s.link.rev
      ∧ OutcomeJudged false s t ∧ NextBegins s t ∧ t.link.spacing = 0
      ∧ t.tanks = s.tanks ∧ t.lineups = s.lineups ∧ t.port = s.port ∧ KeepsBase s t ∧ KeepsTrips s t)
  -- ENTRY, for the acquisition and for a refresh
  ∧ (∀ (s : State) (x : Exchange) (i n att : Nat) (h : Header) (es : List DirEntry) (c : Instr) (stop : Bool)
      (e : DirEntry),
    s.link.state = .acquiring → s.link.exchange = some x → x.refresh = false → gathers c x i stop e →
    s.link.acq = some { header := some h, next := n, attempts := att, entries := es } →
    ∃ t, exec c s = .next t ∧ t.link.stop = some stop ∧ StopTaken stop s t
      ∧ (n < h.count → t.link.state = .acquiring ∧ t.tanks = s.tanks
          ∧ t.link.acq = some { header := some h, next := n + 1, attempts := 0, entries := es ++ [e] }
          ∧ t.link.exchange =
              some { query := .entry (n + 1), refresh := false, window := s.settings.window, part := none })
      ∧ (h.count ≤ n → t.link.state = .good ∧ t.link.acq = none ∧ t.link.rev = some h.revision ∧ t.link.window = []
          ∧ t.link.failRun = 0 ∧ t.link.lastAcq = some (.pass h.count h.revision) ∧ applied (es ++ [e]) s t
          ∧ (PollFollows s → NextAfterDirectory (es ++ [e]) s t))
      ∧ t.link.spacing = min 15 (s.link.spacing + 1)
      ∧ t.lineups = s.lineups ∧ t.port = s.port ∧ KeepsBase s t ∧ KeepsTrips s t)
  ∧ (∀ (s : State) (x : Exchange) (i n : Nat) (h : Header) (es : List DirEntry) (c : Instr) (stop : Bool) (e : DirEntry),
    s.link.exchange = some x → x.refresh = true → gathers c x i stop e →
    s.link.refresh = some { header := some h, next := n, entries := es } →
    ∃ t, exec c s = .next t ∧ t.link.stop = some stop ∧ StopTaken stop s t
      ∧ (n < h.count → t.link.refresh = some { header := some h, next := n + 1, entries := es ++ [e] }
          ∧ t.link.rev = s.link.rev ∧ t.tanks = s.tanks ∧ NextBegins s t)
      ∧ (h.count ≤ n → t.link.refresh = none ∧ t.link.rev = some h.revision ∧ applied (es ++ [e]) s t
          ∧ (PollFollows s → NextAfterDirectory (es ++ [e]) s t))
      ∧ OutcomeJudged false s t ∧ t.link.spacing = 0
      ∧ t.lineups = s.lineups ∧ t.port = s.port ∧ KeepsBase s t ∧ KeepsTrips s t)
  -- an ENTRY reply that carries MORE waits for its continuation
  ∧ (∀ (s : State) (x : Exchange) (i : Nat) (tele : List Byte) (stop : Bool) (e : DirEntry),
    s.link.exchange = some x → x.part = none → x.query = .entry i →
    readReply (.entry i) tele = some { stop := stop, more := true, body := .entry e } →
    exec (.entryReplyMore tele) s = .next { s with
      link := { s.link with exchange := some { x with part := some { stop := stop, entry := e } } } })
  -- a LEVEL reply with another revision begins a refresh
  ∧ ∀ (s : State) (x : Exchange) (tele : List Byte) (stop fault : Bool) (k : TankId) (v age rev : Nat) (w : ValveWord),
    s.link.exchange = some x → x.part = none → x.query = .level k → s.link.state ≠ .acquiring →
    s.link.gauging = .linked → s.link.refresh = none → s.link.rev ≠ some rev →
    readReply (.level k) tele = some { stop := stop, more := false, body := .level v w fault age rev } →
    ∃ t, exec (.levelReply tele) s = .next t ∧ t.link.rev = s.link.rev
      ∧ t.link.refresh = some { header := none, next := 0, entries := [] }

/-- R126, R127, R136: a good ALIVE or ADVICE reply is counted as a success and used for its STOP flag (`StopTaken`).
R128, R134, R135, R139: the judgement of the link state, the spacing and the next exchange that follow its end. That the
stored T_close stays when SHIP begins a closure is the model's choice (log 46). Readings that no sample event has given yet are
free values (log 14). The link-loss count taken up stands in a field of the model's own (log 54). -/
def Obligations.StopFlagTaken : Prop :=
  ∀ (s : State) (x : Exchange) (tele : List Byte) (stop : Bool) (c : Instr) (b : ReplyBody),
    s.link.exchange = some x → x.part = none →
    (x.query = .alive ∧ c = .aliveReply tele ∧ b = .alive
      ∨ (∃ k a, x.query = .advice k a) ∧ c = .adviceReply tele ∧ b = .advice) →
    readReply x.query tele = some { stop := stop, more := false, body := b } →
    ∃ t, exec c s = .next t ∧ t.link.stop = some stop
      ∧ (s.link.state ∈ [.good, .poor] → t.link.failRun = 0
          ∧ t.link.window = (s.link.window ++ [false]).drop ((s.link.window ++ [false]).length - 32))
      ∧ StopTaken stop s t ∧ OutcomeJudged false s t ∧ NextBegins s t
      ∧ t.link.refresh = s.link.refresh ∧ t.link.spacing = (if x.refresh = true then 0 else min 15 (s.link.spacing + 1))
      ∧ t.tanks = s.tanks ∧ t.lineups = s.lineups ∧ t.port = s.port ∧ KeepsBase s t ∧ KeepsTrips s t

/-- R140, R87, R107: a good LEVEL reply is a level report of the tank queried. R86, R88, R96, R97, R115 to R118: with sound
lineups, the transitions of the report, what its line is told of them, the ring and anchor, and the evaluation (`ReportMade`);
that OVERFILL takes the place of the estimator is an inference of the model (log 32). R127, R128: the outcome before it. R126: the
STOP flag of the reply reaches every line before the report (`StopTaken`). R133, R135, R139: the revision compared after it, and
the next exchange. That nothing follows while the revisions agree, that a refresh begins with the next index 0, that the stored
T_close stays when a hold begins a closure, and that a report of CLOSED with gauge fault yes makes the anchor absent, are the
model's choices (log 39, log 48, log 46, log 53). Readings and figures that no event has given yet are free values (log 14, log
15, log 16). The link-loss count taken up stands in a field of the model's own (log 54). -/
def Obligations.LevelReplyReports : Prop :=
  (∀ (s : State) (x : Exchange) (tele : List Byte) (stop fault : Bool) (k : TankId) (v age rev : Nat) (w : ValveWord),
    s.link.exchange = some x → x.part = none → x.query = .level k →
    readReply (.level k) tele = some { stop := stop, more := false, body := .level v w fault age rev } →
    ∃ t, exec (.levelReply tele) s = .next t ∧ t.link.stop = some stop ∧ OnlyTank s t k
      ∧ (s.tank k = none → t.tank k = none)
      ∧ (∀ r, s.tank k = some r → s.clock - age < r.mTime.getD 0 → t.tank k = some r)
      ∧ (∀ r, s.tank k = some r → r.mTime.getD 0 ≤ s.clock - age → r.pendingEntry = none →
          ∃ r', t.tank k = some r' ∧ r'.valve = reportedValve w ∧ r'.fault = some fault
            ∧ (fault = false → r'.vRep = some (min v r.cap) ∧ r'.mTime = some (s.clock - age))
            ∧ (fault = true → r'.vRep = r.vRep ∧ r'.mTime = r.mTime)
            ∧ (fault = false → r.cap * r.hh / 1000 ≤ min v r.cap → r.state ≠ .overfill →
                r'.state = .overfill ∧ k ∈ t.overfills ∧ DeviceTrip.overfill k ∈ t.device ∧ t.esd.contact = .opened))
      ∧ t.port = s.port ∧ KeepsBase s t)
  ∧ ∀ (s : State) (x : Exchange) (tele : List Byte) (stop fault : Bool) (k : TankId) (v age rev : Nat) (w : ValveWord),
    s.link.exchange = some x → x.part = none → x.query = .level k → LineupsSound s →
    readReply (.level k) tele = some { stop := stop, more := false, body := .level v w fault age rev } →
    let a := (s.closeExchange x.refresh false).takeStop stop
    let begun : Refresh := { header := none, next := 0, entries := [] }
    let compared (b : State) : Option Refresh :=
      if b.link.rev = some rev ∨ b.link.state = .acquiring ∨ b.link.gauging = .manual then b.link.refresh
      else some ((b.link.refresh.filter fun p => p.header.all fun h => h.revision = rev).getD begun)
    ∃ b, (let c := b.compareRevision rev
          exec (.levelReply tele) s = .next c.chooseNext
            ∧ c = { b with link := { b.link with refresh := compared b } }
            ∧ (c.link.state ∈ [.good, .poor, .lost] → c.link.gauging = .linked →
                ExchangeChosen (watchedTank c) (nearStopTank c) c.settings.window c.link c.chooseNext.link))
      ∧ OutcomeJudged false s a ∧ a.link.stop = some stop ∧ StopTaken stop s a
      ∧ a.tanks = s.tanks ∧ a.lineups = s.lineups ∧ a.port = s.port ∧ KeepsBase s a ∧ KeepsTrips s a
      ∧ (s.tank k = none → b = a)
      ∧ ∀ r, s.tank k = some r → (s.clock - age < r.mTime.getD 0 → b = a)
          ∧ (r.mTime.getD 0 ≤ s.clock - age → ReportMade k v w fault (s.clock - age) a r b)

/-- R137, R60: the table of the ends of a permit exchange. R126: the STOP flag of the reply (`StopTaken`). R127, R128, R134,
R135, R139: its outcome counted and judged, the spacing, and the next exchange. That the stored T_close stays when SHIP begins a
closure is the model's choice (log 46). Readings that no sample event has given yet are free values (log 14).
The link-loss count taken up stands in a field of the model's own (log 54). -/
def Obligations.PermitReplyTaken : Prop :=
  ∀ (s : State) (x : Exchange) (tele : List Byte) (stop granted : Bool) (l : LineId),
    s.link.exchange = some x → x.part = none → x.query = .permit l → 0 < s.settings.linkloss →
    readReply (.permit l) tele = some { stop := stop, more := false, body := .permit granted } →
    ∃ t, exec (.permitReply tele) s = .next t ∧ t.link.stop = some stop
      ∧ ((s.seq l).state ∈ [.connected, .held] →
          (t.seq l).permit = (granted && !stop)
          ∧ vget t.link.outcomes l =
              some (if granted then (if stop then .stopped else .granted) else .denied))
      ∧ ((s.seq l).state ∉ [.connected, .held] →
          (t.seq l).permit = ((s.seq l).permit && !stop) ∧ vget t.link.outcomes l = some .late)
      ∧ (∀ j, j ≠ l → (t.seq j).permit = ((s.seq j).permit && !stop)
          ∧ vget t.link.outcomes j = vget s.link.outcomes j)
      ∧ StopTaken stop s t ∧ OutcomeJudged false s t ∧ NextBegins s t
      ∧ t.link.refresh = s.link.refresh ∧ t.link.spacing = (if x.refresh = true then 0 else min 15 (s.link.spacing + 1))
      ∧ t.tanks = s.tanks ∧ t.lineups = s.lineups ∧ t.port = s.port ∧ KeepsBase s t ∧ KeepsTrips s t

/-- R124, R125, R127, R131 to R133, R137: an exchange that fails, when its reply window runs out or its continuation is late.
R128, R134, R135, R139: the judgement of the link state, the spacing and the next exchange that follow its end. That these
windows end by commands is the model's choice (log 29). R129, R47, R48: what a loss of the link brings the lines
(`LinkLossHanded`). That the stored T_close stays when LINK begins a closure is the model's choice (log 46), and readings that
no sample event has given yet are free values (log 14). The link-loss count taken up stands in a field of the model's own (log
54). -/
def Obligations.ExchangeFails : Prop :=
  ∀ (s : State) (x : Exchange) (c : Instr), s.link.exchange = some x →
    (c = .replyWindowExpired ∧ x.part = none ∨ c = .continuationTimeout ∧ x.part.isSome = true) →
    ∃ t, exec c s = .next t ∧ t.tanks = s.tanks ∧ t.lineups = s.lineups ∧ t.port = s.port
      ∧ KeepsBase s t ∧ KeepsTrips s t ∧ t.link.stop = s.link.stop
      ∧ (∀ l, x.query = .permit l → vget t.link.outcomes l = some .noReply)
      ∧ (s.link.state ∈ [.good, .poor] → s.link.failRun + 1 < s.settings.linkloss →
          t.link.failRun = min 255 (s.link.failRun + 1)
          ∧ t.link.window = (s.link.window ++ [true]).drop ((s.link.window ++ [true]).length - 32)
          ∧ t.seqs = s.seqs ∧ t.rates = s.rates ∧ t.meass = s.meass ∧ t.drives = s.drives)
      ∧ (∀ a at_, s.link.state = .acquiring → x.refresh = false → s.link.acq = some a →
          (x.query = .header ∧ at_ = .header ∨ ∃ i, x.query = .entry i ∧ at_ = .entry i) →
          (a.attempts < 3 → t.link.state = .acquiring ∧ t.link.acq = some { a with attempts := a.attempts + 1 }
            ∧ t.link.exchange = some { query := nextTelegram a.header a.next, refresh := false,
                                       window := s.settings.window, part := none })
          ∧ (3 ≤ a.attempts → t.link.state = .down ∧ t.link.acq = none ∧ t.link.exchange = none
            ∧ t.link.lastAcq = some (.failed at_) ∧ t.link.rev = s.link.rev))
      ∧ (x.refresh = true → x.query = .header ∨ (∃ i, x.query = .entry i) →
          t.link.refresh = none ∧ t.link.rev = s.link.rev)
      ∧ (x.refresh = false ∨ x.query ≠ .header ∧ (∀ i, x.query ≠ .entry i) → t.link.refresh = s.link.refresh)
      ∧ t.link.spacing = (if x.refresh = true then 0 else min 15 (s.link.spacing + 1))
      ∧ (x.refresh = true ∨ x.query ≠ .header ∧ (∀ i, x.query ≠ .entry i) → OutcomeJudged true s t ∧ NextBegins s t)

/-- R128, R129: the loss of the link and its return (rows taken alone: the model's choice, log 5). The loss is judged by the
link-loss count that the latest counted exchange took up (log 54): a failure run under it changes nothing, also where a SET
has lowered the setting since. The return leaves the success run as it was: the model's choice (log 31). R47, R48, R14, R76:
LINK handed to the lines (`LinkLossHanded`). That the stored T_close stays when LINK begins a closure is the model's choice
(log 46), and readings that no sample event has given yet are free values (log 14). -/
def Obligations.LinkLostAndRecovered : Prop :=
  (∀ s : State, s.link.failRun < s.link.lossCount → exec .linkLost s = .next s)
  ∧ (∀ s : State, s.link.state ∈ [.good, .poor] → s.link.lossCount ≤ s.link.failRun →
    ∃ t, exec .linkLost s = .next t ∧ t.link.state = .lost ∧ t.link.succRun = 0 ∧ t.link.queries = []
      ∧ (∀ l ∈ s.link.queries, vget t.link.outcomes l = some .noReply) ∧ AlarmPresent t .linkLost .link
      ∧ (s.link.gauging = .linked → ∀ l, (t.seq l).permit = false
          ∧ ((s.seq l).state ∈ [.opening, .delivering, .holding, .held] → HoldCause.link ∈ (t.seq l).holds))
      ∧ LinkLossHanded s t ∧ (s.link.gauging = .manual → t.seqs = s.seqs) ∧ t.link.lossCount = s.link.lossCount
      ∧ t.tanks = s.tanks ∧ t.lineups = s.lineups ∧ t.port = s.port ∧ KeepsBase s t ∧ KeepsTrips s t)
  ∧ ∀ s : State, s.link.state = .lost → 3 ≤ s.link.succRun → AlarmsDistinct s →
    ∃ t, exec .linkRecovered s = .next t
      ∧ t.link = { s.link with state := .good, window := [], failRun := 0 } ∧ ¬ AlarmPresent t .linkLost .link
      ∧ (∀ l, t.seq l = { s.seq l with holds := setErase .link (s.seq l).holds,
                                       pump := pumpPermit (s.seq l) s.esd.loop })
      ∧ t = { s with seqs := t.seqs, link := t.link, alarms := t.alarms, horn := t.horn, notices := t.notices }

/-! ### Trips and alarms -/

/-- R149: ESD, refused during start-up, taken otherwise; taken again it changes nothing but the reply.
The opening of the loop that follows comes as its own event (log 13). -/
def Obligations.EsdTaken : Prop :=
  ∀ s : State, s.port.waiting = none →
    (s.phase = .starting → exec .esd s = .next { s with port := replied s ["?", "ESD", "STARTING"] })
    ∧ (s.phase = .running → ∃ t, exec .esd s = .next t
        ∧ (∀ d, d ∈ t.device ↔ d = .consoleEsd ∨ d ∈ s.device) ∧ t.esd = { s.esd with contact := .opened }
        ∧ AlarmPresent t .consoleEsd .part
        ∧ t.port = replied s (["=", "ESD", "OPEN"] ++ t.device.flatMap DeviceTrip.text)
        ∧ t = { s with device := t.device, esd := t.esd, alarms := t.alarms, horn := t.horn, notices := t.notices,
                       port := t.port }
        ∧ (DeviceTrip.consoleEsd ∈ s.device → s.esd.contact = .opened → AlarmsDistinct s →
            AlarmPresent s .consoleEsd .part → t = { s with port := t.port }))

/-- R150, R58, R59: CLEAR ALL with the three conditions of the device set met or the set empty, what it makes of each line
(R39, R73, R76) and of the alarm conditions (R154), and its two refusals. ESD_IN after each line that stays TRIPPED in a
refusal: the model's choice (log 21). -/
def Obligations.ClearAllTaken : Prop :=
  let fit (s : State) (l : LineId) : Prop := (s.seq l).state = .tripped ∧ s.persisting l = []
  let linesDone (s t : State) : Prop :=
    (∀ l, fit s l → t.seq l = { s.seq l with state := .connected, trips := [], holds := [], pump := false }
        ∧ t.drive l = { s.drive l with ramp := none, setpoint := 0, track := 0 }
        ∧ t.rate l = { s.rate l with eff := none, governing := none, pendingTarget := none }
        ∧ (AlarmsDistinct s → ∀ c ∈ (s.seq l).trips, ¬ AlarmPresent t c.alarm (.line l)))
      ∧ (∀ l, ¬ fit s l → t.seq l = s.seq l ∧ t.drive l = s.drive l ∧ t.rate l = s.rate l)
      ∧ t = { s with seqs := t.seqs, rates := t.rates, drives := t.drives, esd := t.esd, device := t.device,
                     alarms := t.alarms, horn := t.horn, notices := t.notices, port := t.port }
  let stay (s : State) : List String := (allLines.filter fun l => decide ((s.seq l).state = .tripped)).flatMap fun l =>
    (AlarmObject.line l).text :: (s.persisting l).map TripCause.text
  -- the set emptied
  (∀ s : State, Ready s → s.device ≠ [] → s.esd.far = .closed → s.overfills = [] →
    (∀ l, DeviceTrip.stretchTrip l ∈ s.device → s.stretchHigh l = false) →
    ∃ t ws, exec .clearAll s = .next t ∧ t.device = [] ∧ t.esd = { s.esd with contact := .closed }
      ∧ (∀ l, (s.seq l).state = .tripped → s.persisting l = [] →
          t.seq l = { s.seq l with state := .connected, trips := [], holds := [], pump := false })
      ∧ (∀ l, (s.seq l).state ≠ .tripped ∨ s.persisting l ≠ [] → t.seq l = s.seq l)
      ∧ linesDone s t
      ∧ (AlarmsDistinct s → (DeviceTrip.consoleEsd ∈ s.device → ¬ AlarmPresent t .consoleEsd .part)
          ∧ (∀ k, DeviceTrip.overfill k ∈ s.device → ¬ AlarmPresent t .overfill (.tank k))
          ∧ ∀ l, DeviceTrip.stretchTrip l ∈ s.device → TripCause.stretchTrip ∉ (t.seq l).trips →
              ¬ AlarmPresent t .stretchTrip (.line l))
      ∧ t.port = replied s ("=" :: "CLEAR" :: "ALL" :: ws)
      ∧ t.tanks = s.tanks ∧ t.lineups = s.lineups ∧ t.link = s.link ∧ t.overfills = [] ∧ KeepsBase s t)
  -- the set empty
  ∧ (∀ s : State, Ready s → s.device = [] → ((∃ l, fit s l) ∨ ∀ l, (s.seq l).state ≠ .tripped) →
    ∃ t ws, exec .clearAll s = .next t ∧ t.device = [] ∧ t.esd = s.esd ∧ linesDone s t
      ∧ t.port = replied s ("=" :: "CLEAR" :: "ALL" :: ws))
  -- refused
  ∧ (∀ s : State, Ready s → s.device = [] → (∀ l, ¬ fit s l) → (∃ l, (s.seq l).state = .tripped) →
    exec .clearAll s = .next { s with port := replied s (["?", "CLEAR", "ALL", "TRIP"] ++ stay s) })
  ∧ ∀ s : State, Ready s → s.device ≠ [] →
    (s.esd.far = .opened ∨ s.overfills ≠ [] ∨ ∃ l, DeviceTrip.stretchTrip l ∈ s.device ∧ s.stretchHigh l = true) →
    let members := (if s.esd.far = .opened then [.esdIn] else []) ++ s.overfills.map DeviceTrip.overfill
      ++ s.device.filter fun d => decide (∃ l, d = .stretchTrip l ∧ s.stretchHigh l = true)
    exec .clearAll s = .next { s with
      port := replied s (["?", "CLEAR", "ALL", "TRIP"] ++ members.flatMap DeviceTrip.text ++ stay s) }

/-- R155, R156: ACK marks the selected entries and takes out those whose condition is gone. It is refused RANGE for a line or
tank number outside its range, which is judged first (log 24), and SYNTAX for a list that is missing or does not read. -/
def Obligations.AckTaken : Prop :=
  (∀ (objects : Option (List ObjectWord)) (kinds : Option (List (Option AlarmKind))) (s : State), Ready s →
    let refused (why : String) : Prop := exec (.ack objects kinds) s = .next { s with port := replied s ["?", "ACK", why] }
    let outside : Prop := ∃ os, objects = some os ∧ ∃ n, (n = 0 ∨ 4 < n) ∧ .line n ∈ os ∨ (n = 0 ∨ 16 < n) ∧ .tank n ∈ os
    (outside → refused "RANGE")
    ∧ (¬ outside → objects = some [] ∨ kinds = some [] ∨ (∃ os, objects = some os ∧ .other ∈ os)
        ∨ (∃ ks, kinds = some ks ∧ none ∈ ks) → refused "SYNTAX"))
  ∧ ∀ (objects : Option (List AlarmObject)) (kinds : Option (List AlarmKind)) (s : State), Ready s →
    objects ≠ some [] → kinds ≠ some [] →
    let word : AlarmObject → ObjectWord := fun o => match o with
      | .line l => .line (lineNumber l) | .tank k => .tank (tankNumber k) | .link => .link | .loop => .loop
      | .part => .part
    let chosen : Alarm → Prop := fun a => (∀ os, objects = some os → a.object ∈ os) ∧ ∀ ks, kinds = some ks → a.kind ∈ ks
    ∃ t ws, exec (.ack (objects.map fun os => os.map word) (kinds.map fun ks => ks.map some)) s = .next t
      ∧ (∀ a, a ∈ t.alarms ↔ a ∈ s.alarms ∧ ¬ chosen a
          ∨ ∃ b ∈ s.alarms, chosen b ∧ b.present = true ∧ a = { b with acked := true })
      ∧ (t.horn = true ↔ ∃ a ∈ t.alarms, a.acked = false)
      ∧ t.port = replied s ("=" :: "ACK" :: ws)
      ∧ t = { s with alarms := t.alarms, horn := t.horn, notices := t.notices, port := t.port }

/-- R145, R146, R62, R55 to R57: a change of the loop reading and of the far-loop reading. Every line that is not DISCONNECTED
takes ESD_IN with its alarm entry: `LineTrips` gives one that it takes into TRIPPING whole, and one already TRIPPING or TRIPPED
keeps its state (`CauseAdded`). -/
def Obligations.LoopReadingsTaken : Prop :=
  (∀ s : State, s.esd.loop = .closed → ∃ t, exec (.loopReadingChange .opened) s = .next t
    ∧ t.esd = { s.esd with loop := .opened } ∧ (∀ l, (t.seq l).pump = false)
    ∧ (∀ l, (s.seq l).state ≠ .disconnected → TripCause.esdIn ∈ (t.seq l).trips)
    ∧ (∀ l, (s.seq l).state ∉ [.disconnected, .tripping, .tripped] → TripCause.esdIn ∉ (s.seq l).trips →
        (t.seq l).state = .tripping ∧ (t.seq l).permit = false ∧ (t.drive l).setpoint = 0)
    ∧ (∀ l, (s.seq l).state ∉ [.disconnected, .tripping, .tripped] → TripCause.esdIn ∉ (s.seq l).trips →
        LineTrips s t l .esdIn (s.drive l).lastPos)
    ∧ (∀ l, (s.seq l).state ∈ [.tripping, .tripped] → TripCause.esdIn ∉ (s.seq l).trips → CauseAdded s t l .esdIn)
    ∧ (∀ l, (s.seq l).state = .disconnected ∨ TripCause.esdIn ∈ (s.seq l).trips →
        t.seq l = { s.seq l with pump := false } ∧ t.drive l = s.drive l ∧ t.rate l = s.rate l ∧ t.meas l = s.meas l)
    ∧ (∀ l, (s.seq l).state = .disconnected → (t.seq l).trips = (s.seq l).trips)
    ∧ t.tanks = s.tanks ∧ t.lineups = s.lineups ∧ t.link = s.link ∧ t.device = s.device ∧ t.overfills = s.overfills
    ∧ t.port = s.port ∧ KeepsBase s t)
  ∧ (∀ s : State, s.esd.loop = .opened → ∃ t, exec (.loopReadingChange .closed) s = .next t
    ∧ (∀ l, t.seq l = { s.seq l with pump := pumpPermit (s.seq l) .closed })
    ∧ t = { s with seqs := t.seqs, esd := { s.esd with loop := .closed }, notices := t.notices })
  ∧ (∀ s : State, s.esd.far = .closed → ∃ t, exec (.farLoopReadingChange .opened) s = .next t
    ∧ (∀ d, d ∈ t.device ↔ d = .esdIn ∨ d ∈ s.device) ∧ AlarmPresent t .esdIn .loop
    ∧ t = { s with esd := { s.esd with far := .opened }, device := t.device, alarms := t.alarms, horn := t.horn,
                   notices := t.notices })
  ∧ ∀ s : State, s.esd.far = .opened → AlarmsDistinct s → ∃ t, exec (.farLoopReadingChange .closed) s = .next t
    ∧ (∀ d, d ∈ t.device ↔ d ≠ .esdIn ∧ d ∈ s.device) ∧ ¬ AlarmPresent t .esdIn .loop
    ∧ t = { s with esd := { s.esd with far := .closed }, device := t.device, alarms := t.alarms, horn := t.horn,
                   notices := t.notices }

/-! ### Settings, store, time and the port -/

/-- R172, R168: SET stores the value used for each name given; R119: ESTW takes from each ring its oldest rates beyond the new
length; R93: CHANGEOVER expires each running timer whose run has reached the new timeout, with its alarm; MASK turns kinds on
and off and takes out the pairs of the kinds turned off. Fields that are no list of names with their values, or that name one
twice, and fields that are no two lists of kinds, are refused SYNTAX. -/
def Obligations.SetAndMaskTaken : Prop :=
  (∀ (ps : List (SettingName × Nat)) (s : State), Ready s → ps ≠ [] → (ps.map (·.1)).Nodup →
    ∃ t ws, exec (.set (ps.flatMap fun p => [Field.word p.1.text, Field.num p.2])) s = .next t
      ∧ (∀ p ∈ ps, settingValue t.settings p.1 = p.1.used p.2)
      ∧ (∀ n, n ∉ ps.map (·.1) → settingValue t.settings n = settingValue s.settings n)
      ∧ t.port = replied s ("=" :: "SET" :: ws)
      ∧ t = { s with settings := t.settings, tanks := t.tanks, alarms := t.alarms, horn := t.horn,
                     notices := t.notices, port := t.port }
      ∧ (SettingName.estw ∉ ps.map (·.1) → SettingName.changeover ∉ ps.map (·.1) → t.tanks = s.tanks)
      ∧ (let due (r : Tank) : Option ChangeTimer := r.timer.filter fun c => decide (SettingName.changeover ∈ ps.map (·.1))
            && c.expired.isNone && decide (t.settings.changeover ≤ s.clock - c.since)
         let kept (a : Alarm) : Prop := ∀ k r, s.tank k = some r → (due r).isSome = true →
            (a.kind, a.object) ≠ (.changeoverLate, .tank k)
         (∀ k, t.tank k = (s.tank k).map fun r => { r with
            ring := if SettingName.estw ∈ ps.map (·.1) then r.ring.drop (r.ring.length - t.settings.estw) else r.ring
            timer := match due r with
              | some c => some { c with expired := some (s.clock - c.since) }
              | none => r.timer })
         ∧ (∀ k r, s.tank k = some r → (due r).isSome = true → AlarmPresent t .changeoverLate (.tank k)
            ∧ (NoticeKind.tank ∈ s.port.mask → Notice.tank k ∈ t.notices))
         ∧ (∀ a, kept a → (a ∈ t.alarms ↔ a ∈ s.alarms))
         ∧ ((∀ k r, s.tank k = some r → due r = none) → t.alarms = s.alarms ∧ t.horn = s.horn)
         ∧ (HornFollows s → HornFollows t)
         ∧ (SettingName.changeover ∉ ps.map (·.1) → t.alarms = s.alarms ∧ t.horn = s.horn ∧ t.notices = s.notices)))
  ∧ (∀ (vw mw : List String) (vs ms : List NoticeKind) (s : State), Ready s → maskList vw = some vs →
    maskList mw = some ms →
    let mask := NoticeKind.all.filter fun k => if k ∈ ms then decide (k ∈ vs) else decide (k ∈ s.port.mask)
    let left := s.notices.filter fun n => n.allowed mask
    exec (.mask (vw ++ "/" :: mw)) s = .next { s with
      port := { s.port with mask := mask, waiting := some (["=", "MASK"] ++ mask.map NoticeKind.text) }
      notices := left
      linkResult := s.linkResult && decide (Notice.link ∈ left) })
  ∧ (∀ (fields : List Field) (s : State), Ready s →
    (∀ ps : List (SettingName × Nat), ps ≠ [] → (ps.map (·.1)).Nodup →
      fields ≠ ps.flatMap fun p => [Field.word p.1.text, Field.num p.2]) →
    exec (.set fields) s = .next { s with port := replied s ["?", "SET", "SYNTAX"] })
  ∧ ∀ (words : List String) (s : State), Ready s →
    (∀ vw mw, words = vw ++ "/" :: mw → "/" ∉ vw → maskList vw = none ∨ maskList mw = none) →
    exec (.mask words) s = .next { s with port := replied s ["?", "MASK", "SYNTAX"] }

/-- R177, R178: LOCK, UNLOCK, the key, a LIMITS that passes its checks, and its refusals LOCKED, BUSY, SYNTAX and RANGE, each
with the checks before it passed. The check of the stored flag is a free value (log 10). -/
def Obligations.StoreRequestsTaken : Prop :=
  (∀ s : State, Ready s → exec .lock s = .next { s with
      store := if s.store.lock = true then s.store
        else { s.store with lock := true, storedLock := some (true, Config.lockCheck true) }
      port := replied s ["=", "LOCK", "LOCK", "SET"] })
  ∧ (∀ s : State, Ready s → s.key = true → exec .unlock s = .next { s with
      store := if s.store.lock = true then
          { s.store with lock := false, storedLock := some (false, Config.lockCheck false) }
        else s.store
      port := replied s ["=", "UNLOCK", "LOCK", "CLEAR"] })
  ∧ (∀ s : State, Ready s → s.key = false →
      exec .unlock s = .next { s with port := replied s ["?", "UNLOCK", "LOCKED"] })
  ∧ (∀ (b : Bool) (s : State), exec (.keyInputChange b) s = .next { s with key := b })
  ∧ ∀ (l : LineId) (s : State), Ready s →
    let refused (vs : List NumField) (why : List String) : Prop := exec (.limits (lineNumber l) vs) s = .next { s with
      port := replied s (["?", "LIMITS", numText (lineNumber l)] ++ why) }
    (∀ vs, s.key = false ∨ s.store.lock = true → refused vs
      ("LOCKED" :: ((if s.key = false then ["KEY"] else []) ++ if s.store.lock = true then ["LOCK"] else [])))
    ∧ (s.key = true → s.store.lock = false → (s.seq l).state ∈ [.disconnected, .connected] →
      (∀ vs w, s.store.write = some w → refused vs ["BUSY", numText (lineNumber w.line)])
      ∧ (s.store.write = none →
        (∀ vs, none ∈ vs ∨ vs.length ≠ 14 → refused vs ["SYNTAX"])
        ∧ ∀ x : Limits,
          (∀ before f after, limitFields x = before ++ f :: after → (∀ g ∈ before, FieldWithin g) → ¬ FieldWithin f →
            refused ((limitValues x).map some) ["RANGE", f.1])
          ∧ (∀ before p after, limitPairs x = before ++ p :: after → (∀ g ∈ limitFields x, FieldWithin g) →
              (∀ q ∈ before, q.1 = true) → p.1 = false → refused ((limitValues x).map some) ["RANGE", p.2.1, p.2.2])
          ∧ (LimitsSound x → exec (.limits (lineNumber l) ((limitValues x).map some)) s = .next { s with
              store := { s.store with write := some { line := l, record := x, since := s.clock } }
              port := replied s ["=", "LIMITS", numText (lineNumber l), "WRITING"] })))

/-- R180, R7, R75, R93, R179, R182: the end of a write, the expiry of a change-over timer, and the end of start-up. Time
passes up to the moment each falls due, and what falls due on the way is made (the command's passing of time: the model's
choice, log 4). -/
def Obligations.TimedEventsEnd : Prop :=
  (∀ (s : State) (w : Write), s.store.write = some w →
    ∃ t, exec .limitsWriteEnd s = .next t ∧ t.store.write = none ∧ t.limits w.line = some w.record
      ∧ (∀ l, l ≠ w.line → t.record l = s.record l) ∧ t.store.lock = s.store.lock
      ∧ t.clock = max s.clock (w.since + 4)
      ∧ (t.rate w.line).target = min (s.rate w.line).target w.record.qMax
      ∧ (∀ old, s.limits w.line = some old → old.f ≠ w.record.f →
          (t.meas w.line).dBase = s.delivered w.line ∧ (t.meas w.line).pTot = 0)
      ∧ (∀ old, s.limits w.line = some old → old.f = w.record.f → t.meas w.line = s.meas w.line)
      ∧ (NoticeKind.done ∈ s.port.mask → Notice.doneLimits w.line ∈ t.notices)
      ∧ OnlyLine s t w.line ∧ DueMade s t
      ∧ (NoStartupEnd s t.clock → (∀ j, NoTimerEnd s t.clock j) →
          t = { s with clock := t.clock, store := t.store, meass := t.meass, rates := t.rates, notices := t.notices }))
  ∧ (∀ (s : State) (k : TankId) (r : Tank) (since : Nat), s.tank k = some r →
    r.timer = some { since := since, expired := none } →
    ∃ t, exec (.changeoverLate k) s = .next t ∧ t.clock = max s.clock (since + s.settings.changeover)
      ∧ t.tank k = some { r with timer := some { since := since, expired := some (t.clock - since) } }
      ∧ AlarmPresent t .changeoverLate (.tank k) ∧ (NoticeKind.tank ∈ s.port.mask → Notice.tank k ∈ t.notices)
      ∧ DueMade s t
      ∧ (NoStartupEnd s t.clock → NoWriteEnd s t.clock → (∀ j, j ≠ k → NoTimerEnd s t.clock j) → OnlyTank s t k
          ∧ t = { s with clock := t.clock, tanks := t.tanks, alarms := t.alarms, horn := t.horn, notices := t.notices }))
  ∧ ∀ s : State, s.phase = .starting →
    ∃ t, exec .startupEnd s = .next t ∧ t.phase = .running ∧ t.esd = { s.esd with contact := .closed }
      ∧ t.clock = max s.clock 20 ∧ Notice.ready ∈ t.notices ∧ DueMade s t
      ∧ (NoWriteEnd s t.clock → (∀ j, NoTimerEnd s t.clock j) →
          t = { s with clock := t.clock, phase := t.phase, esd := t.esd, notices := t.notices })

/-- R173, R176, R177, R181, R183: power-on and the reset input, and a RESTART that passes its checks, from any state: every
block has its reset values (R19, R37, R38, R63, R78, R123, R143, R158, R172), as O2 gives them one by one. The key is kept over
them (log 11), the stored form of a record and the check of the lock flag are free values (log 9, log 10), and the statement
holds for each. The model's choices: RESTART's reply is sent within the step (log 50), the record last sent is kept (log 34),
and the notices of ESD_IN with the far loop open stay pending (log 49). -/
def Obligations.ResetsTaken : Prop :=
  let blocks : State → Prop := fun t =>
    t.clock = 0 ∧ t.phase = .starting ∧ t.settings = Settings.initial ∧ (∀ l, t.seq l = Seq.initial)
      ∧ (∀ l, t.rate l = Rate.initial) ∧ (∀ l, t.drive l = Drive.initial)
      ∧ (∀ l, t.meas l = Meas.initial (match (t.record l).status with | .sound => some 0 | .blank => none))
      ∧ (∀ l, t.lineup l = []) ∧ (∀ k, t.tank k = none) ∧ t.link = Link.initial ∧ t.overfills = []
      ∧ t.port.rx = "" ∧ t.port.held = none ∧ t.port.waiting = none
      ∧ t.device = (if t.esd.far = .opened then [.esdIn] else [])
      ∧ t.alarms = (if t.esd.far = .opened then
          [{ kind := .esdIn, object := .loop, acked := false, present := true, time := 0 }] else [])
      ∧ t.horn = decide (t.esd.far = .opened)
      ∧ t.notices = (if t.esd.far = .opened then
          [Notice.trip, .alarm .esdIn .loop].filter fun n => n.allowed t.port.mask else [])
      ∧ t.linkResult = false
  (∀ (s : State) (lp far : Contact), ∃ t, exec (.powerOn lp far) s = .next t ∧ exec (.resetInput lp far) s = .next t
    ∧ blocks t ∧ t.esd = { contact := .opened, loop := lp, far := far } ∧ t.port.mask = NoticeKind.all
    ∧ t.store.write = none ∧ t.key = s.key ∧ t.pending = s.pending ∧ t.port.out = none
    ∧ t.store.storedLock = s.store.storedLock
    ∧ t.store.lock = (match s.store.storedLock with
        | some (flag, check) => if check = Config.lockCheck flag then flag else true
        | none => true)
    ∧ (∀ w, s.store.write = some w → t.limits w.line = none)
    ∧ (∀ l, s.writing l = false → t.limits l = if (s.record l).checks = true then (s.record l).fields else none))
  ∧ ∀ s : State, Ready s → (∀ l, (s.seq l).state ∉ [.stroking, .opening, .delivering, .holding, .finishing]) →
    s.store.write = none →
    ∃ t, exec .restart s = .next t ∧ blocks t ∧ t.esd = s.esd ∧ t.port.mask = s.port.mask ∧ t.store = s.store
      ∧ t.key = s.key ∧ t.pending = s.pending ∧ t.port.out = some (written ["=", "RESTART"])

/-- R161, R162, R164, R165, R167, R70: a line that ends, a reply sent with or without a line held behind it, a notice
sent. A line that names a request is that request. That a line comes as
one command and the record last sent is kept: the model's choices (log 7, log 8, log 34). How the fields of a record are read
at the edges that no rule gives (a check field alone, leading zeros in an object of ACK, a word that no form has) is the
model's choice (log 25), and how ACK's two lists are told apart is an inference of the model (log 26). -/
def Obligations.ConsoleLineEvents : Prop :=
  (∀ (chars : String) (s : State) (c : Instr), c = .recordRejected chars ∨ c = .heldLine chars →
    let line := dropReturn (s.port.rx ++ chars).toList
    let cleared := { s.port with rx := "" }
    (line = [] → exec c s = .next { s with port := cleared })
    ∧ (line ≠ [] → s.port.waiting.isSome = true → s.port.held = none →
        exec c s = .next { s with port := { cleared with
          held := some { text := String.ofList (line.take 96), long := decide (96 < line.length) } } })
    ∧ (line ≠ [] → s.port.waiting.isSome = true → s.port.held.isSome = true → exec c s = .next { s with port := cleared })
    ∧ (s.port.waiting = none → 96 < line.length →
        exec c s = .next { s with port := { cleared with waiting := some ["?", "*", "LONG"] } })
    ∧ (line ≠ [] → s.port.waiting = none → line.length ≤ 96 → checkedFields line = none →
        exec c s = .next { s with port := { cleared with waiting := some ["?", "*", "CHECK"] } })
    ∧ (∀ kw args, line ≠ [] → s.port.waiting = none → line.length ≤ 96 → checkedFields line = some (kw :: args) →
        kw ∉ ["READ", "CONNECT", "DISCONNECT", "STROKE", "STROKESET", "PERMIT", "START", "RATE", "LOOP", "HOLD", "RESUME",
          "FINISH", "ASSIGN", "RELEASE", "FILL", "SOUND", "LINKSTART", "GAUGING", "ESD", "CLEAR", "ACK", "SET", "LIMITS",
          "LOCK", "UNLOCK", "MASK", "RESTART"] →
        exec c s = .next { s with port := { cleared with waiting := some ["?", kw, "UNKNOWN"] } })
    ∧ (∀ fields request, line ≠ [] → s.port.waiting = none → line.length ≤ 96 → checkedFields line = some fields →
        requestOf fields = some request → exec c s = exec request { s with port := cleared }))
  ∧ (∀ (s : State) (r : List String), s.port.waiting = some r → s.port.held = none →
    exec .replySent s = .next { s with port := { s.port with waiting := none, out := some (written r) } })
  ∧ (∀ (s : State) (r : List String) (line : EndedLine), s.port.waiting = some r → s.port.held = some line →
    let sent := { s.port with waiting := none, held := none, out := some (written r) }
    (line.long = true → exec .replySent s = .next { s with port := { sent with waiting := some ["?", "*", "LONG"] } })
    ∧ (line.long = false → checkedFields line.text.toList = none →
        exec .replySent s = .next { s with port := { sent with waiting := some ["?", "*", "CHECK"] } })
    ∧ ∀ fields request, line.long = false → checkedFields line.text.toList = some fields →
        requestOf fields = some request → exec .replySent s = exec request { s with port := sent })
  ∧ ∀ (s : State) (n : Notice) (rest : List Notice), s.port.waiting = none → s.notices = n :: rest →
    exec .noticeSent s = .next { s with
      notices := rest
      port := { s.port with out := some (written ("!" :: s.noticeText n)) }
      rates := match n with
        | .loop l => vset s.rates l { s.rate l with mark := none }
        | _ => s.rates
      linkResult := match n with
        | .link => false
        | _ => s.linkResult }

end
end

