-- ==== Sys2Proof/Laws/State.lean ====
section
/-! SUPPORT. One lemma per field per base update of `State`, and the reads of a vector entry after a write. -/

namespace Sys2Proof.Machine

/-! ### Vectors -/

@[simp] theorem vget_vset {α : Type} {n : Nat} (v : Vector α n) (i j : Fin n) (x : α) :
    vget (vset v i x) j = if j = i then x else vget v j := by
  by_cases h : j = i
  · subst h; simp [vget, vset]
  · rw [if_neg h, vget, vget]
    exact Vector.getElem_set_ne i.isLt j.isLt fun e => h (Fin.ext e.symm)

@[simp] theorem vget_replicate {α : Type} {n : Nat} (x : α) (i : Fin n) : vget (Vector.replicate n x) i = x := by
  simp [vget]

@[simp] theorem vget_map {α β : Type} {n : Nat} (f : α → β) (v : Vector α n) (i : Fin n) :
    vget (v.map f) i = f (vget v i) := by
  simp [vget]

theorem vset_vget {α : Type} {n : Nat} (v : Vector α n) (i : Fin n) : vset v i (vget v i) = v := by
  simp [vget, vset]

theorem vector_ext {α : Type} {n : Nat} {v w : Vector α n} (h : ∀ i, vget v i = vget w i) : v = w :=
  Vector.ext fun i hi => h ⟨i, hi⟩

/-! ### modRate -/

@[simp] theorem State.modRate_pending (s : State) (l : LineId) (f : Rate → Rate) : (s.modRate l f).pending = s.pending := rfl

@[simp] theorem State.modRate_clock (s : State) (l : LineId) (f : Rate → Rate) : (s.modRate l f).clock = s.clock := rfl

@[simp] theorem State.modRate_phase (s : State) (l : LineId) (f : Rate → Rate) : (s.modRate l f).phase = s.phase := rfl

@[simp] theorem State.modRate_key (s : State) (l : LineId) (f : Rate → Rate) : (s.modRate l f).key = s.key := rfl

@[simp] theorem State.modRate_settings (s : State) (l : LineId) (f : Rate → Rate) : (s.modRate l f).settings = s.settings := rfl

@[simp] theorem State.modRate_store (s : State) (l : LineId) (f : Rate → Rate) : (s.modRate l f).store = s.store := rfl

@[simp] theorem State.modRate_seqs (s : State) (l : LineId) (f : Rate → Rate) : (s.modRate l f).seqs = s.seqs := rfl

@[simp] theorem State.modRate_rates (s : State) (l : LineId) (f : Rate → Rate) :
    (s.modRate l f).rates = vset s.rates l (f (s.rate l)) := rfl

@[simp] theorem State.modRate_meass (s : State) (l : LineId) (f : Rate → Rate) : (s.modRate l f).meass = s.meass := rfl

@[simp] theorem State.modRate_drives (s : State) (l : LineId) (f : Rate → Rate) : (s.modRate l f).drives = s.drives := rfl

@[simp] theorem State.modRate_lineups (s : State) (l : LineId) (f : Rate → Rate) : (s.modRate l f).lineups = s.lineups := rfl

@[simp] theorem State.modRate_tanks (s : State) (l : LineId) (f : Rate → Rate) : (s.modRate l f).tanks = s.tanks := rfl

@[simp] theorem State.modRate_link (s : State) (l : LineId) (f : Rate → Rate) : (s.modRate l f).link = s.link := rfl

@[simp] theorem State.modRate_esd (s : State) (l : LineId) (f : Rate → Rate) : (s.modRate l f).esd = s.esd := rfl

@[simp] theorem State.modRate_device (s : State) (l : LineId) (f : Rate → Rate) : (s.modRate l f).device = s.device := rfl

@[simp] theorem State.modRate_overfills (s : State) (l : LineId) (f : Rate → Rate) : (s.modRate l f).overfills = s.overfills := rfl

@[simp] theorem State.modRate_alarms (s : State) (l : LineId) (f : Rate → Rate) : (s.modRate l f).alarms = s.alarms := rfl

@[simp] theorem State.modRate_horn (s : State) (l : LineId) (f : Rate → Rate) : (s.modRate l f).horn = s.horn := rfl

@[simp] theorem State.modRate_port (s : State) (l : LineId) (f : Rate → Rate) : (s.modRate l f).port = s.port := rfl

@[simp] theorem State.modRate_notices (s : State) (l : LineId) (f : Rate → Rate) : (s.modRate l f).notices = s.notices := rfl

@[simp] theorem State.modRate_linkResult (s : State) (l : LineId) (f : Rate → Rate) : (s.modRate l f).linkResult = s.linkResult := rfl

/-! ### modMeas -/

@[simp] theorem State.modMeas_pending (s : State) (l : LineId) (f : Meas → Meas) : (s.modMeas l f).pending = s.pending := rfl

@[simp] theorem State.modMeas_clock (s : State) (l : LineId) (f : Meas → Meas) : (s.modMeas l f).clock = s.clock := rfl

@[simp] theorem State.modMeas_phase (s : State) (l : LineId) (f : Meas → Meas) : (s.modMeas l f).phase = s.phase := rfl

@[simp] theorem State.modMeas_key (s : State) (l : LineId) (f : Meas → Meas) : (s.modMeas l f).key = s.key := rfl

@[simp] theorem State.modMeas_settings (s : State) (l : LineId) (f : Meas → Meas) : (s.modMeas l f).settings = s.settings := rfl

@[simp] theorem State.modMeas_store (s : State) (l : LineId) (f : Meas → Meas) : (s.modMeas l f).store = s.store := rfl

@[simp] theorem State.modMeas_seqs (s : State) (l : LineId) (f : Meas → Meas) : (s.modMeas l f).seqs = s.seqs := rfl

@[simp] theorem State.modMeas_rates (s : State) (l : LineId) (f : Meas → Meas) : (s.modMeas l f).rates = s.rates := rfl

@[simp] theorem State.modMeas_meass (s : State) (l : LineId) (f : Meas → Meas) :
    (s.modMeas l f).meass = vset s.meass l (f (s.meas l)) := rfl

@[simp] theorem State.modMeas_drives (s : State) (l : LineId) (f : Meas → Meas) : (s.modMeas l f).drives = s.drives := rfl

@[simp] theorem State.modMeas_lineups (s : State) (l : LineId) (f : Meas → Meas) : (s.modMeas l f).lineups = s.lineups := rfl

@[simp] theorem State.modMeas_tanks (s : State) (l : LineId) (f : Meas → Meas) : (s.modMeas l f).tanks = s.tanks := rfl

@[simp] theorem State.modMeas_link (s : State) (l : LineId) (f : Meas → Meas) : (s.modMeas l f).link = s.link := rfl

@[simp] theorem State.modMeas_esd (s : State) (l : LineId) (f : Meas → Meas) : (s.modMeas l f).esd = s.esd := rfl

@[simp] theorem State.modMeas_device (s : State) (l : LineId) (f : Meas → Meas) : (s.modMeas l f).device = s.device := rfl

@[simp] theorem State.modMeas_overfills (s : State) (l : LineId) (f : Meas → Meas) : (s.modMeas l f).overfills = s.overfills := rfl

@[simp] theorem State.modMeas_alarms (s : State) (l : LineId) (f : Meas → Meas) : (s.modMeas l f).alarms = s.alarms := rfl

@[simp] theorem State.modMeas_horn (s : State) (l : LineId) (f : Meas → Meas) : (s.modMeas l f).horn = s.horn := rfl

@[simp] theorem State.modMeas_port (s : State) (l : LineId) (f : Meas → Meas) : (s.modMeas l f).port = s.port := rfl

@[simp] theorem State.modMeas_notices (s : State) (l : LineId) (f : Meas → Meas) : (s.modMeas l f).notices = s.notices := rfl

@[simp] theorem State.modMeas_linkResult (s : State) (l : LineId) (f : Meas → Meas) : (s.modMeas l f).linkResult = s.linkResult := rfl

/-! ### modDrive -/

@[simp] theorem State.modDrive_pending (s : State) (l : LineId) (f : Drive → Drive) : (s.modDrive l f).pending = s.pending := rfl

@[simp] theorem State.modDrive_clock (s : State) (l : LineId) (f : Drive → Drive) : (s.modDrive l f).clock = s.clock := rfl

@[simp] theorem State.modDrive_phase (s : State) (l : LineId) (f : Drive → Drive) : (s.modDrive l f).phase = s.phase := rfl

@[simp] theorem State.modDrive_key (s : State) (l : LineId) (f : Drive → Drive) : (s.modDrive l f).key = s.key := rfl

@[simp] theorem State.modDrive_settings (s : State) (l : LineId) (f : Drive → Drive) : (s.modDrive l f).settings = s.settings := rfl

@[simp] theorem State.modDrive_store (s : State) (l : LineId) (f : Drive → Drive) : (s.modDrive l f).store = s.store := rfl

@[simp] theorem State.modDrive_seqs (s : State) (l : LineId) (f : Drive → Drive) : (s.modDrive l f).seqs = s.seqs := rfl

@[simp] theorem State.modDrive_rates (s : State) (l : LineId) (f : Drive → Drive) : (s.modDrive l f).rates = s.rates := rfl

@[simp] theorem State.modDrive_meass (s : State) (l : LineId) (f : Drive → Drive) : (s.modDrive l f).meass = s.meass := rfl

@[simp] theorem State.modDrive_drives (s : State) (l : LineId) (f : Drive → Drive) :
    (s.modDrive l f).drives = vset s.drives l (f (s.drive l)) := rfl

@[simp] theorem State.modDrive_lineups (s : State) (l : LineId) (f : Drive → Drive) : (s.modDrive l f).lineups = s.lineups := rfl

@[simp] theorem State.modDrive_tanks (s : State) (l : LineId) (f : Drive → Drive) : (s.modDrive l f).tanks = s.tanks := rfl

@[simp] theorem State.modDrive_link (s : State) (l : LineId) (f : Drive → Drive) : (s.modDrive l f).link = s.link := rfl

@[simp] theorem State.modDrive_esd (s : State) (l : LineId) (f : Drive → Drive) : (s.modDrive l f).esd = s.esd := rfl

@[simp] theorem State.modDrive_device (s : State) (l : LineId) (f : Drive → Drive) : (s.modDrive l f).device = s.device := rfl

@[simp] theorem State.modDrive_overfills (s : State) (l : LineId) (f : Drive → Drive) : (s.modDrive l f).overfills = s.overfills := rfl

@[simp] theorem State.modDrive_alarms (s : State) (l : LineId) (f : Drive → Drive) : (s.modDrive l f).alarms = s.alarms := rfl

@[simp] theorem State.modDrive_horn (s : State) (l : LineId) (f : Drive → Drive) : (s.modDrive l f).horn = s.horn := rfl

@[simp] theorem State.modDrive_port (s : State) (l : LineId) (f : Drive → Drive) : (s.modDrive l f).port = s.port := rfl

@[simp] theorem State.modDrive_notices (s : State) (l : LineId) (f : Drive → Drive) : (s.modDrive l f).notices = s.notices := rfl

@[simp] theorem State.modDrive_linkResult (s : State) (l : LineId) (f : Drive → Drive) : (s.modDrive l f).linkResult = s.linkResult := rfl

/-! ### setLineup -/

@[simp] theorem State.setLineup_pending (s : State) (l : LineId) (ts : List TankId) : (s.setLineup l ts).pending = s.pending := rfl

@[simp] theorem State.setLineup_clock (s : State) (l : LineId) (ts : List TankId) : (s.setLineup l ts).clock = s.clock := rfl

@[simp] theorem State.setLineup_phase (s : State) (l : LineId) (ts : List TankId) : (s.setLineup l ts).phase = s.phase := rfl

@[simp] theorem State.setLineup_key (s : State) (l : LineId) (ts : List TankId) : (s.setLineup l ts).key = s.key := rfl

@[simp] theorem State.setLineup_settings (s : State) (l : LineId) (ts : List TankId) : (s.setLineup l ts).settings = s.settings := rfl

@[simp] theorem State.setLineup_store (s : State) (l : LineId) (ts : List TankId) : (s.setLineup l ts).store = s.store := rfl

@[simp] theorem State.setLineup_seqs (s : State) (l : LineId) (ts : List TankId) : (s.setLineup l ts).seqs = s.seqs := rfl

@[simp] theorem State.setLineup_rates (s : State) (l : LineId) (ts : List TankId) : (s.setLineup l ts).rates = s.rates := rfl

@[simp] theorem State.setLineup_meass (s : State) (l : LineId) (ts : List TankId) : (s.setLineup l ts).meass = s.meass := rfl

@[simp] theorem State.setLineup_drives (s : State) (l : LineId) (ts : List TankId) : (s.setLineup l ts).drives = s.drives := rfl

@[simp] theorem State.setLineup_lineups (s : State) (l : LineId) (ts : List TankId) :
    (s.setLineup l ts).lineups = vset s.lineups l ts := rfl

@[simp] theorem State.setLineup_tanks (s : State) (l : LineId) (ts : List TankId) : (s.setLineup l ts).tanks = s.tanks := rfl

@[simp] theorem State.setLineup_link (s : State) (l : LineId) (ts : List TankId) : (s.setLineup l ts).link = s.link := rfl

@[simp] theorem State.setLineup_esd (s : State) (l : LineId) (ts : List TankId) : (s.setLineup l ts).esd = s.esd := rfl

@[simp] theorem State.setLineup_device (s : State) (l : LineId) (ts : List TankId) : (s.setLineup l ts).device = s.device := rfl

@[simp] theorem State.setLineup_overfills (s : State) (l : LineId) (ts : List TankId) : (s.setLineup l ts).overfills = s.overfills := rfl

@[simp] theorem State.setLineup_alarms (s : State) (l : LineId) (ts : List TankId) : (s.setLineup l ts).alarms = s.alarms := rfl

@[simp] theorem State.setLineup_horn (s : State) (l : LineId) (ts : List TankId) : (s.setLineup l ts).horn = s.horn := rfl

@[simp] theorem State.setLineup_port (s : State) (l : LineId) (ts : List TankId) : (s.setLineup l ts).port = s.port := rfl

@[simp] theorem State.setLineup_notices (s : State) (l : LineId) (ts : List TankId) : (s.setLineup l ts).notices = s.notices := rfl

@[simp] theorem State.setLineup_linkResult (s : State) (l : LineId) (ts : List TankId) : (s.setLineup l ts).linkResult = s.linkResult := rfl

/-! ### setTank -/

@[simp] theorem State.setTank_pending (s : State) (t : TankId) (r : Option Tank) : (s.setTank t r).pending = s.pending := rfl

@[simp] theorem State.setTank_clock (s : State) (t : TankId) (r : Option Tank) : (s.setTank t r).clock = s.clock := rfl

@[simp] theorem State.setTank_phase (s : State) (t : TankId) (r : Option Tank) : (s.setTank t r).phase = s.phase := rfl

@[simp] theorem State.setTank_key (s : State) (t : TankId) (r : Option Tank) : (s.setTank t r).key = s.key := rfl

@[simp] theorem State.setTank_settings (s : State) (t : TankId) (r : Option Tank) : (s.setTank t r).settings = s.settings := rfl

@[simp] theorem State.setTank_store (s : State) (t : TankId) (r : Option Tank) : (s.setTank t r).store = s.store := rfl

@[simp] theorem State.setTank_seqs (s : State) (t : TankId) (r : Option Tank) : (s.setTank t r).seqs = s.seqs := rfl

@[simp] theorem State.setTank_rates (s : State) (t : TankId) (r : Option Tank) : (s.setTank t r).rates = s.rates := rfl

@[simp] theorem State.setTank_meass (s : State) (t : TankId) (r : Option Tank) : (s.setTank t r).meass = s.meass := rfl

@[simp] theorem State.setTank_drives (s : State) (t : TankId) (r : Option Tank) : (s.setTank t r).drives = s.drives := rfl

@[simp] theorem State.setTank_lineups (s : State) (t : TankId) (r : Option Tank) : (s.setTank t r).lineups = s.lineups := rfl

@[simp] theorem State.setTank_tanks (s : State) (t : TankId) (r : Option Tank) :
    (s.setTank t r).tanks = vset s.tanks t r := rfl

@[simp] theorem State.setTank_link (s : State) (t : TankId) (r : Option Tank) : (s.setTank t r).link = s.link := rfl

@[simp] theorem State.setTank_esd (s : State) (t : TankId) (r : Option Tank) : (s.setTank t r).esd = s.esd := rfl

@[simp] theorem State.setTank_device (s : State) (t : TankId) (r : Option Tank) : (s.setTank t r).device = s.device := rfl

@[simp] theorem State.setTank_overfills (s : State) (t : TankId) (r : Option Tank) : (s.setTank t r).overfills = s.overfills := rfl

@[simp] theorem State.setTank_alarms (s : State) (t : TankId) (r : Option Tank) : (s.setTank t r).alarms = s.alarms := rfl

@[simp] theorem State.setTank_horn (s : State) (t : TankId) (r : Option Tank) : (s.setTank t r).horn = s.horn := rfl

@[simp] theorem State.setTank_port (s : State) (t : TankId) (r : Option Tank) : (s.setTank t r).port = s.port := rfl

@[simp] theorem State.setTank_notices (s : State) (t : TankId) (r : Option Tank) : (s.setTank t r).notices = s.notices := rfl

@[simp] theorem State.setTank_linkResult (s : State) (t : TankId) (r : Option Tank) : (s.setTank t r).linkResult = s.linkResult := rfl

/-! ### setRecord -/

@[simp] theorem State.setRecord_pending (s : State) (l : LineId) (r : LineRecord) : (s.setRecord l r).pending = s.pending := rfl

@[simp] theorem State.setRecord_clock (s : State) (l : LineId) (r : LineRecord) : (s.setRecord l r).clock = s.clock := rfl

@[simp] theorem State.setRecord_phase (s : State) (l : LineId) (r : LineRecord) : (s.setRecord l r).phase = s.phase := rfl

@[simp] theorem State.setRecord_key (s : State) (l : LineId) (r : LineRecord) : (s.setRecord l r).key = s.key := rfl

@[simp] theorem State.setRecord_settings (s : State) (l : LineId) (r : LineRecord) : (s.setRecord l r).settings = s.settings := rfl

@[simp] theorem State.setRecord_store (s : State) (l : LineId) (r : LineRecord) :
    (s.setRecord l r).store = { s.store with records := vset s.store.records l r } := rfl

@[simp] theorem State.setRecord_seqs (s : State) (l : LineId) (r : LineRecord) : (s.setRecord l r).seqs = s.seqs := rfl

@[simp] theorem State.setRecord_rates (s : State) (l : LineId) (r : LineRecord) : (s.setRecord l r).rates = s.rates := rfl

@[simp] theorem State.setRecord_meass (s : State) (l : LineId) (r : LineRecord) : (s.setRecord l r).meass = s.meass := rfl

@[simp] theorem State.setRecord_drives (s : State) (l : LineId) (r : LineRecord) : (s.setRecord l r).drives = s.drives := rfl

@[simp] theorem State.setRecord_lineups (s : State) (l : LineId) (r : LineRecord) : (s.setRecord l r).lineups = s.lineups := rfl

@[simp] theorem State.setRecord_tanks (s : State) (l : LineId) (r : LineRecord) : (s.setRecord l r).tanks = s.tanks := rfl

@[simp] theorem State.setRecord_link (s : State) (l : LineId) (r : LineRecord) : (s.setRecord l r).link = s.link := rfl

@[simp] theorem State.setRecord_esd (s : State) (l : LineId) (r : LineRecord) : (s.setRecord l r).esd = s.esd := rfl

@[simp] theorem State.setRecord_device (s : State) (l : LineId) (r : LineRecord) : (s.setRecord l r).device = s.device := rfl

@[simp] theorem State.setRecord_overfills (s : State) (l : LineId) (r : LineRecord) : (s.setRecord l r).overfills = s.overfills := rfl

@[simp] theorem State.setRecord_alarms (s : State) (l : LineId) (r : LineRecord) : (s.setRecord l r).alarms = s.alarms := rfl

@[simp] theorem State.setRecord_horn (s : State) (l : LineId) (r : LineRecord) : (s.setRecord l r).horn = s.horn := rfl

@[simp] theorem State.setRecord_port (s : State) (l : LineId) (r : LineRecord) : (s.setRecord l r).port = s.port := rfl

@[simp] theorem State.setRecord_notices (s : State) (l : LineId) (r : LineRecord) : (s.setRecord l r).notices = s.notices := rfl

@[simp] theorem State.setRecord_linkResult (s : State) (l : LineId) (r : LineRecord) : (s.setRecord l r).linkResult = s.linkResult := rfl

/-! ### modLink -/

@[simp] theorem State.modLink_pending (s : State) (f : Link → Link) : (s.modLink f).pending = s.pending := rfl

@[simp] theorem State.modLink_clock (s : State) (f : Link → Link) : (s.modLink f).clock = s.clock := rfl

@[simp] theorem State.modLink_phase (s : State) (f : Link → Link) : (s.modLink f).phase = s.phase := rfl

@[simp] theorem State.modLink_key (s : State) (f : Link → Link) : (s.modLink f).key = s.key := rfl

@[simp] theorem State.modLink_settings (s : State) (f : Link → Link) : (s.modLink f).settings = s.settings := rfl

@[simp] theorem State.modLink_store (s : State) (f : Link → Link) : (s.modLink f).store = s.store := rfl

@[simp] theorem State.modLink_seqs (s : State) (f : Link → Link) : (s.modLink f).seqs = s.seqs := rfl

@[simp] theorem State.modLink_rates (s : State) (f : Link → Link) : (s.modLink f).rates = s.rates := rfl

@[simp] theorem State.modLink_meass (s : State) (f : Link → Link) : (s.modLink f).meass = s.meass := rfl

@[simp] theorem State.modLink_drives (s : State) (f : Link → Link) : (s.modLink f).drives = s.drives := rfl

@[simp] theorem State.modLink_lineups (s : State) (f : Link → Link) : (s.modLink f).lineups = s.lineups := rfl

@[simp] theorem State.modLink_tanks (s : State) (f : Link → Link) : (s.modLink f).tanks = s.tanks := rfl

@[simp] theorem State.modLink_link (s : State) (f : Link → Link) :
    (s.modLink f).link = f s.link := rfl

@[simp] theorem State.modLink_esd (s : State) (f : Link → Link) : (s.modLink f).esd = s.esd := rfl

@[simp] theorem State.modLink_device (s : State) (f : Link → Link) : (s.modLink f).device = s.device := rfl

@[simp] theorem State.modLink_overfills (s : State) (f : Link → Link) : (s.modLink f).overfills = s.overfills := rfl

@[simp] theorem State.modLink_alarms (s : State) (f : Link → Link) : (s.modLink f).alarms = s.alarms := rfl

@[simp] theorem State.modLink_horn (s : State) (f : Link → Link) : (s.modLink f).horn = s.horn := rfl

@[simp] theorem State.modLink_port (s : State) (f : Link → Link) : (s.modLink f).port = s.port := rfl

@[simp] theorem State.modLink_notices (s : State) (f : Link → Link) : (s.modLink f).notices = s.notices := rfl

@[simp] theorem State.modLink_linkResult (s : State) (f : Link → Link) : (s.modLink f).linkResult = s.linkResult := rfl

/-! ### setAlarms -/

@[simp] theorem State.setAlarms_pending (s : State) (as : List Alarm) : (s.setAlarms as).pending = s.pending := rfl

@[simp] theorem State.setAlarms_clock (s : State) (as : List Alarm) : (s.setAlarms as).clock = s.clock := rfl

@[simp] theorem State.setAlarms_phase (s : State) (as : List Alarm) : (s.setAlarms as).phase = s.phase := rfl

@[simp] theorem State.setAlarms_key (s : State) (as : List Alarm) : (s.setAlarms as).key = s.key := rfl

@[simp] theorem State.setAlarms_settings (s : State) (as : List Alarm) : (s.setAlarms as).settings = s.settings := rfl

@[simp] theorem State.setAlarms_store (s : State) (as : List Alarm) : (s.setAlarms as).store = s.store := rfl

@[simp] theorem State.setAlarms_seqs (s : State) (as : List Alarm) : (s.setAlarms as).seqs = s.seqs := rfl

@[simp] theorem State.setAlarms_rates (s : State) (as : List Alarm) : (s.setAlarms as).rates = s.rates := rfl

@[simp] theorem State.setAlarms_meass (s : State) (as : List Alarm) : (s.setAlarms as).meass = s.meass := rfl

@[simp] theorem State.setAlarms_drives (s : State) (as : List Alarm) : (s.setAlarms as).drives = s.drives := rfl

@[simp] theorem State.setAlarms_lineups (s : State) (as : List Alarm) : (s.setAlarms as).lineups = s.lineups := rfl

@[simp] theorem State.setAlarms_tanks (s : State) (as : List Alarm) : (s.setAlarms as).tanks = s.tanks := rfl

@[simp] theorem State.setAlarms_link (s : State) (as : List Alarm) : (s.setAlarms as).link = s.link := rfl

@[simp] theorem State.setAlarms_esd (s : State) (as : List Alarm) : (s.setAlarms as).esd = s.esd := rfl

@[simp] theorem State.setAlarms_device (s : State) (as : List Alarm) : (s.setAlarms as).device = s.device := rfl

@[simp] theorem State.setAlarms_overfills (s : State) (as : List Alarm) : (s.setAlarms as).overfills = s.overfills := rfl

@[simp] theorem State.setAlarms_alarms (s : State) (as : List Alarm) :
    (s.setAlarms as).alarms = as := rfl

@[simp] theorem State.setAlarms_horn (s : State) (as : List Alarm) :
    (s.setAlarms as).horn = (as.any fun a => !a.acked) := rfl

@[simp] theorem State.setAlarms_port (s : State) (as : List Alarm) : (s.setAlarms as).port = s.port := rfl

@[simp] theorem State.setAlarms_notices (s : State) (as : List Alarm) : (s.setAlarms as).notices = s.notices := rfl

@[simp] theorem State.setAlarms_linkResult (s : State) (as : List Alarm) : (s.setAlarms as).linkResult = s.linkResult := rfl

/-! ### answer -/

@[simp] theorem State.answer_pending (s : State) (fs : List String) : (s.answer fs).pending = s.pending := rfl

@[simp] theorem State.answer_clock (s : State) (fs : List String) : (s.answer fs).clock = s.clock := rfl

@[simp] theorem State.answer_phase (s : State) (fs : List String) : (s.answer fs).phase = s.phase := rfl

@[simp] theorem State.answer_key (s : State) (fs : List String) : (s.answer fs).key = s.key := rfl

@[simp] theorem State.answer_settings (s : State) (fs : List String) : (s.answer fs).settings = s.settings := rfl

@[simp] theorem State.answer_store (s : State) (fs : List String) : (s.answer fs).store = s.store := rfl

@[simp] theorem State.answer_seqs (s : State) (fs : List String) : (s.answer fs).seqs = s.seqs := rfl

@[simp] theorem State.answer_rates (s : State) (fs : List String) : (s.answer fs).rates = s.rates := rfl

@[simp] theorem State.answer_meass (s : State) (fs : List String) : (s.answer fs).meass = s.meass := rfl

@[simp] theorem State.answer_drives (s : State) (fs : List String) : (s.answer fs).drives = s.drives := rfl

@[simp] theorem State.answer_lineups (s : State) (fs : List String) : (s.answer fs).lineups = s.lineups := rfl

@[simp] theorem State.answer_tanks (s : State) (fs : List String) : (s.answer fs).tanks = s.tanks := rfl

@[simp] theorem State.answer_link (s : State) (fs : List String) : (s.answer fs).link = s.link := rfl

@[simp] theorem State.answer_esd (s : State) (fs : List String) : (s.answer fs).esd = s.esd := rfl

@[simp] theorem State.answer_device (s : State) (fs : List String) : (s.answer fs).device = s.device := rfl

@[simp] theorem State.answer_overfills (s : State) (fs : List String) : (s.answer fs).overfills = s.overfills := rfl

@[simp] theorem State.answer_alarms (s : State) (fs : List String) : (s.answer fs).alarms = s.alarms := rfl

@[simp] theorem State.answer_horn (s : State) (fs : List String) : (s.answer fs).horn = s.horn := rfl

@[simp] theorem State.answer_port (s : State) (fs : List String) :
    (s.answer fs).port = { s.port with waiting := some fs } := rfl

@[simp] theorem State.answer_notices (s : State) (fs : List String) : (s.answer fs).notices = s.notices := rfl

@[simp] theorem State.answer_linkResult (s : State) (fs : List String) : (s.answer fs).linkResult = s.linkResult := rfl

/-! ### nextDs -/

@[simp] theorem State.nextDs_pending (s : State) : s.nextDs.pending = s.pending := rfl

@[simp] theorem State.nextDs_clock (s : State) :
    s.nextDs.clock = s.clock + 1 := rfl

@[simp] theorem State.nextDs_phase (s : State) : s.nextDs.phase = s.phase := rfl

@[simp] theorem State.nextDs_key (s : State) : s.nextDs.key = s.key := rfl

@[simp] theorem State.nextDs_settings (s : State) : s.nextDs.settings = s.settings := rfl

@[simp] theorem State.nextDs_store (s : State) : s.nextDs.store = s.store := rfl

@[simp] theorem State.nextDs_seqs (s : State) : s.nextDs.seqs = s.seqs := rfl

@[simp] theorem State.nextDs_rates (s : State) : s.nextDs.rates = s.rates := rfl

@[simp] theorem State.nextDs_meass (s : State) : s.nextDs.meass = s.meass := rfl

@[simp] theorem State.nextDs_drives (s : State) : s.nextDs.drives = s.drives := rfl

@[simp] theorem State.nextDs_lineups (s : State) : s.nextDs.lineups = s.lineups := rfl

@[simp] theorem State.nextDs_tanks (s : State) : s.nextDs.tanks = s.tanks := rfl

@[simp] theorem State.nextDs_link (s : State) : s.nextDs.link = s.link := rfl

@[simp] theorem State.nextDs_esd (s : State) : s.nextDs.esd = s.esd := rfl

@[simp] theorem State.nextDs_device (s : State) : s.nextDs.device = s.device := rfl

@[simp] theorem State.nextDs_overfills (s : State) : s.nextDs.overfills = s.overfills := rfl

@[simp] theorem State.nextDs_alarms (s : State) : s.nextDs.alarms = s.alarms := rfl

@[simp] theorem State.nextDs_horn (s : State) : s.nextDs.horn = s.horn := rfl

@[simp] theorem State.nextDs_port (s : State) : s.nextDs.port = s.port := rfl

@[simp] theorem State.nextDs_notices (s : State) : s.nextDs.notices = s.notices := rfl

@[simp] theorem State.nextDs_linkResult (s : State) : s.nextDs.linkResult = s.linkResult := rfl

/-! ### setKey -/

@[simp] theorem State.setKey_pending (s : State) (on : Bool) : (s.setKey on).pending = s.pending := rfl

@[simp] theorem State.setKey_clock (s : State) (on : Bool) : (s.setKey on).clock = s.clock := rfl

@[simp] theorem State.setKey_phase (s : State) (on : Bool) : (s.setKey on).phase = s.phase := rfl

@[simp] theorem State.setKey_key (s : State) (on : Bool) :
    (s.setKey on).key = on := rfl

@[simp] theorem State.setKey_settings (s : State) (on : Bool) : (s.setKey on).settings = s.settings := rfl

@[simp] theorem State.setKey_store (s : State) (on : Bool) : (s.setKey on).store = s.store := rfl

@[simp] theorem State.setKey_seqs (s : State) (on : Bool) : (s.setKey on).seqs = s.seqs := rfl

@[simp] theorem State.setKey_rates (s : State) (on : Bool) : (s.setKey on).rates = s.rates := rfl

@[simp] theorem State.setKey_meass (s : State) (on : Bool) : (s.setKey on).meass = s.meass := rfl

@[simp] theorem State.setKey_drives (s : State) (on : Bool) : (s.setKey on).drives = s.drives := rfl

@[simp] theorem State.setKey_lineups (s : State) (on : Bool) : (s.setKey on).lineups = s.lineups := rfl

@[simp] theorem State.setKey_tanks (s : State) (on : Bool) : (s.setKey on).tanks = s.tanks := rfl

@[simp] theorem State.setKey_link (s : State) (on : Bool) : (s.setKey on).link = s.link := rfl

@[simp] theorem State.setKey_esd (s : State) (on : Bool) : (s.setKey on).esd = s.esd := rfl

@[simp] theorem State.setKey_device (s : State) (on : Bool) : (s.setKey on).device = s.device := rfl

@[simp] theorem State.setKey_overfills (s : State) (on : Bool) : (s.setKey on).overfills = s.overfills := rfl

@[simp] theorem State.setKey_alarms (s : State) (on : Bool) : (s.setKey on).alarms = s.alarms := rfl

@[simp] theorem State.setKey_horn (s : State) (on : Bool) : (s.setKey on).horn = s.horn := rfl

@[simp] theorem State.setKey_port (s : State) (on : Bool) : (s.setKey on).port = s.port := rfl

@[simp] theorem State.setKey_notices (s : State) (on : Bool) : (s.setKey on).notices = s.notices := rfl

@[simp] theorem State.setKey_linkResult (s : State) (on : Bool) : (s.setKey on).linkResult = s.linkResult := rfl

/-! ### Reads after modRate -/

@[simp] theorem State.modRate_seq (s : State) (l : LineId) (f : Rate → Rate) (l' : LineId) :
    (s.modRate l f).seq l' = s.seq l' := rfl

@[simp] theorem State.modRate_rate (s : State) (l : LineId) (f : Rate → Rate) (l' : LineId) :
    (s.modRate l f).rate l' = if l' = l then f (s.rate l) else s.rate l' := by
  simp [State.rate]

@[simp] theorem State.modRate_meas (s : State) (l : LineId) (f : Rate → Rate) (l' : LineId) :
    (s.modRate l f).meas l' = s.meas l' := rfl

@[simp] theorem State.modRate_drive (s : State) (l : LineId) (f : Rate → Rate) (l' : LineId) :
    (s.modRate l f).drive l' = s.drive l' := rfl

@[simp] theorem State.modRate_lineup (s : State) (l : LineId) (f : Rate → Rate) (l' : LineId) :
    (s.modRate l f).lineup l' = s.lineup l' := rfl

@[simp] theorem State.modRate_tank (s : State) (l : LineId) (f : Rate → Rate) (t' : TankId) :
    (s.modRate l f).tank t' = s.tank t' := rfl

@[simp] theorem State.modRate_record (s : State) (l : LineId) (f : Rate → Rate) (l' : LineId) :
    (s.modRate l f).record l' = s.record l' := rfl

@[simp] theorem State.modRate_limits (s : State) (l : LineId) (f : Rate → Rate) (l' : LineId) :
    (s.modRate l f).limits l' = s.limits l' := rfl

@[simp] theorem State.modRate_writing (s : State) (l : LineId) (f : Rate → Rate) (l' : LineId) :
    (s.modRate l f).writing l' = s.writing l' := rfl

@[simp] theorem State.modRate_tankState (s : State) (l : LineId) (f : Rate → Rate) (t' : TankId) :
    (s.modRate l f).tankState t' = s.tankState t' := rfl

@[simp] theorem State.modRate_tankLine (s : State) (l : LineId) (f : Rate → Rate) (t' : TankId) :
    (s.modRate l f).tankLine t' = s.tankLine t' := rfl

/-! ### Reads after modMeas -/

@[simp] theorem State.modMeas_seq (s : State) (l : LineId) (f : Meas → Meas) (l' : LineId) :
    (s.modMeas l f).seq l' = s.seq l' := rfl

@[simp] theorem State.modMeas_rate (s : State) (l : LineId) (f : Meas → Meas) (l' : LineId) :
    (s.modMeas l f).rate l' = s.rate l' := rfl

@[simp] theorem State.modMeas_meas (s : State) (l : LineId) (f : Meas → Meas) (l' : LineId) :
    (s.modMeas l f).meas l' = if l' = l then f (s.meas l) else s.meas l' := by
  simp [State.meas]

@[simp] theorem State.modMeas_drive (s : State) (l : LineId) (f : Meas → Meas) (l' : LineId) :
    (s.modMeas l f).drive l' = s.drive l' := rfl

@[simp] theorem State.modMeas_lineup (s : State) (l : LineId) (f : Meas → Meas) (l' : LineId) :
    (s.modMeas l f).lineup l' = s.lineup l' := rfl

@[simp] theorem State.modMeas_tank (s : State) (l : LineId) (f : Meas → Meas) (t' : TankId) :
    (s.modMeas l f).tank t' = s.tank t' := rfl

@[simp] theorem State.modMeas_record (s : State) (l : LineId) (f : Meas → Meas) (l' : LineId) :
    (s.modMeas l f).record l' = s.record l' := rfl

@[simp] theorem State.modMeas_limits (s : State) (l : LineId) (f : Meas → Meas) (l' : LineId) :
    (s.modMeas l f).limits l' = s.limits l' := rfl

@[simp] theorem State.modMeas_writing (s : State) (l : LineId) (f : Meas → Meas) (l' : LineId) :
    (s.modMeas l f).writing l' = s.writing l' := rfl

@[simp] theorem State.modMeas_tankState (s : State) (l : LineId) (f : Meas → Meas) (t' : TankId) :
    (s.modMeas l f).tankState t' = s.tankState t' := rfl

@[simp] theorem State.modMeas_tankLine (s : State) (l : LineId) (f : Meas → Meas) (t' : TankId) :
    (s.modMeas l f).tankLine t' = s.tankLine t' := rfl

/-! ### Reads after modDrive -/

@[simp] theorem State.modDrive_seq (s : State) (l : LineId) (f : Drive → Drive) (l' : LineId) :
    (s.modDrive l f).seq l' = s.seq l' := rfl

@[simp] theorem State.modDrive_rate (s : State) (l : LineId) (f : Drive → Drive) (l' : LineId) :
    (s.modDrive l f).rate l' = s.rate l' := rfl

@[simp] theorem State.modDrive_meas (s : State) (l : LineId) (f : Drive → Drive) (l' : LineId) :
    (s.modDrive l f).meas l' = s.meas l' := rfl

@[simp] theorem State.modDrive_drive (s : State) (l : LineId) (f : Drive → Drive) (l' : LineId) :
    (s.modDrive l f).drive l' = if l' = l then f (s.drive l) else s.drive l' := by
  simp [State.drive]

@[simp] theorem State.modDrive_lineup (s : State) (l : LineId) (f : Drive → Drive) (l' : LineId) :
    (s.modDrive l f).lineup l' = s.lineup l' := rfl

@[simp] theorem State.modDrive_tank (s : State) (l : LineId) (f : Drive → Drive) (t' : TankId) :
    (s.modDrive l f).tank t' = s.tank t' := rfl

@[simp] theorem State.modDrive_record (s : State) (l : LineId) (f : Drive → Drive) (l' : LineId) :
    (s.modDrive l f).record l' = s.record l' := rfl

@[simp] theorem State.modDrive_limits (s : State) (l : LineId) (f : Drive → Drive) (l' : LineId) :
    (s.modDrive l f).limits l' = s.limits l' := rfl

@[simp] theorem State.modDrive_writing (s : State) (l : LineId) (f : Drive → Drive) (l' : LineId) :
    (s.modDrive l f).writing l' = s.writing l' := rfl

@[simp] theorem State.modDrive_tankState (s : State) (l : LineId) (f : Drive → Drive) (t' : TankId) :
    (s.modDrive l f).tankState t' = s.tankState t' := rfl

@[simp] theorem State.modDrive_tankLine (s : State) (l : LineId) (f : Drive → Drive) (t' : TankId) :
    (s.modDrive l f).tankLine t' = s.tankLine t' := rfl

/-! ### Reads after setLineup -/

@[simp] theorem State.setLineup_seq (s : State) (l : LineId) (ts : List TankId) (l' : LineId) :
    (s.setLineup l ts).seq l' = s.seq l' := rfl

@[simp] theorem State.setLineup_rate (s : State) (l : LineId) (ts : List TankId) (l' : LineId) :
    (s.setLineup l ts).rate l' = s.rate l' := rfl

@[simp] theorem State.setLineup_meas (s : State) (l : LineId) (ts : List TankId) (l' : LineId) :
    (s.setLineup l ts).meas l' = s.meas l' := rfl

@[simp] theorem State.setLineup_drive (s : State) (l : LineId) (ts : List TankId) (l' : LineId) :
    (s.setLineup l ts).drive l' = s.drive l' := rfl

@[simp] theorem State.setLineup_lineup (s : State) (l : LineId) (ts : List TankId) (l' : LineId) :
    (s.setLineup l ts).lineup l' = if l' = l then ts else s.lineup l' := by
  simp [State.lineup]

@[simp] theorem State.setLineup_tank (s : State) (l : LineId) (ts : List TankId) (t' : TankId) :
    (s.setLineup l ts).tank t' = s.tank t' := rfl

@[simp] theorem State.setLineup_record (s : State) (l : LineId) (ts : List TankId) (l' : LineId) :
    (s.setLineup l ts).record l' = s.record l' := rfl

@[simp] theorem State.setLineup_limits (s : State) (l : LineId) (ts : List TankId) (l' : LineId) :
    (s.setLineup l ts).limits l' = s.limits l' := rfl

@[simp] theorem State.setLineup_writing (s : State) (l : LineId) (ts : List TankId) (l' : LineId) :
    (s.setLineup l ts).writing l' = s.writing l' := rfl

@[simp] theorem State.setLineup_tankState (s : State) (l : LineId) (ts : List TankId) (t' : TankId) :
    (s.setLineup l ts).tankState t' = s.tankState t' := rfl

@[simp] theorem State.setLineup_tankLine (s : State) (l : LineId) (ts : List TankId) (t' : TankId) :
    (s.setLineup l ts).tankLine t' = s.tankLine t' := rfl

/-! ### Reads after setTank -/

@[simp] theorem State.setTank_seq (s : State) (t : TankId) (r : Option Tank) (l' : LineId) :
    (s.setTank t r).seq l' = s.seq l' := rfl

@[simp] theorem State.setTank_rate (s : State) (t : TankId) (r : Option Tank) (l' : LineId) :
    (s.setTank t r).rate l' = s.rate l' := rfl

@[simp] theorem State.setTank_meas (s : State) (t : TankId) (r : Option Tank) (l' : LineId) :
    (s.setTank t r).meas l' = s.meas l' := rfl

@[simp] theorem State.setTank_drive (s : State) (t : TankId) (r : Option Tank) (l' : LineId) :
    (s.setTank t r).drive l' = s.drive l' := rfl

@[simp] theorem State.setTank_lineup (s : State) (t : TankId) (r : Option Tank) (l' : LineId) :
    (s.setTank t r).lineup l' = s.lineup l' := rfl

@[simp] theorem State.setTank_tank (s : State) (t : TankId) (r : Option Tank) (t' : TankId) :
    (s.setTank t r).tank t' = if t' = t then r else s.tank t' := by
  simp [State.tank]

@[simp] theorem State.setTank_record (s : State) (t : TankId) (r : Option Tank) (l' : LineId) :
    (s.setTank t r).record l' = s.record l' := rfl

@[simp] theorem State.setTank_limits (s : State) (t : TankId) (r : Option Tank) (l' : LineId) :
    (s.setTank t r).limits l' = s.limits l' := rfl

@[simp] theorem State.setTank_writing (s : State) (t : TankId) (r : Option Tank) (l' : LineId) :
    (s.setTank t r).writing l' = s.writing l' := rfl

/-! ### Reads after setRecord -/

@[simp] theorem State.setRecord_seq (s : State) (l : LineId) (r : LineRecord) (l' : LineId) :
    (s.setRecord l r).seq l' = s.seq l' := rfl

@[simp] theorem State.setRecord_rate (s : State) (l : LineId) (r : LineRecord) (l' : LineId) :
    (s.setRecord l r).rate l' = s.rate l' := rfl

@[simp] theorem State.setRecord_meas (s : State) (l : LineId) (r : LineRecord) (l' : LineId) :
    (s.setRecord l r).meas l' = s.meas l' := rfl

@[simp] theorem State.setRecord_drive (s : State) (l : LineId) (r : LineRecord) (l' : LineId) :
    (s.setRecord l r).drive l' = s.drive l' := rfl

@[simp] theorem State.setRecord_lineup (s : State) (l : LineId) (r : LineRecord) (l' : LineId) :
    (s.setRecord l r).lineup l' = s.lineup l' := rfl

@[simp] theorem State.setRecord_tank (s : State) (l : LineId) (r : LineRecord) (t' : TankId) :
    (s.setRecord l r).tank t' = s.tank t' := rfl

@[simp] theorem State.setRecord_record (s : State) (l : LineId) (r : LineRecord) (l' : LineId) :
    (s.setRecord l r).record l' = if l' = l then r else s.record l' := by
  simp [State.record]

@[simp] theorem State.setRecord_writing (s : State) (l : LineId) (r : LineRecord) (l' : LineId) :
    (s.setRecord l r).writing l' = s.writing l' := rfl

@[simp] theorem State.setRecord_tankState (s : State) (l : LineId) (r : LineRecord) (t' : TankId) :
    (s.setRecord l r).tankState t' = s.tankState t' := rfl

@[simp] theorem State.setRecord_tankLine (s : State) (l : LineId) (r : LineRecord) (t' : TankId) :
    (s.setRecord l r).tankLine t' = s.tankLine t' := rfl

/-! ### Reads after modLink -/

@[simp] theorem State.modLink_seq (s : State) (f : Link → Link) (l' : LineId) :
    (s.modLink f).seq l' = s.seq l' := rfl

@[simp] theorem State.modLink_rate (s : State) (f : Link → Link) (l' : LineId) :
    (s.modLink f).rate l' = s.rate l' := rfl

@[simp] theorem State.modLink_meas (s : State) (f : Link → Link) (l' : LineId) :
    (s.modLink f).meas l' = s.meas l' := rfl

@[simp] theorem State.modLink_drive (s : State) (f : Link → Link) (l' : LineId) :
    (s.modLink f).drive l' = s.drive l' := rfl

@[simp] theorem State.modLink_lineup (s : State) (f : Link → Link) (l' : LineId) :
    (s.modLink f).lineup l' = s.lineup l' := rfl

@[simp] theorem State.modLink_tank (s : State) (f : Link → Link) (t' : TankId) :
    (s.modLink f).tank t' = s.tank t' := rfl

@[simp] theorem State.modLink_record (s : State) (f : Link → Link) (l' : LineId) :
    (s.modLink f).record l' = s.record l' := rfl

@[simp] theorem State.modLink_limits (s : State) (f : Link → Link) (l' : LineId) :
    (s.modLink f).limits l' = s.limits l' := rfl

@[simp] theorem State.modLink_writing (s : State) (f : Link → Link) (l' : LineId) :
    (s.modLink f).writing l' = s.writing l' := rfl

@[simp] theorem State.modLink_tankState (s : State) (f : Link → Link) (t' : TankId) :
    (s.modLink f).tankState t' = s.tankState t' := rfl

@[simp] theorem State.modLink_tankLine (s : State) (f : Link → Link) (t' : TankId) :
    (s.modLink f).tankLine t' = s.tankLine t' := rfl

/-! ### Reads after setAlarms -/

@[simp] theorem State.setAlarms_seq (s : State) (as : List Alarm) (l' : LineId) :
    (s.setAlarms as).seq l' = s.seq l' := rfl

@[simp] theorem State.setAlarms_rate (s : State) (as : List Alarm) (l' : LineId) :
    (s.setAlarms as).rate l' = s.rate l' := rfl

@[simp] theorem State.setAlarms_meas (s : State) (as : List Alarm) (l' : LineId) :
    (s.setAlarms as).meas l' = s.meas l' := rfl

@[simp] theorem State.setAlarms_drive (s : State) (as : List Alarm) (l' : LineId) :
    (s.setAlarms as).drive l' = s.drive l' := rfl

@[simp] theorem State.setAlarms_lineup (s : State) (as : List Alarm) (l' : LineId) :
    (s.setAlarms as).lineup l' = s.lineup l' := rfl

@[simp] theorem State.setAlarms_tank (s : State) (as : List Alarm) (t' : TankId) :
    (s.setAlarms as).tank t' = s.tank t' := rfl

@[simp] theorem State.setAlarms_record (s : State) (as : List Alarm) (l' : LineId) :
    (s.setAlarms as).record l' = s.record l' := rfl

@[simp] theorem State.setAlarms_limits (s : State) (as : List Alarm) (l' : LineId) :
    (s.setAlarms as).limits l' = s.limits l' := rfl

@[simp] theorem State.setAlarms_writing (s : State) (as : List Alarm) (l' : LineId) :
    (s.setAlarms as).writing l' = s.writing l' := rfl

@[simp] theorem State.setAlarms_tankState (s : State) (as : List Alarm) (t' : TankId) :
    (s.setAlarms as).tankState t' = s.tankState t' := rfl

@[simp] theorem State.setAlarms_tankLine (s : State) (as : List Alarm) (t' : TankId) :
    (s.setAlarms as).tankLine t' = s.tankLine t' := rfl

/-! ### Reads after answer -/

@[simp] theorem State.answer_seq (s : State) (fs : List String) (l' : LineId) :
    (s.answer fs).seq l' = s.seq l' := rfl

@[simp] theorem State.answer_rate (s : State) (fs : List String) (l' : LineId) :
    (s.answer fs).rate l' = s.rate l' := rfl

@[simp] theorem State.answer_meas (s : State) (fs : List String) (l' : LineId) :
    (s.answer fs).meas l' = s.meas l' := rfl

@[simp] theorem State.answer_drive (s : State) (fs : List String) (l' : LineId) :
    (s.answer fs).drive l' = s.drive l' := rfl

@[simp] theorem State.answer_lineup (s : State) (fs : List String) (l' : LineId) :
    (s.answer fs).lineup l' = s.lineup l' := rfl

@[simp] theorem State.answer_tank (s : State) (fs : List String) (t' : TankId) :
    (s.answer fs).tank t' = s.tank t' := rfl

@[simp] theorem State.answer_record (s : State) (fs : List String) (l' : LineId) :
    (s.answer fs).record l' = s.record l' := rfl

@[simp] theorem State.answer_limits (s : State) (fs : List String) (l' : LineId) :
    (s.answer fs).limits l' = s.limits l' := rfl

@[simp] theorem State.answer_writing (s : State) (fs : List String) (l' : LineId) :
    (s.answer fs).writing l' = s.writing l' := rfl

@[simp] theorem State.answer_tankState (s : State) (fs : List String) (t' : TankId) :
    (s.answer fs).tankState t' = s.tankState t' := rfl

@[simp] theorem State.answer_tankLine (s : State) (fs : List String) (t' : TankId) :
    (s.answer fs).tankLine t' = s.tankLine t' := rfl

/-! ### Reads after nextDs -/

@[simp] theorem State.nextDs_seq (s : State) (l' : LineId) :
    s.nextDs.seq l' = s.seq l' := rfl

@[simp] theorem State.nextDs_rate (s : State) (l' : LineId) :
    s.nextDs.rate l' = s.rate l' := rfl

@[simp] theorem State.nextDs_meas (s : State) (l' : LineId) :
    s.nextDs.meas l' = s.meas l' := rfl

@[simp] theorem State.nextDs_drive (s : State) (l' : LineId) :
    s.nextDs.drive l' = s.drive l' := rfl

@[simp] theorem State.nextDs_lineup (s : State) (l' : LineId) :
    s.nextDs.lineup l' = s.lineup l' := rfl

@[simp] theorem State.nextDs_tank (s : State) (t' : TankId) :
    s.nextDs.tank t' = s.tank t' := rfl

@[simp] theorem State.nextDs_record (s : State) (l' : LineId) :
    s.nextDs.record l' = s.record l' := rfl

@[simp] theorem State.nextDs_limits (s : State) (l' : LineId) :
    s.nextDs.limits l' = s.limits l' := rfl

@[simp] theorem State.nextDs_writing (s : State) (l' : LineId) :
    s.nextDs.writing l' = s.writing l' := rfl

@[simp] theorem State.nextDs_tankState (s : State) (t' : TankId) :
    s.nextDs.tankState t' = s.tankState t' := rfl

@[simp] theorem State.nextDs_tankLine (s : State) (t' : TankId) :
    s.nextDs.tankLine t' = s.tankLine t' := rfl

/-! ### Reads after setKey -/

@[simp] theorem State.setKey_seq (s : State) (on : Bool) (l' : LineId) :
    (s.setKey on).seq l' = s.seq l' := rfl

@[simp] theorem State.setKey_rate (s : State) (on : Bool) (l' : LineId) :
    (s.setKey on).rate l' = s.rate l' := rfl

@[simp] theorem State.setKey_meas (s : State) (on : Bool) (l' : LineId) :
    (s.setKey on).meas l' = s.meas l' := rfl

@[simp] theorem State.setKey_drive (s : State) (on : Bool) (l' : LineId) :
    (s.setKey on).drive l' = s.drive l' := rfl

@[simp] theorem State.setKey_lineup (s : State) (on : Bool) (l' : LineId) :
    (s.setKey on).lineup l' = s.lineup l' := rfl

@[simp] theorem State.setKey_tank (s : State) (on : Bool) (t' : TankId) :
    (s.setKey on).tank t' = s.tank t' := rfl

@[simp] theorem State.setKey_record (s : State) (on : Bool) (l' : LineId) :
    (s.setKey on).record l' = s.record l' := rfl

@[simp] theorem State.setKey_limits (s : State) (on : Bool) (l' : LineId) :
    (s.setKey on).limits l' = s.limits l' := rfl

@[simp] theorem State.setKey_writing (s : State) (on : Bool) (l' : LineId) :
    (s.setKey on).writing l' = s.writing l' := rfl

@[simp] theorem State.setKey_tankState (s : State) (on : Bool) (t' : TankId) :
    (s.setKey on).tankState t' = s.tankState t' := rfl

@[simp] theorem State.setKey_tankLine (s : State) (on : Bool) (t' : TankId) :
    (s.setKey on).tankLine t' = s.tankLine t' := rfl

end Sys2Proof.Machine
end

