-- ==== Sys2Proof/Laws/Ops.lean ====
section
/-! SUPPORT. What each shared operation of Ops.lean leaves alone, field by field and read by read, and what it does to the
fields it writes. -/

namespace Sys2Proof.Machine

/-! ### notify -/

@[simp] theorem State.notify_pending (s : State) (n : Notice) : (s.notify n).pending = s.pending := by
  unfold State.notify; split <;> [skip; split] <;> rfl

@[simp] theorem State.notify_clock (s : State) (n : Notice) : (s.notify n).clock = s.clock := by
  unfold State.notify; split <;> [skip; split] <;> rfl

@[simp] theorem State.notify_phase (s : State) (n : Notice) : (s.notify n).phase = s.phase := by
  unfold State.notify; split <;> [skip; split] <;> rfl

@[simp] theorem State.notify_key (s : State) (n : Notice) : (s.notify n).key = s.key := by
  unfold State.notify; split <;> [skip; split] <;> rfl

@[simp] theorem State.notify_settings (s : State) (n : Notice) : (s.notify n).settings = s.settings := by
  unfold State.notify; split <;> [skip; split] <;> rfl

@[simp] theorem State.notify_store (s : State) (n : Notice) : (s.notify n).store = s.store := by
  unfold State.notify; split <;> [skip; split] <;> rfl

@[simp] theorem State.notify_seqs (s : State) (n : Notice) : (s.notify n).seqs = s.seqs := by
  unfold State.notify; split <;> [skip; split] <;> rfl

@[simp] theorem State.notify_rates (s : State) (n : Notice) : (s.notify n).rates = s.rates := by
  unfold State.notify; split <;> [skip; split] <;> rfl

@[simp] theorem State.notify_meass (s : State) (n : Notice) : (s.notify n).meass = s.meass := by
  unfold State.notify; split <;> [skip; split] <;> rfl

@[simp] theorem State.notify_drives (s : State) (n : Notice) : (s.notify n).drives = s.drives := by
  unfold State.notify; split <;> [skip; split] <;> rfl

@[simp] theorem State.notify_lineups (s : State) (n : Notice) : (s.notify n).lineups = s.lineups := by
  unfold State.notify; split <;> [skip; split] <;> rfl

@[simp] theorem State.notify_tanks (s : State) (n : Notice) : (s.notify n).tanks = s.tanks := by
  unfold State.notify; split <;> [skip; split] <;> rfl

@[simp] theorem State.notify_link (s : State) (n : Notice) : (s.notify n).link = s.link := by
  unfold State.notify; split <;> [skip; split] <;> rfl

@[simp] theorem State.notify_esd (s : State) (n : Notice) : (s.notify n).esd = s.esd := by
  unfold State.notify; split <;> [skip; split] <;> rfl

@[simp] theorem State.notify_device (s : State) (n : Notice) : (s.notify n).device = s.device := by
  unfold State.notify; split <;> [skip; split] <;> rfl

@[simp] theorem State.notify_overfills (s : State) (n : Notice) : (s.notify n).overfills = s.overfills := by
  unfold State.notify; split <;> [skip; split] <;> rfl

@[simp] theorem State.notify_alarms (s : State) (n : Notice) : (s.notify n).alarms = s.alarms := by
  unfold State.notify; split <;> [skip; split] <;> rfl

@[simp] theorem State.notify_horn (s : State) (n : Notice) : (s.notify n).horn = s.horn := by
  unfold State.notify; split <;> [skip; split] <;> rfl

@[simp] theorem State.notify_port (s : State) (n : Notice) : (s.notify n).port = s.port := by
  unfold State.notify; split <;> [skip; split] <;> rfl

@[simp] theorem State.notify_linkResult (s : State) (n : Notice) : (s.notify n).linkResult = s.linkResult := by
  unfold State.notify; split <;> [skip; split] <;> rfl

@[simp] theorem State.notify_seq (s : State) (n : Notice) (l' : LineId) :
    (s.notify n).seq l' = s.seq l' := by
  simp [State.seq]

@[simp] theorem State.notify_rate (s : State) (n : Notice) (l' : LineId) :
    (s.notify n).rate l' = s.rate l' := by
  simp [State.rate]

@[simp] theorem State.notify_meas (s : State) (n : Notice) (l' : LineId) :
    (s.notify n).meas l' = s.meas l' := by
  simp [State.meas]

@[simp] theorem State.notify_drive (s : State) (n : Notice) (l' : LineId) :
    (s.notify n).drive l' = s.drive l' := by
  simp [State.drive]

@[simp] theorem State.notify_lineup (s : State) (n : Notice) (l' : LineId) :
    (s.notify n).lineup l' = s.lineup l' := by
  simp [State.lineup]

@[simp] theorem State.notify_tank (s : State) (n : Notice) (t' : TankId) :
    (s.notify n).tank t' = s.tank t' := by
  simp [State.tank]

@[simp] theorem State.notify_record (s : State) (n : Notice) (l' : LineId) :
    (s.notify n).record l' = s.record l' := by
  simp [State.record]

@[simp] theorem State.notify_limits (s : State) (n : Notice) (l' : LineId) :
    (s.notify n).limits l' = s.limits l' := by
  simp [State.limits, State.record]

@[simp] theorem State.notify_writing (s : State) (n : Notice) (l' : LineId) :
    (s.notify n).writing l' = s.writing l' := by
  simp [State.writing]

@[simp] theorem State.notify_tankState (s : State) (n : Notice) (t' : TankId) :
    (s.notify n).tankState t' = s.tankState t' := by
  simp [State.tankState, State.tank]

@[simp] theorem State.notify_tankLine (s : State) (n : Notice) (t' : TankId) :
    (s.notify n).tankLine t' = s.tankLine t' := by
  simp [State.tankLine, State.tank]

/-! ### modSeq -/

@[simp] theorem State.modSeq_pending (s : State) (l : LineId) (f : Seq → Seq) : (s.modSeq l f).pending = s.pending := by
  unfold State.modSeq; simp only []; split <;> simp

@[simp] theorem State.modSeq_clock (s : State) (l : LineId) (f : Seq → Seq) : (s.modSeq l f).clock = s.clock := by
  unfold State.modSeq; simp only []; split <;> simp

@[simp] theorem State.modSeq_phase (s : State) (l : LineId) (f : Seq → Seq) : (s.modSeq l f).phase = s.phase := by
  unfold State.modSeq; simp only []; split <;> simp

@[simp] theorem State.modSeq_key (s : State) (l : LineId) (f : Seq → Seq) : (s.modSeq l f).key = s.key := by
  unfold State.modSeq; simp only []; split <;> simp

@[simp] theorem State.modSeq_settings (s : State) (l : LineId) (f : Seq → Seq) : (s.modSeq l f).settings = s.settings := by
  unfold State.modSeq; simp only []; split <;> simp

@[simp] theorem State.modSeq_store (s : State) (l : LineId) (f : Seq → Seq) : (s.modSeq l f).store = s.store := by
  unfold State.modSeq; simp only []; split <;> simp

@[simp] theorem State.modSeq_rates (s : State) (l : LineId) (f : Seq → Seq) : (s.modSeq l f).rates = s.rates := by
  unfold State.modSeq; simp only []; split <;> simp

@[simp] theorem State.modSeq_meass (s : State) (l : LineId) (f : Seq → Seq) : (s.modSeq l f).meass = s.meass := by
  unfold State.modSeq; simp only []; split <;> simp

@[simp] theorem State.modSeq_drives (s : State) (l : LineId) (f : Seq → Seq) : (s.modSeq l f).drives = s.drives := by
  unfold State.modSeq; simp only []; split <;> simp

@[simp] theorem State.modSeq_lineups (s : State) (l : LineId) (f : Seq → Seq) : (s.modSeq l f).lineups = s.lineups := by
  unfold State.modSeq; simp only []; split <;> simp

@[simp] theorem State.modSeq_tanks (s : State) (l : LineId) (f : Seq → Seq) : (s.modSeq l f).tanks = s.tanks := by
  unfold State.modSeq; simp only []; split <;> simp

@[simp] theorem State.modSeq_link (s : State) (l : LineId) (f : Seq → Seq) : (s.modSeq l f).link = s.link := by
  unfold State.modSeq; simp only []; split <;> simp

@[simp] theorem State.modSeq_esd (s : State) (l : LineId) (f : Seq → Seq) : (s.modSeq l f).esd = s.esd := by
  unfold State.modSeq; simp only []; split <;> simp

@[simp] theorem State.modSeq_device (s : State) (l : LineId) (f : Seq → Seq) : (s.modSeq l f).device = s.device := by
  unfold State.modSeq; simp only []; split <;> simp

@[simp] theorem State.modSeq_overfills (s : State) (l : LineId) (f : Seq → Seq) : (s.modSeq l f).overfills = s.overfills := by
  unfold State.modSeq; simp only []; split <;> simp

@[simp] theorem State.modSeq_alarms (s : State) (l : LineId) (f : Seq → Seq) : (s.modSeq l f).alarms = s.alarms := by
  unfold State.modSeq; simp only []; split <;> simp

@[simp] theorem State.modSeq_horn (s : State) (l : LineId) (f : Seq → Seq) : (s.modSeq l f).horn = s.horn := by
  unfold State.modSeq; simp only []; split <;> simp

@[simp] theorem State.modSeq_port (s : State) (l : LineId) (f : Seq → Seq) : (s.modSeq l f).port = s.port := by
  unfold State.modSeq; simp only []; split <;> simp

@[simp] theorem State.modSeq_linkResult (s : State) (l : LineId) (f : Seq → Seq) : (s.modSeq l f).linkResult = s.linkResult := by
  unfold State.modSeq; simp only []; split <;> simp

@[simp] theorem State.modSeq_rate (s : State) (l : LineId) (f : Seq → Seq) (l' : LineId) :
    (s.modSeq l f).rate l' = s.rate l' := by
  simp [State.rate]

@[simp] theorem State.modSeq_meas (s : State) (l : LineId) (f : Seq → Seq) (l' : LineId) :
    (s.modSeq l f).meas l' = s.meas l' := by
  simp [State.meas]

@[simp] theorem State.modSeq_drive (s : State) (l : LineId) (f : Seq → Seq) (l' : LineId) :
    (s.modSeq l f).drive l' = s.drive l' := by
  simp [State.drive]

@[simp] theorem State.modSeq_lineup (s : State) (l : LineId) (f : Seq → Seq) (l' : LineId) :
    (s.modSeq l f).lineup l' = s.lineup l' := by
  simp [State.lineup]

@[simp] theorem State.modSeq_tank (s : State) (l : LineId) (f : Seq → Seq) (t' : TankId) :
    (s.modSeq l f).tank t' = s.tank t' := by
  simp [State.tank]

@[simp] theorem State.modSeq_record (s : State) (l : LineId) (f : Seq → Seq) (l' : LineId) :
    (s.modSeq l f).record l' = s.record l' := by
  simp [State.record]

@[simp] theorem State.modSeq_limits (s : State) (l : LineId) (f : Seq → Seq) (l' : LineId) :
    (s.modSeq l f).limits l' = s.limits l' := by
  simp [State.limits, State.record]

@[simp] theorem State.modSeq_writing (s : State) (l : LineId) (f : Seq → Seq) (l' : LineId) :
    (s.modSeq l f).writing l' = s.writing l' := by
  simp [State.writing]

@[simp] theorem State.modSeq_tankState (s : State) (l : LineId) (f : Seq → Seq) (t' : TankId) :
    (s.modSeq l f).tankState t' = s.tankState t' := by
  simp [State.tankState, State.tank]

@[simp] theorem State.modSeq_tankLine (s : State) (l : LineId) (f : Seq → Seq) (t' : TankId) :
    (s.modSeq l f).tankLine t' = s.tankLine t' := by
  simp [State.tankLine, State.tank]

/-! ### modTank -/

@[simp] theorem State.modTank_pending (s : State) (t : TankId) (f : Tank → Tank) : (s.modTank t f).pending = s.pending := by
  unfold State.modTank; split <;> simp

@[simp] theorem State.modTank_clock (s : State) (t : TankId) (f : Tank → Tank) : (s.modTank t f).clock = s.clock := by
  unfold State.modTank; split <;> simp

@[simp] theorem State.modTank_phase (s : State) (t : TankId) (f : Tank → Tank) : (s.modTank t f).phase = s.phase := by
  unfold State.modTank; split <;> simp

@[simp] theorem State.modTank_key (s : State) (t : TankId) (f : Tank → Tank) : (s.modTank t f).key = s.key := by
  unfold State.modTank; split <;> simp

@[simp] theorem State.modTank_settings (s : State) (t : TankId) (f : Tank → Tank) : (s.modTank t f).settings = s.settings := by
  unfold State.modTank; split <;> simp

@[simp] theorem State.modTank_store (s : State) (t : TankId) (f : Tank → Tank) : (s.modTank t f).store = s.store := by
  unfold State.modTank; split <;> simp

@[simp] theorem State.modTank_seqs (s : State) (t : TankId) (f : Tank → Tank) : (s.modTank t f).seqs = s.seqs := by
  unfold State.modTank; split <;> simp

@[simp] theorem State.modTank_rates (s : State) (t : TankId) (f : Tank → Tank) : (s.modTank t f).rates = s.rates := by
  unfold State.modTank; split <;> simp

@[simp] theorem State.modTank_meass (s : State) (t : TankId) (f : Tank → Tank) : (s.modTank t f).meass = s.meass := by
  unfold State.modTank; split <;> simp

@[simp] theorem State.modTank_drives (s : State) (t : TankId) (f : Tank → Tank) : (s.modTank t f).drives = s.drives := by
  unfold State.modTank; split <;> simp

@[simp] theorem State.modTank_lineups (s : State) (t : TankId) (f : Tank → Tank) : (s.modTank t f).lineups = s.lineups := by
  unfold State.modTank; split <;> simp

@[simp] theorem State.modTank_link (s : State) (t : TankId) (f : Tank → Tank) : (s.modTank t f).link = s.link := by
  unfold State.modTank; split <;> simp

@[simp] theorem State.modTank_esd (s : State) (t : TankId) (f : Tank → Tank) : (s.modTank t f).esd = s.esd := by
  unfold State.modTank; split <;> simp

@[simp] theorem State.modTank_device (s : State) (t : TankId) (f : Tank → Tank) : (s.modTank t f).device = s.device := by
  unfold State.modTank; split <;> simp

@[simp] theorem State.modTank_overfills (s : State) (t : TankId) (f : Tank → Tank) : (s.modTank t f).overfills = s.overfills := by
  unfold State.modTank; split <;> simp

@[simp] theorem State.modTank_alarms (s : State) (t : TankId) (f : Tank → Tank) : (s.modTank t f).alarms = s.alarms := by
  unfold State.modTank; split <;> simp

@[simp] theorem State.modTank_horn (s : State) (t : TankId) (f : Tank → Tank) : (s.modTank t f).horn = s.horn := by
  unfold State.modTank; split <;> simp

@[simp] theorem State.modTank_port (s : State) (t : TankId) (f : Tank → Tank) : (s.modTank t f).port = s.port := by
  unfold State.modTank; split <;> simp

@[simp] theorem State.modTank_notices (s : State) (t : TankId) (f : Tank → Tank) : (s.modTank t f).notices = s.notices := by
  unfold State.modTank; split <;> simp

@[simp] theorem State.modTank_linkResult (s : State) (t : TankId) (f : Tank → Tank) : (s.modTank t f).linkResult = s.linkResult := by
  unfold State.modTank; split <;> simp

@[simp] theorem State.modTank_seq (s : State) (t : TankId) (f : Tank → Tank) (l' : LineId) :
    (s.modTank t f).seq l' = s.seq l' := by
  simp [State.seq]

@[simp] theorem State.modTank_rate (s : State) (t : TankId) (f : Tank → Tank) (l' : LineId) :
    (s.modTank t f).rate l' = s.rate l' := by
  simp [State.rate]

@[simp] theorem State.modTank_meas (s : State) (t : TankId) (f : Tank → Tank) (l' : LineId) :
    (s.modTank t f).meas l' = s.meas l' := by
  simp [State.meas]

@[simp] theorem State.modTank_drive (s : State) (t : TankId) (f : Tank → Tank) (l' : LineId) :
    (s.modTank t f).drive l' = s.drive l' := by
  simp [State.drive]

@[simp] theorem State.modTank_lineup (s : State) (t : TankId) (f : Tank → Tank) (l' : LineId) :
    (s.modTank t f).lineup l' = s.lineup l' := by
  simp [State.lineup]

@[simp] theorem State.modTank_record (s : State) (t : TankId) (f : Tank → Tank) (l' : LineId) :
    (s.modTank t f).record l' = s.record l' := by
  simp [State.record]

@[simp] theorem State.modTank_limits (s : State) (t : TankId) (f : Tank → Tank) (l' : LineId) :
    (s.modTank t f).limits l' = s.limits l' := by
  simp [State.limits, State.record]

@[simp] theorem State.modTank_writing (s : State) (t : TankId) (f : Tank → Tank) (l' : LineId) :
    (s.modTank t f).writing l' = s.writing l' := by
  simp [State.writing]

/-! ### modTankNoticed -/

@[simp] theorem State.modTankNoticed_pending (s : State) (t : TankId) (f : Tank → Tank) : (s.modTankNoticed t f).pending = s.pending := by
  unfold State.modTankNoticed; split <;> [(simp only []; split <;> simp); rfl]

@[simp] theorem State.modTankNoticed_clock (s : State) (t : TankId) (f : Tank → Tank) : (s.modTankNoticed t f).clock = s.clock := by
  unfold State.modTankNoticed; split <;> [(simp only []; split <;> simp); rfl]

@[simp] theorem State.modTankNoticed_phase (s : State) (t : TankId) (f : Tank → Tank) : (s.modTankNoticed t f).phase = s.phase := by
  unfold State.modTankNoticed; split <;> [(simp only []; split <;> simp); rfl]

@[simp] theorem State.modTankNoticed_key (s : State) (t : TankId) (f : Tank → Tank) : (s.modTankNoticed t f).key = s.key := by
  unfold State.modTankNoticed; split <;> [(simp only []; split <;> simp); rfl]

@[simp] theorem State.modTankNoticed_settings (s : State) (t : TankId) (f : Tank → Tank) : (s.modTankNoticed t f).settings = s.settings := by
  unfold State.modTankNoticed; split <;> [(simp only []; split <;> simp); rfl]

@[simp] theorem State.modTankNoticed_store (s : State) (t : TankId) (f : Tank → Tank) : (s.modTankNoticed t f).store = s.store := by
  unfold State.modTankNoticed; split <;> [(simp only []; split <;> simp); rfl]

@[simp] theorem State.modTankNoticed_seqs (s : State) (t : TankId) (f : Tank → Tank) : (s.modTankNoticed t f).seqs = s.seqs := by
  unfold State.modTankNoticed; split <;> [(simp only []; split <;> simp); rfl]

@[simp] theorem State.modTankNoticed_rates (s : State) (t : TankId) (f : Tank → Tank) : (s.modTankNoticed t f).rates = s.rates := by
  unfold State.modTankNoticed; split <;> [(simp only []; split <;> simp); rfl]

@[simp] theorem State.modTankNoticed_meass (s : State) (t : TankId) (f : Tank → Tank) : (s.modTankNoticed t f).meass = s.meass := by
  unfold State.modTankNoticed; split <;> [(simp only []; split <;> simp); rfl]

@[simp] theorem State.modTankNoticed_drives (s : State) (t : TankId) (f : Tank → Tank) : (s.modTankNoticed t f).drives = s.drives := by
  unfold State.modTankNoticed; split <;> [(simp only []; split <;> simp); rfl]

@[simp] theorem State.modTankNoticed_lineups (s : State) (t : TankId) (f : Tank → Tank) : (s.modTankNoticed t f).lineups = s.lineups := by
  unfold State.modTankNoticed; split <;> [(simp only []; split <;> simp); rfl]

@[simp] theorem State.modTankNoticed_link (s : State) (t : TankId) (f : Tank → Tank) : (s.modTankNoticed t f).link = s.link := by
  unfold State.modTankNoticed; split <;> [(simp only []; split <;> simp); rfl]

@[simp] theorem State.modTankNoticed_esd (s : State) (t : TankId) (f : Tank → Tank) : (s.modTankNoticed t f).esd = s.esd := by
  unfold State.modTankNoticed; split <;> [(simp only []; split <;> simp); rfl]

@[simp] theorem State.modTankNoticed_device (s : State) (t : TankId) (f : Tank → Tank) : (s.modTankNoticed t f).device = s.device := by
  unfold State.modTankNoticed; split <;> [(simp only []; split <;> simp); rfl]

@[simp] theorem State.modTankNoticed_overfills (s : State) (t : TankId) (f : Tank → Tank) : (s.modTankNoticed t f).overfills = s.overfills := by
  unfold State.modTankNoticed; split <;> [(simp only []; split <;> simp); rfl]

@[simp] theorem State.modTankNoticed_alarms (s : State) (t : TankId) (f : Tank → Tank) : (s.modTankNoticed t f).alarms = s.alarms := by
  unfold State.modTankNoticed; split <;> [(simp only []; split <;> simp); rfl]

@[simp] theorem State.modTankNoticed_horn (s : State) (t : TankId) (f : Tank → Tank) : (s.modTankNoticed t f).horn = s.horn := by
  unfold State.modTankNoticed; split <;> [(simp only []; split <;> simp); rfl]

@[simp] theorem State.modTankNoticed_port (s : State) (t : TankId) (f : Tank → Tank) : (s.modTankNoticed t f).port = s.port := by
  unfold State.modTankNoticed; split <;> [(simp only []; split <;> simp); rfl]

@[simp] theorem State.modTankNoticed_linkResult (s : State) (t : TankId) (f : Tank → Tank) : (s.modTankNoticed t f).linkResult = s.linkResult := by
  unfold State.modTankNoticed; split <;> [(simp only []; split <;> simp); rfl]

@[simp] theorem State.modTankNoticed_seq (s : State) (t : TankId) (f : Tank → Tank) (l' : LineId) :
    (s.modTankNoticed t f).seq l' = s.seq l' := by
  simp [State.seq]

@[simp] theorem State.modTankNoticed_rate (s : State) (t : TankId) (f : Tank → Tank) (l' : LineId) :
    (s.modTankNoticed t f).rate l' = s.rate l' := by
  simp [State.rate]

@[simp] theorem State.modTankNoticed_meas (s : State) (t : TankId) (f : Tank → Tank) (l' : LineId) :
    (s.modTankNoticed t f).meas l' = s.meas l' := by
  simp [State.meas]

@[simp] theorem State.modTankNoticed_drive (s : State) (t : TankId) (f : Tank → Tank) (l' : LineId) :
    (s.modTankNoticed t f).drive l' = s.drive l' := by
  simp [State.drive]

@[simp] theorem State.modTankNoticed_lineup (s : State) (t : TankId) (f : Tank → Tank) (l' : LineId) :
    (s.modTankNoticed t f).lineup l' = s.lineup l' := by
  simp [State.lineup]

@[simp] theorem State.modTankNoticed_record (s : State) (t : TankId) (f : Tank → Tank) (l' : LineId) :
    (s.modTankNoticed t f).record l' = s.record l' := by
  simp [State.record]

@[simp] theorem State.modTankNoticed_limits (s : State) (t : TankId) (f : Tank → Tank) (l' : LineId) :
    (s.modTankNoticed t f).limits l' = s.limits l' := by
  simp [State.limits, State.record]

@[simp] theorem State.modTankNoticed_writing (s : State) (t : TankId) (f : Tank → Tank) (l' : LineId) :
    (s.modTankNoticed t f).writing l' = s.writing l' := by
  simp [State.writing]

/-! ### modLinkNoticed -/

@[simp] theorem State.modLinkNoticed_pending (s : State) (f : Link → Link) : (s.modLinkNoticed f).pending = s.pending := by
  unfold State.modLinkNoticed; simp only []; split <;> simp

@[simp] theorem State.modLinkNoticed_clock (s : State) (f : Link → Link) : (s.modLinkNoticed f).clock = s.clock := by
  unfold State.modLinkNoticed; simp only []; split <;> simp

@[simp] theorem State.modLinkNoticed_phase (s : State) (f : Link → Link) : (s.modLinkNoticed f).phase = s.phase := by
  unfold State.modLinkNoticed; simp only []; split <;> simp

@[simp] theorem State.modLinkNoticed_key (s : State) (f : Link → Link) : (s.modLinkNoticed f).key = s.key := by
  unfold State.modLinkNoticed; simp only []; split <;> simp

@[simp] theorem State.modLinkNoticed_settings (s : State) (f : Link → Link) : (s.modLinkNoticed f).settings = s.settings := by
  unfold State.modLinkNoticed; simp only []; split <;> simp

@[simp] theorem State.modLinkNoticed_store (s : State) (f : Link → Link) : (s.modLinkNoticed f).store = s.store := by
  unfold State.modLinkNoticed; simp only []; split <;> simp

@[simp] theorem State.modLinkNoticed_seqs (s : State) (f : Link → Link) : (s.modLinkNoticed f).seqs = s.seqs := by
  unfold State.modLinkNoticed; simp only []; split <;> simp

@[simp] theorem State.modLinkNoticed_rates (s : State) (f : Link → Link) : (s.modLinkNoticed f).rates = s.rates := by
  unfold State.modLinkNoticed; simp only []; split <;> simp

@[simp] theorem State.modLinkNoticed_meass (s : State) (f : Link → Link) : (s.modLinkNoticed f).meass = s.meass := by
  unfold State.modLinkNoticed; simp only []; split <;> simp

@[simp] theorem State.modLinkNoticed_drives (s : State) (f : Link → Link) : (s.modLinkNoticed f).drives = s.drives := by
  unfold State.modLinkNoticed; simp only []; split <;> simp

@[simp] theorem State.modLinkNoticed_lineups (s : State) (f : Link → Link) : (s.modLinkNoticed f).lineups = s.lineups := by
  unfold State.modLinkNoticed; simp only []; split <;> simp

@[simp] theorem State.modLinkNoticed_tanks (s : State) (f : Link → Link) : (s.modLinkNoticed f).tanks = s.tanks := by
  unfold State.modLinkNoticed; simp only []; split <;> simp

@[simp] theorem State.modLinkNoticed_esd (s : State) (f : Link → Link) : (s.modLinkNoticed f).esd = s.esd := by
  unfold State.modLinkNoticed; simp only []; split <;> simp

@[simp] theorem State.modLinkNoticed_device (s : State) (f : Link → Link) : (s.modLinkNoticed f).device = s.device := by
  unfold State.modLinkNoticed; simp only []; split <;> simp

@[simp] theorem State.modLinkNoticed_overfills (s : State) (f : Link → Link) : (s.modLinkNoticed f).overfills = s.overfills := by
  unfold State.modLinkNoticed; simp only []; split <;> simp

@[simp] theorem State.modLinkNoticed_alarms (s : State) (f : Link → Link) : (s.modLinkNoticed f).alarms = s.alarms := by
  unfold State.modLinkNoticed; simp only []; split <;> simp

@[simp] theorem State.modLinkNoticed_horn (s : State) (f : Link → Link) : (s.modLinkNoticed f).horn = s.horn := by
  unfold State.modLinkNoticed; simp only []; split <;> simp

@[simp] theorem State.modLinkNoticed_port (s : State) (f : Link → Link) : (s.modLinkNoticed f).port = s.port := by
  unfold State.modLinkNoticed; simp only []; split <;> simp

@[simp] theorem State.modLinkNoticed_linkResult (s : State) (f : Link → Link) : (s.modLinkNoticed f).linkResult = s.linkResult := by
  unfold State.modLinkNoticed; simp only []; split <;> simp

@[simp] theorem State.modLinkNoticed_seq (s : State) (f : Link → Link) (l' : LineId) :
    (s.modLinkNoticed f).seq l' = s.seq l' := by
  simp [State.seq]

@[simp] theorem State.modLinkNoticed_rate (s : State) (f : Link → Link) (l' : LineId) :
    (s.modLinkNoticed f).rate l' = s.rate l' := by
  simp [State.rate]

@[simp] theorem State.modLinkNoticed_meas (s : State) (f : Link → Link) (l' : LineId) :
    (s.modLinkNoticed f).meas l' = s.meas l' := by
  simp [State.meas]

@[simp] theorem State.modLinkNoticed_drive (s : State) (f : Link → Link) (l' : LineId) :
    (s.modLinkNoticed f).drive l' = s.drive l' := by
  simp [State.drive]

@[simp] theorem State.modLinkNoticed_lineup (s : State) (f : Link → Link) (l' : LineId) :
    (s.modLinkNoticed f).lineup l' = s.lineup l' := by
  simp [State.lineup]

@[simp] theorem State.modLinkNoticed_tank (s : State) (f : Link → Link) (t' : TankId) :
    (s.modLinkNoticed f).tank t' = s.tank t' := by
  simp [State.tank]

@[simp] theorem State.modLinkNoticed_record (s : State) (f : Link → Link) (l' : LineId) :
    (s.modLinkNoticed f).record l' = s.record l' := by
  simp [State.record]

@[simp] theorem State.modLinkNoticed_limits (s : State) (f : Link → Link) (l' : LineId) :
    (s.modLinkNoticed f).limits l' = s.limits l' := by
  simp [State.limits, State.record]

@[simp] theorem State.modLinkNoticed_writing (s : State) (f : Link → Link) (l' : LineId) :
    (s.modLinkNoticed f).writing l' = s.writing l' := by
  simp [State.writing]

@[simp] theorem State.modLinkNoticed_tankState (s : State) (f : Link → Link) (t' : TankId) :
    (s.modLinkNoticed f).tankState t' = s.tankState t' := by
  simp [State.tankState, State.tank]

@[simp] theorem State.modLinkNoticed_tankLine (s : State) (f : Link → Link) (t' : TankId) :
    (s.modLinkNoticed f).tankLine t' = s.tankLine t' := by
  simp [State.tankLine, State.tank]

/-! ### setOutcome -/

@[simp] theorem State.setOutcome_pending (s : State) (l : LineId) (o : PermitOutcome) : (s.setOutcome l o).pending = s.pending := by
  unfold State.setOutcome; split <;> simp

@[simp] theorem State.setOutcome_clock (s : State) (l : LineId) (o : PermitOutcome) : (s.setOutcome l o).clock = s.clock := by
  unfold State.setOutcome; split <;> simp

@[simp] theorem State.setOutcome_phase (s : State) (l : LineId) (o : PermitOutcome) : (s.setOutcome l o).phase = s.phase := by
  unfold State.setOutcome; split <;> simp

@[simp] theorem State.setOutcome_key (s : State) (l : LineId) (o : PermitOutcome) : (s.setOutcome l o).key = s.key := by
  unfold State.setOutcome; split <;> simp

@[simp] theorem State.setOutcome_settings (s : State) (l : LineId) (o : PermitOutcome) : (s.setOutcome l o).settings = s.settings := by
  unfold State.setOutcome; split <;> simp

@[simp] theorem State.setOutcome_store (s : State) (l : LineId) (o : PermitOutcome) : (s.setOutcome l o).store = s.store := by
  unfold State.setOutcome; split <;> simp

@[simp] theorem State.setOutcome_seqs (s : State) (l : LineId) (o : PermitOutcome) : (s.setOutcome l o).seqs = s.seqs := by
  unfold State.setOutcome; split <;> simp

@[simp] theorem State.setOutcome_rates (s : State) (l : LineId) (o : PermitOutcome) : (s.setOutcome l o).rates = s.rates := by
  unfold State.setOutcome; split <;> simp

@[simp] theorem State.setOutcome_meass (s : State) (l : LineId) (o : PermitOutcome) : (s.setOutcome l o).meass = s.meass := by
  unfold State.setOutcome; split <;> simp

@[simp] theorem State.setOutcome_drives (s : State) (l : LineId) (o : PermitOutcome) : (s.setOutcome l o).drives = s.drives := by
  unfold State.setOutcome; split <;> simp

@[simp] theorem State.setOutcome_lineups (s : State) (l : LineId) (o : PermitOutcome) : (s.setOutcome l o).lineups = s.lineups := by
  unfold State.setOutcome; split <;> simp

@[simp] theorem State.setOutcome_tanks (s : State) (l : LineId) (o : PermitOutcome) : (s.setOutcome l o).tanks = s.tanks := by
  unfold State.setOutcome; split <;> simp

@[simp] theorem State.setOutcome_esd (s : State) (l : LineId) (o : PermitOutcome) : (s.setOutcome l o).esd = s.esd := by
  unfold State.setOutcome; split <;> simp

@[simp] theorem State.setOutcome_device (s : State) (l : LineId) (o : PermitOutcome) : (s.setOutcome l o).device = s.device := by
  unfold State.setOutcome; split <;> simp

@[simp] theorem State.setOutcome_overfills (s : State) (l : LineId) (o : PermitOutcome) : (s.setOutcome l o).overfills = s.overfills := by
  unfold State.setOutcome; split <;> simp

@[simp] theorem State.setOutcome_alarms (s : State) (l : LineId) (o : PermitOutcome) : (s.setOutcome l o).alarms = s.alarms := by
  unfold State.setOutcome; split <;> simp

@[simp] theorem State.setOutcome_horn (s : State) (l : LineId) (o : PermitOutcome) : (s.setOutcome l o).horn = s.horn := by
  unfold State.setOutcome; split <;> simp

@[simp] theorem State.setOutcome_port (s : State) (l : LineId) (o : PermitOutcome) : (s.setOutcome l o).port = s.port := by
  unfold State.setOutcome; split <;> simp

@[simp] theorem State.setOutcome_linkResult (s : State) (l : LineId) (o : PermitOutcome) : (s.setOutcome l o).linkResult = s.linkResult := by
  unfold State.setOutcome; split <;> simp

@[simp] theorem State.setOutcome_seq (s : State) (l : LineId) (o : PermitOutcome) (l' : LineId) :
    (s.setOutcome l o).seq l' = s.seq l' := by
  simp [State.seq]

@[simp] theorem State.setOutcome_rate (s : State) (l : LineId) (o : PermitOutcome) (l' : LineId) :
    (s.setOutcome l o).rate l' = s.rate l' := by
  simp [State.rate]

@[simp] theorem State.setOutcome_meas (s : State) (l : LineId) (o : PermitOutcome) (l' : LineId) :
    (s.setOutcome l o).meas l' = s.meas l' := by
  simp [State.meas]

@[simp] theorem State.setOutcome_drive (s : State) (l : LineId) (o : PermitOutcome) (l' : LineId) :
    (s.setOutcome l o).drive l' = s.drive l' := by
  simp [State.drive]

@[simp] theorem State.setOutcome_lineup (s : State) (l : LineId) (o : PermitOutcome) (l' : LineId) :
    (s.setOutcome l o).lineup l' = s.lineup l' := by
  simp [State.lineup]

@[simp] theorem State.setOutcome_tank (s : State) (l : LineId) (o : PermitOutcome) (t' : TankId) :
    (s.setOutcome l o).tank t' = s.tank t' := by
  simp [State.tank]

@[simp] theorem State.setOutcome_record (s : State) (l : LineId) (o : PermitOutcome) (l' : LineId) :
    (s.setOutcome l o).record l' = s.record l' := by
  simp [State.record]

@[simp] theorem State.setOutcome_limits (s : State) (l : LineId) (o : PermitOutcome) (l' : LineId) :
    (s.setOutcome l o).limits l' = s.limits l' := by
  simp [State.limits, State.record]

@[simp] theorem State.setOutcome_writing (s : State) (l : LineId) (o : PermitOutcome) (l' : LineId) :
    (s.setOutcome l o).writing l' = s.writing l' := by
  simp [State.writing]

@[simp] theorem State.setOutcome_tankState (s : State) (l : LineId) (o : PermitOutcome) (t' : TankId) :
    (s.setOutcome l o).tankState t' = s.tankState t' := by
  simp [State.tankState, State.tank]

@[simp] theorem State.setOutcome_tankLine (s : State) (l : LineId) (o : PermitOutcome) (t' : TankId) :
    (s.setOutcome l o).tankLine t' = s.tankLine t' := by
  simp [State.tankLine, State.tank]

/-! ### raiseAlarm -/

@[simp] theorem State.raiseAlarm_pending (s : State) (k : AlarmKind) (o : AlarmObject) : (s.raiseAlarm k o).pending = s.pending := by
  unfold State.raiseAlarm; split <;> [simp; (split <;> simp)]

@[simp] theorem State.raiseAlarm_clock (s : State) (k : AlarmKind) (o : AlarmObject) : (s.raiseAlarm k o).clock = s.clock := by
  unfold State.raiseAlarm; split <;> [simp; (split <;> simp)]

@[simp] theorem State.raiseAlarm_phase (s : State) (k : AlarmKind) (o : AlarmObject) : (s.raiseAlarm k o).phase = s.phase := by
  unfold State.raiseAlarm; split <;> [simp; (split <;> simp)]

@[simp] theorem State.raiseAlarm_key (s : State) (k : AlarmKind) (o : AlarmObject) : (s.raiseAlarm k o).key = s.key := by
  unfold State.raiseAlarm; split <;> [simp; (split <;> simp)]

@[simp] theorem State.raiseAlarm_settings (s : State) (k : AlarmKind) (o : AlarmObject) : (s.raiseAlarm k o).settings = s.settings := by
  unfold State.raiseAlarm; split <;> [simp; (split <;> simp)]

@[simp] theorem State.raiseAlarm_store (s : State) (k : AlarmKind) (o : AlarmObject) : (s.raiseAlarm k o).store = s.store := by
  unfold State.raiseAlarm; split <;> [simp; (split <;> simp)]

@[simp] theorem State.raiseAlarm_seqs (s : State) (k : AlarmKind) (o : AlarmObject) : (s.raiseAlarm k o).seqs = s.seqs := by
  unfold State.raiseAlarm; split <;> [simp; (split <;> simp)]

@[simp] theorem State.raiseAlarm_rates (s : State) (k : AlarmKind) (o : AlarmObject) : (s.raiseAlarm k o).rates = s.rates := by
  unfold State.raiseAlarm; split <;> [simp; (split <;> simp)]

@[simp] theorem State.raiseAlarm_meass (s : State) (k : AlarmKind) (o : AlarmObject) : (s.raiseAlarm k o).meass = s.meass := by
  unfold State.raiseAlarm; split <;> [simp; (split <;> simp)]

@[simp] theorem State.raiseAlarm_drives (s : State) (k : AlarmKind) (o : AlarmObject) : (s.raiseAlarm k o).drives = s.drives := by
  unfold State.raiseAlarm; split <;> [simp; (split <;> simp)]

@[simp] theorem State.raiseAlarm_lineups (s : State) (k : AlarmKind) (o : AlarmObject) : (s.raiseAlarm k o).lineups = s.lineups := by
  unfold State.raiseAlarm; split <;> [simp; (split <;> simp)]

@[simp] theorem State.raiseAlarm_tanks (s : State) (k : AlarmKind) (o : AlarmObject) : (s.raiseAlarm k o).tanks = s.tanks := by
  unfold State.raiseAlarm; split <;> [simp; (split <;> simp)]

@[simp] theorem State.raiseAlarm_link (s : State) (k : AlarmKind) (o : AlarmObject) : (s.raiseAlarm k o).link = s.link := by
  unfold State.raiseAlarm; split <;> [simp; (split <;> simp)]

@[simp] theorem State.raiseAlarm_esd (s : State) (k : AlarmKind) (o : AlarmObject) : (s.raiseAlarm k o).esd = s.esd := by
  unfold State.raiseAlarm; split <;> [simp; (split <;> simp)]

@[simp] theorem State.raiseAlarm_device (s : State) (k : AlarmKind) (o : AlarmObject) : (s.raiseAlarm k o).device = s.device := by
  unfold State.raiseAlarm; split <;> [simp; (split <;> simp)]

@[simp] theorem State.raiseAlarm_overfills (s : State) (k : AlarmKind) (o : AlarmObject) : (s.raiseAlarm k o).overfills = s.overfills := by
  unfold State.raiseAlarm; split <;> [simp; (split <;> simp)]

@[simp] theorem State.raiseAlarm_port (s : State) (k : AlarmKind) (o : AlarmObject) : (s.raiseAlarm k o).port = s.port := by
  unfold State.raiseAlarm; split <;> [simp; (split <;> simp)]

@[simp] theorem State.raiseAlarm_linkResult (s : State) (k : AlarmKind) (o : AlarmObject) : (s.raiseAlarm k o).linkResult = s.linkResult := by
  unfold State.raiseAlarm; split <;> [simp; (split <;> simp)]

@[simp] theorem State.raiseAlarm_seq (s : State) (k : AlarmKind) (o : AlarmObject) (l' : LineId) :
    (s.raiseAlarm k o).seq l' = s.seq l' := by
  simp [State.seq]

@[simp] theorem State.raiseAlarm_rate (s : State) (k : AlarmKind) (o : AlarmObject) (l' : LineId) :
    (s.raiseAlarm k o).rate l' = s.rate l' := by
  simp [State.rate]

@[simp] theorem State.raiseAlarm_meas (s : State) (k : AlarmKind) (o : AlarmObject) (l' : LineId) :
    (s.raiseAlarm k o).meas l' = s.meas l' := by
  simp [State.meas]

@[simp] theorem State.raiseAlarm_drive (s : State) (k : AlarmKind) (o : AlarmObject) (l' : LineId) :
    (s.raiseAlarm k o).drive l' = s.drive l' := by
  simp [State.drive]

@[simp] theorem State.raiseAlarm_lineup (s : State) (k : AlarmKind) (o : AlarmObject) (l' : LineId) :
    (s.raiseAlarm k o).lineup l' = s.lineup l' := by
  simp [State.lineup]

@[simp] theorem State.raiseAlarm_tank (s : State) (k : AlarmKind) (o : AlarmObject) (t' : TankId) :
    (s.raiseAlarm k o).tank t' = s.tank t' := by
  simp [State.tank]

@[simp] theorem State.raiseAlarm_record (s : State) (k : AlarmKind) (o : AlarmObject) (l' : LineId) :
    (s.raiseAlarm k o).record l' = s.record l' := by
  simp [State.record]

@[simp] theorem State.raiseAlarm_limits (s : State) (k : AlarmKind) (o : AlarmObject) (l' : LineId) :
    (s.raiseAlarm k o).limits l' = s.limits l' := by
  simp [State.limits, State.record]

@[simp] theorem State.raiseAlarm_writing (s : State) (k : AlarmKind) (o : AlarmObject) (l' : LineId) :
    (s.raiseAlarm k o).writing l' = s.writing l' := by
  simp [State.writing]

@[simp] theorem State.raiseAlarm_tankState (s : State) (k : AlarmKind) (o : AlarmObject) (t' : TankId) :
    (s.raiseAlarm k o).tankState t' = s.tankState t' := by
  simp [State.tankState, State.tank]

@[simp] theorem State.raiseAlarm_tankLine (s : State) (k : AlarmKind) (o : AlarmObject) (t' : TankId) :
    (s.raiseAlarm k o).tankLine t' = s.tankLine t' := by
  simp [State.tankLine, State.tank]

/-! ### alarmGone -/

@[simp] theorem State.alarmGone_pending (s : State) (k : AlarmKind) (o : AlarmObject) : (s.alarmGone k o).pending = s.pending := by
  unfold State.alarmGone; split <;> [rfl; (split <;> [(split <;> simp); rfl])]

@[simp] theorem State.alarmGone_clock (s : State) (k : AlarmKind) (o : AlarmObject) : (s.alarmGone k o).clock = s.clock := by
  unfold State.alarmGone; split <;> [rfl; (split <;> [(split <;> simp); rfl])]

@[simp] theorem State.alarmGone_phase (s : State) (k : AlarmKind) (o : AlarmObject) : (s.alarmGone k o).phase = s.phase := by
  unfold State.alarmGone; split <;> [rfl; (split <;> [(split <;> simp); rfl])]

@[simp] theorem State.alarmGone_key (s : State) (k : AlarmKind) (o : AlarmObject) : (s.alarmGone k o).key = s.key := by
  unfold State.alarmGone; split <;> [rfl; (split <;> [(split <;> simp); rfl])]

@[simp] theorem State.alarmGone_settings (s : State) (k : AlarmKind) (o : AlarmObject) : (s.alarmGone k o).settings = s.settings := by
  unfold State.alarmGone; split <;> [rfl; (split <;> [(split <;> simp); rfl])]

@[simp] theorem State.alarmGone_store (s : State) (k : AlarmKind) (o : AlarmObject) : (s.alarmGone k o).store = s.store := by
  unfold State.alarmGone; split <;> [rfl; (split <;> [(split <;> simp); rfl])]

@[simp] theorem State.alarmGone_seqs (s : State) (k : AlarmKind) (o : AlarmObject) : (s.alarmGone k o).seqs = s.seqs := by
  unfold State.alarmGone; split <;> [rfl; (split <;> [(split <;> simp); rfl])]

@[simp] theorem State.alarmGone_rates (s : State) (k : AlarmKind) (o : AlarmObject) : (s.alarmGone k o).rates = s.rates := by
  unfold State.alarmGone; split <;> [rfl; (split <;> [(split <;> simp); rfl])]

@[simp] theorem State.alarmGone_meass (s : State) (k : AlarmKind) (o : AlarmObject) : (s.alarmGone k o).meass = s.meass := by
  unfold State.alarmGone; split <;> [rfl; (split <;> [(split <;> simp); rfl])]

@[simp] theorem State.alarmGone_drives (s : State) (k : AlarmKind) (o : AlarmObject) : (s.alarmGone k o).drives = s.drives := by
  unfold State.alarmGone; split <;> [rfl; (split <;> [(split <;> simp); rfl])]

@[simp] theorem State.alarmGone_lineups (s : State) (k : AlarmKind) (o : AlarmObject) : (s.alarmGone k o).lineups = s.lineups := by
  unfold State.alarmGone; split <;> [rfl; (split <;> [(split <;> simp); rfl])]

@[simp] theorem State.alarmGone_tanks (s : State) (k : AlarmKind) (o : AlarmObject) : (s.alarmGone k o).tanks = s.tanks := by
  unfold State.alarmGone; split <;> [rfl; (split <;> [(split <;> simp); rfl])]

@[simp] theorem State.alarmGone_link (s : State) (k : AlarmKind) (o : AlarmObject) : (s.alarmGone k o).link = s.link := by
  unfold State.alarmGone; split <;> [rfl; (split <;> [(split <;> simp); rfl])]

@[simp] theorem State.alarmGone_esd (s : State) (k : AlarmKind) (o : AlarmObject) : (s.alarmGone k o).esd = s.esd := by
  unfold State.alarmGone; split <;> [rfl; (split <;> [(split <;> simp); rfl])]

@[simp] theorem State.alarmGone_device (s : State) (k : AlarmKind) (o : AlarmObject) : (s.alarmGone k o).device = s.device := by
  unfold State.alarmGone; split <;> [rfl; (split <;> [(split <;> simp); rfl])]

@[simp] theorem State.alarmGone_overfills (s : State) (k : AlarmKind) (o : AlarmObject) : (s.alarmGone k o).overfills = s.overfills := by
  unfold State.alarmGone; split <;> [rfl; (split <;> [(split <;> simp); rfl])]

@[simp] theorem State.alarmGone_port (s : State) (k : AlarmKind) (o : AlarmObject) : (s.alarmGone k o).port = s.port := by
  unfold State.alarmGone; split <;> [rfl; (split <;> [(split <;> simp); rfl])]

@[simp] theorem State.alarmGone_linkResult (s : State) (k : AlarmKind) (o : AlarmObject) : (s.alarmGone k o).linkResult = s.linkResult := by
  unfold State.alarmGone; split <;> [rfl; (split <;> [(split <;> simp); rfl])]

@[simp] theorem State.alarmGone_seq (s : State) (k : AlarmKind) (o : AlarmObject) (l' : LineId) :
    (s.alarmGone k o).seq l' = s.seq l' := by
  simp [State.seq]

@[simp] theorem State.alarmGone_rate (s : State) (k : AlarmKind) (o : AlarmObject) (l' : LineId) :
    (s.alarmGone k o).rate l' = s.rate l' := by
  simp [State.rate]

@[simp] theorem State.alarmGone_meas (s : State) (k : AlarmKind) (o : AlarmObject) (l' : LineId) :
    (s.alarmGone k o).meas l' = s.meas l' := by
  simp [State.meas]

@[simp] theorem State.alarmGone_drive (s : State) (k : AlarmKind) (o : AlarmObject) (l' : LineId) :
    (s.alarmGone k o).drive l' = s.drive l' := by
  simp [State.drive]

@[simp] theorem State.alarmGone_lineup (s : State) (k : AlarmKind) (o : AlarmObject) (l' : LineId) :
    (s.alarmGone k o).lineup l' = s.lineup l' := by
  simp [State.lineup]

@[simp] theorem State.alarmGone_tank (s : State) (k : AlarmKind) (o : AlarmObject) (t' : TankId) :
    (s.alarmGone k o).tank t' = s.tank t' := by
  simp [State.tank]

@[simp] theorem State.alarmGone_record (s : State) (k : AlarmKind) (o : AlarmObject) (l' : LineId) :
    (s.alarmGone k o).record l' = s.record l' := by
  simp [State.record]

@[simp] theorem State.alarmGone_limits (s : State) (k : AlarmKind) (o : AlarmObject) (l' : LineId) :
    (s.alarmGone k o).limits l' = s.limits l' := by
  simp [State.limits, State.record]

@[simp] theorem State.alarmGone_writing (s : State) (k : AlarmKind) (o : AlarmObject) (l' : LineId) :
    (s.alarmGone k o).writing l' = s.writing l' := by
  simp [State.writing]

@[simp] theorem State.alarmGone_tankState (s : State) (k : AlarmKind) (o : AlarmObject) (t' : TankId) :
    (s.alarmGone k o).tankState t' = s.tankState t' := by
  simp [State.tankState, State.tank]

@[simp] theorem State.alarmGone_tankLine (s : State) (k : AlarmKind) (o : AlarmObject) (t' : TankId) :
    (s.alarmGone k o).tankLine t' = s.tankLine t' := by
  simp [State.tankLine, State.tank]

/-! ### joinDevice -/

@[simp] theorem State.joinDevice_pending (s : State) (d : DeviceTrip) : (s.joinDevice d).pending = s.pending := by
  unfold State.joinDevice; split <;> simp

@[simp] theorem State.joinDevice_clock (s : State) (d : DeviceTrip) : (s.joinDevice d).clock = s.clock := by
  unfold State.joinDevice; split <;> simp

@[simp] theorem State.joinDevice_phase (s : State) (d : DeviceTrip) : (s.joinDevice d).phase = s.phase := by
  unfold State.joinDevice; split <;> simp

@[simp] theorem State.joinDevice_key (s : State) (d : DeviceTrip) : (s.joinDevice d).key = s.key := by
  unfold State.joinDevice; split <;> simp

@[simp] theorem State.joinDevice_settings (s : State) (d : DeviceTrip) : (s.joinDevice d).settings = s.settings := by
  unfold State.joinDevice; split <;> simp

@[simp] theorem State.joinDevice_store (s : State) (d : DeviceTrip) : (s.joinDevice d).store = s.store := by
  unfold State.joinDevice; split <;> simp

@[simp] theorem State.joinDevice_seqs (s : State) (d : DeviceTrip) : (s.joinDevice d).seqs = s.seqs := by
  unfold State.joinDevice; split <;> simp

@[simp] theorem State.joinDevice_rates (s : State) (d : DeviceTrip) : (s.joinDevice d).rates = s.rates := by
  unfold State.joinDevice; split <;> simp

@[simp] theorem State.joinDevice_meass (s : State) (d : DeviceTrip) : (s.joinDevice d).meass = s.meass := by
  unfold State.joinDevice; split <;> simp

@[simp] theorem State.joinDevice_drives (s : State) (d : DeviceTrip) : (s.joinDevice d).drives = s.drives := by
  unfold State.joinDevice; split <;> simp

@[simp] theorem State.joinDevice_lineups (s : State) (d : DeviceTrip) : (s.joinDevice d).lineups = s.lineups := by
  unfold State.joinDevice; split <;> simp

@[simp] theorem State.joinDevice_tanks (s : State) (d : DeviceTrip) : (s.joinDevice d).tanks = s.tanks := by
  unfold State.joinDevice; split <;> simp

@[simp] theorem State.joinDevice_link (s : State) (d : DeviceTrip) : (s.joinDevice d).link = s.link := by
  unfold State.joinDevice; split <;> simp

@[simp] theorem State.joinDevice_esd (s : State) (d : DeviceTrip) : (s.joinDevice d).esd = s.esd := by
  unfold State.joinDevice; split <;> simp

@[simp] theorem State.joinDevice_overfills (s : State) (d : DeviceTrip) : (s.joinDevice d).overfills = s.overfills := by
  unfold State.joinDevice; split <;> simp

@[simp] theorem State.joinDevice_alarms (s : State) (d : DeviceTrip) : (s.joinDevice d).alarms = s.alarms := by
  unfold State.joinDevice; split <;> simp

@[simp] theorem State.joinDevice_horn (s : State) (d : DeviceTrip) : (s.joinDevice d).horn = s.horn := by
  unfold State.joinDevice; split <;> simp

@[simp] theorem State.joinDevice_port (s : State) (d : DeviceTrip) : (s.joinDevice d).port = s.port := by
  unfold State.joinDevice; split <;> simp

@[simp] theorem State.joinDevice_linkResult (s : State) (d : DeviceTrip) : (s.joinDevice d).linkResult = s.linkResult := by
  unfold State.joinDevice; split <;> simp

@[simp] theorem State.joinDevice_seq (s : State) (d : DeviceTrip) (l' : LineId) :
    (s.joinDevice d).seq l' = s.seq l' := by
  simp [State.seq]

@[simp] theorem State.joinDevice_rate (s : State) (d : DeviceTrip) (l' : LineId) :
    (s.joinDevice d).rate l' = s.rate l' := by
  simp [State.rate]

@[simp] theorem State.joinDevice_meas (s : State) (d : DeviceTrip) (l' : LineId) :
    (s.joinDevice d).meas l' = s.meas l' := by
  simp [State.meas]

@[simp] theorem State.joinDevice_drive (s : State) (d : DeviceTrip) (l' : LineId) :
    (s.joinDevice d).drive l' = s.drive l' := by
  simp [State.drive]

@[simp] theorem State.joinDevice_lineup (s : State) (d : DeviceTrip) (l' : LineId) :
    (s.joinDevice d).lineup l' = s.lineup l' := by
  simp [State.lineup]

@[simp] theorem State.joinDevice_tank (s : State) (d : DeviceTrip) (t' : TankId) :
    (s.joinDevice d).tank t' = s.tank t' := by
  simp [State.tank]

@[simp] theorem State.joinDevice_record (s : State) (d : DeviceTrip) (l' : LineId) :
    (s.joinDevice d).record l' = s.record l' := by
  simp [State.record]

@[simp] theorem State.joinDevice_limits (s : State) (d : DeviceTrip) (l' : LineId) :
    (s.joinDevice d).limits l' = s.limits l' := by
  simp [State.limits, State.record]

@[simp] theorem State.joinDevice_writing (s : State) (d : DeviceTrip) (l' : LineId) :
    (s.joinDevice d).writing l' = s.writing l' := by
  simp [State.writing]

@[simp] theorem State.joinDevice_tankState (s : State) (d : DeviceTrip) (t' : TankId) :
    (s.joinDevice d).tankState t' = s.tankState t' := by
  simp [State.tankState, State.tank]

@[simp] theorem State.joinDevice_tankLine (s : State) (d : DeviceTrip) (t' : TankId) :
    (s.joinDevice d).tankLine t' = s.tankLine t' := by
  simp [State.tankLine, State.tank]

/-! ### leaveDevice -/

@[simp] theorem State.leaveDevice_pending (s : State) (d : DeviceTrip) : (s.leaveDevice d).pending = s.pending := by
  unfold State.leaveDevice; split <;> simp

@[simp] theorem State.leaveDevice_clock (s : State) (d : DeviceTrip) : (s.leaveDevice d).clock = s.clock := by
  unfold State.leaveDevice; split <;> simp

@[simp] theorem State.leaveDevice_phase (s : State) (d : DeviceTrip) : (s.leaveDevice d).phase = s.phase := by
  unfold State.leaveDevice; split <;> simp

@[simp] theorem State.leaveDevice_key (s : State) (d : DeviceTrip) : (s.leaveDevice d).key = s.key := by
  unfold State.leaveDevice; split <;> simp

@[simp] theorem State.leaveDevice_settings (s : State) (d : DeviceTrip) : (s.leaveDevice d).settings = s.settings := by
  unfold State.leaveDevice; split <;> simp

@[simp] theorem State.leaveDevice_store (s : State) (d : DeviceTrip) : (s.leaveDevice d).store = s.store := by
  unfold State.leaveDevice; split <;> simp

@[simp] theorem State.leaveDevice_seqs (s : State) (d : DeviceTrip) : (s.leaveDevice d).seqs = s.seqs := by
  unfold State.leaveDevice; split <;> simp

@[simp] theorem State.leaveDevice_rates (s : State) (d : DeviceTrip) : (s.leaveDevice d).rates = s.rates := by
  unfold State.leaveDevice; split <;> simp

@[simp] theorem State.leaveDevice_meass (s : State) (d : DeviceTrip) : (s.leaveDevice d).meass = s.meass := by
  unfold State.leaveDevice; split <;> simp

@[simp] theorem State.leaveDevice_drives (s : State) (d : DeviceTrip) : (s.leaveDevice d).drives = s.drives := by
  unfold State.leaveDevice; split <;> simp

@[simp] theorem State.leaveDevice_lineups (s : State) (d : DeviceTrip) : (s.leaveDevice d).lineups = s.lineups := by
  unfold State.leaveDevice; split <;> simp

@[simp] theorem State.leaveDevice_tanks (s : State) (d : DeviceTrip) : (s.leaveDevice d).tanks = s.tanks := by
  unfold State.leaveDevice; split <;> simp

@[simp] theorem State.leaveDevice_link (s : State) (d : DeviceTrip) : (s.leaveDevice d).link = s.link := by
  unfold State.leaveDevice; split <;> simp

@[simp] theorem State.leaveDevice_esd (s : State) (d : DeviceTrip) : (s.leaveDevice d).esd = s.esd := by
  unfold State.leaveDevice; split <;> simp

@[simp] theorem State.leaveDevice_overfills (s : State) (d : DeviceTrip) : (s.leaveDevice d).overfills = s.overfills := by
  unfold State.leaveDevice; split <;> simp

@[simp] theorem State.leaveDevice_alarms (s : State) (d : DeviceTrip) : (s.leaveDevice d).alarms = s.alarms := by
  unfold State.leaveDevice; split <;> simp

@[simp] theorem State.leaveDevice_horn (s : State) (d : DeviceTrip) : (s.leaveDevice d).horn = s.horn := by
  unfold State.leaveDevice; split <;> simp

@[simp] theorem State.leaveDevice_port (s : State) (d : DeviceTrip) : (s.leaveDevice d).port = s.port := by
  unfold State.leaveDevice; split <;> simp

@[simp] theorem State.leaveDevice_linkResult (s : State) (d : DeviceTrip) : (s.leaveDevice d).linkResult = s.linkResult := by
  unfold State.leaveDevice; split <;> simp

@[simp] theorem State.leaveDevice_seq (s : State) (d : DeviceTrip) (l' : LineId) :
    (s.leaveDevice d).seq l' = s.seq l' := by
  simp [State.seq]

@[simp] theorem State.leaveDevice_rate (s : State) (d : DeviceTrip) (l' : LineId) :
    (s.leaveDevice d).rate l' = s.rate l' := by
  simp [State.rate]

@[simp] theorem State.leaveDevice_meas (s : State) (d : DeviceTrip) (l' : LineId) :
    (s.leaveDevice d).meas l' = s.meas l' := by
  simp [State.meas]

@[simp] theorem State.leaveDevice_drive (s : State) (d : DeviceTrip) (l' : LineId) :
    (s.leaveDevice d).drive l' = s.drive l' := by
  simp [State.drive]

@[simp] theorem State.leaveDevice_lineup (s : State) (d : DeviceTrip) (l' : LineId) :
    (s.leaveDevice d).lineup l' = s.lineup l' := by
  simp [State.lineup]

@[simp] theorem State.leaveDevice_tank (s : State) (d : DeviceTrip) (t' : TankId) :
    (s.leaveDevice d).tank t' = s.tank t' := by
  simp [State.tank]

@[simp] theorem State.leaveDevice_record (s : State) (d : DeviceTrip) (l' : LineId) :
    (s.leaveDevice d).record l' = s.record l' := by
  simp [State.record]

@[simp] theorem State.leaveDevice_limits (s : State) (d : DeviceTrip) (l' : LineId) :
    (s.leaveDevice d).limits l' = s.limits l' := by
  simp [State.limits, State.record]

@[simp] theorem State.leaveDevice_writing (s : State) (d : DeviceTrip) (l' : LineId) :
    (s.leaveDevice d).writing l' = s.writing l' := by
  simp [State.writing]

@[simp] theorem State.leaveDevice_tankState (s : State) (d : DeviceTrip) (t' : TankId) :
    (s.leaveDevice d).tankState t' = s.tankState t' := by
  simp [State.tankState, State.tank]

@[simp] theorem State.leaveDevice_tankLine (s : State) (d : DeviceTrip) (t' : TankId) :
    (s.leaveDevice d).tankLine t' = s.tankLine t' := by
  simp [State.tankLine, State.tank]

/-! ### setContact -/

@[simp] theorem State.setContact_pending (s : State) (c : Contact) : (s.setContact c).pending = s.pending := by
  unfold State.setContact; split <;> simp

@[simp] theorem State.setContact_clock (s : State) (c : Contact) : (s.setContact c).clock = s.clock := by
  unfold State.setContact; split <;> simp

@[simp] theorem State.setContact_phase (s : State) (c : Contact) : (s.setContact c).phase = s.phase := by
  unfold State.setContact; split <;> simp

@[simp] theorem State.setContact_key (s : State) (c : Contact) : (s.setContact c).key = s.key := by
  unfold State.setContact; split <;> simp

@[simp] theorem State.setContact_settings (s : State) (c : Contact) : (s.setContact c).settings = s.settings := by
  unfold State.setContact; split <;> simp

@[simp] theorem State.setContact_store (s : State) (c : Contact) : (s.setContact c).store = s.store := by
  unfold State.setContact; split <;> simp

@[simp] theorem State.setContact_seqs (s : State) (c : Contact) : (s.setContact c).seqs = s.seqs := by
  unfold State.setContact; split <;> simp

@[simp] theorem State.setContact_rates (s : State) (c : Contact) : (s.setContact c).rates = s.rates := by
  unfold State.setContact; split <;> simp

@[simp] theorem State.setContact_meass (s : State) (c : Contact) : (s.setContact c).meass = s.meass := by
  unfold State.setContact; split <;> simp

@[simp] theorem State.setContact_drives (s : State) (c : Contact) : (s.setContact c).drives = s.drives := by
  unfold State.setContact; split <;> simp

@[simp] theorem State.setContact_lineups (s : State) (c : Contact) : (s.setContact c).lineups = s.lineups := by
  unfold State.setContact; split <;> simp

@[simp] theorem State.setContact_tanks (s : State) (c : Contact) : (s.setContact c).tanks = s.tanks := by
  unfold State.setContact; split <;> simp

@[simp] theorem State.setContact_link (s : State) (c : Contact) : (s.setContact c).link = s.link := by
  unfold State.setContact; split <;> simp

@[simp] theorem State.setContact_device (s : State) (c : Contact) : (s.setContact c).device = s.device := by
  unfold State.setContact; split <;> simp

@[simp] theorem State.setContact_overfills (s : State) (c : Contact) : (s.setContact c).overfills = s.overfills := by
  unfold State.setContact; split <;> simp

@[simp] theorem State.setContact_alarms (s : State) (c : Contact) : (s.setContact c).alarms = s.alarms := by
  unfold State.setContact; split <;> simp

@[simp] theorem State.setContact_horn (s : State) (c : Contact) : (s.setContact c).horn = s.horn := by
  unfold State.setContact; split <;> simp

@[simp] theorem State.setContact_port (s : State) (c : Contact) : (s.setContact c).port = s.port := by
  unfold State.setContact; split <;> simp

@[simp] theorem State.setContact_linkResult (s : State) (c : Contact) : (s.setContact c).linkResult = s.linkResult := by
  unfold State.setContact; split <;> simp

@[simp] theorem State.setContact_seq (s : State) (c : Contact) (l' : LineId) :
    (s.setContact c).seq l' = s.seq l' := by
  simp [State.seq]

@[simp] theorem State.setContact_rate (s : State) (c : Contact) (l' : LineId) :
    (s.setContact c).rate l' = s.rate l' := by
  simp [State.rate]

@[simp] theorem State.setContact_meas (s : State) (c : Contact) (l' : LineId) :
    (s.setContact c).meas l' = s.meas l' := by
  simp [State.meas]

@[simp] theorem State.setContact_drive (s : State) (c : Contact) (l' : LineId) :
    (s.setContact c).drive l' = s.drive l' := by
  simp [State.drive]

@[simp] theorem State.setContact_lineup (s : State) (c : Contact) (l' : LineId) :
    (s.setContact c).lineup l' = s.lineup l' := by
  simp [State.lineup]

@[simp] theorem State.setContact_tank (s : State) (c : Contact) (t' : TankId) :
    (s.setContact c).tank t' = s.tank t' := by
  simp [State.tank]

@[simp] theorem State.setContact_record (s : State) (c : Contact) (l' : LineId) :
    (s.setContact c).record l' = s.record l' := by
  simp [State.record]

@[simp] theorem State.setContact_limits (s : State) (c : Contact) (l' : LineId) :
    (s.setContact c).limits l' = s.limits l' := by
  simp [State.limits, State.record]

@[simp] theorem State.setContact_writing (s : State) (c : Contact) (l' : LineId) :
    (s.setContact c).writing l' = s.writing l' := by
  simp [State.writing]

@[simp] theorem State.setContact_tankState (s : State) (c : Contact) (t' : TankId) :
    (s.setContact c).tankState t' = s.tankState t' := by
  simp [State.tankState, State.tank]

@[simp] theorem State.setContact_tankLine (s : State) (c : Contact) (t' : TankId) :
    (s.setContact c).tankLine t' = s.tankLine t' := by
  simp [State.tankLine, State.tank]

/-! ### listOverfill -/

@[simp] theorem State.listOverfill_pending (s : State) (d : DeviceTrip) : (s.listOverfill d).pending = s.pending := by
  unfold State.listOverfill; split <;> rfl

@[simp] theorem State.listOverfill_clock (s : State) (d : DeviceTrip) : (s.listOverfill d).clock = s.clock := by
  unfold State.listOverfill; split <;> rfl

@[simp] theorem State.listOverfill_phase (s : State) (d : DeviceTrip) : (s.listOverfill d).phase = s.phase := by
  unfold State.listOverfill; split <;> rfl

@[simp] theorem State.listOverfill_key (s : State) (d : DeviceTrip) : (s.listOverfill d).key = s.key := by
  unfold State.listOverfill; split <;> rfl

@[simp] theorem State.listOverfill_settings (s : State) (d : DeviceTrip) : (s.listOverfill d).settings = s.settings := by
  unfold State.listOverfill; split <;> rfl

@[simp] theorem State.listOverfill_store (s : State) (d : DeviceTrip) : (s.listOverfill d).store = s.store := by
  unfold State.listOverfill; split <;> rfl

@[simp] theorem State.listOverfill_seqs (s : State) (d : DeviceTrip) : (s.listOverfill d).seqs = s.seqs := by
  unfold State.listOverfill; split <;> rfl

@[simp] theorem State.listOverfill_rates (s : State) (d : DeviceTrip) : (s.listOverfill d).rates = s.rates := by
  unfold State.listOverfill; split <;> rfl

@[simp] theorem State.listOverfill_meass (s : State) (d : DeviceTrip) : (s.listOverfill d).meass = s.meass := by
  unfold State.listOverfill; split <;> rfl

@[simp] theorem State.listOverfill_drives (s : State) (d : DeviceTrip) : (s.listOverfill d).drives = s.drives := by
  unfold State.listOverfill; split <;> rfl

@[simp] theorem State.listOverfill_lineups (s : State) (d : DeviceTrip) : (s.listOverfill d).lineups = s.lineups := by
  unfold State.listOverfill; split <;> rfl

@[simp] theorem State.listOverfill_tanks (s : State) (d : DeviceTrip) : (s.listOverfill d).tanks = s.tanks := by
  unfold State.listOverfill; split <;> rfl

@[simp] theorem State.listOverfill_link (s : State) (d : DeviceTrip) : (s.listOverfill d).link = s.link := by
  unfold State.listOverfill; split <;> rfl

@[simp] theorem State.listOverfill_esd (s : State) (d : DeviceTrip) : (s.listOverfill d).esd = s.esd := by
  unfold State.listOverfill; split <;> rfl

@[simp] theorem State.listOverfill_device (s : State) (d : DeviceTrip) : (s.listOverfill d).device = s.device := by
  unfold State.listOverfill; split <;> rfl

@[simp] theorem State.listOverfill_alarms (s : State) (d : DeviceTrip) : (s.listOverfill d).alarms = s.alarms := by
  unfold State.listOverfill; split <;> rfl

@[simp] theorem State.listOverfill_horn (s : State) (d : DeviceTrip) : (s.listOverfill d).horn = s.horn := by
  unfold State.listOverfill; split <;> rfl

@[simp] theorem State.listOverfill_port (s : State) (d : DeviceTrip) : (s.listOverfill d).port = s.port := by
  unfold State.listOverfill; split <;> rfl

@[simp] theorem State.listOverfill_notices (s : State) (d : DeviceTrip) : (s.listOverfill d).notices = s.notices := by
  unfold State.listOverfill; split <;> rfl

@[simp] theorem State.listOverfill_linkResult (s : State) (d : DeviceTrip) : (s.listOverfill d).linkResult = s.linkResult := by
  unfold State.listOverfill; split <;> rfl

@[simp] theorem State.listOverfill_seq (s : State) (d : DeviceTrip) (l' : LineId) :
    (s.listOverfill d).seq l' = s.seq l' := by
  simp [State.seq]

@[simp] theorem State.listOverfill_rate (s : State) (d : DeviceTrip) (l' : LineId) :
    (s.listOverfill d).rate l' = s.rate l' := by
  simp [State.rate]

@[simp] theorem State.listOverfill_meas (s : State) (d : DeviceTrip) (l' : LineId) :
    (s.listOverfill d).meas l' = s.meas l' := by
  simp [State.meas]

@[simp] theorem State.listOverfill_drive (s : State) (d : DeviceTrip) (l' : LineId) :
    (s.listOverfill d).drive l' = s.drive l' := by
  simp [State.drive]

@[simp] theorem State.listOverfill_lineup (s : State) (d : DeviceTrip) (l' : LineId) :
    (s.listOverfill d).lineup l' = s.lineup l' := by
  simp [State.lineup]

@[simp] theorem State.listOverfill_tank (s : State) (d : DeviceTrip) (t' : TankId) :
    (s.listOverfill d).tank t' = s.tank t' := by
  simp [State.tank]

@[simp] theorem State.listOverfill_record (s : State) (d : DeviceTrip) (l' : LineId) :
    (s.listOverfill d).record l' = s.record l' := by
  simp [State.record]

@[simp] theorem State.listOverfill_limits (s : State) (d : DeviceTrip) (l' : LineId) :
    (s.listOverfill d).limits l' = s.limits l' := by
  simp [State.limits, State.record]

@[simp] theorem State.listOverfill_writing (s : State) (d : DeviceTrip) (l' : LineId) :
    (s.listOverfill d).writing l' = s.writing l' := by
  simp [State.writing]

@[simp] theorem State.listOverfill_tankState (s : State) (d : DeviceTrip) (t' : TankId) :
    (s.listOverfill d).tankState t' = s.tankState t' := by
  simp [State.tankState, State.tank]

@[simp] theorem State.listOverfill_tankLine (s : State) (d : DeviceTrip) (t' : TankId) :
    (s.listOverfill d).tankLine t' = s.tankLine t' := by
  simp [State.tankLine, State.tank]

/-! ### deviceTrip -/

@[simp] theorem State.deviceTrip_pending (s : State) (d : DeviceTrip) : (s.deviceTrip d).pending = s.pending := by
  simp [State.deviceTrip]

@[simp] theorem State.deviceTrip_clock (s : State) (d : DeviceTrip) : (s.deviceTrip d).clock = s.clock := by
  simp [State.deviceTrip]

@[simp] theorem State.deviceTrip_phase (s : State) (d : DeviceTrip) : (s.deviceTrip d).phase = s.phase := by
  simp [State.deviceTrip]

@[simp] theorem State.deviceTrip_key (s : State) (d : DeviceTrip) : (s.deviceTrip d).key = s.key := by
  simp [State.deviceTrip]

@[simp] theorem State.deviceTrip_settings (s : State) (d : DeviceTrip) : (s.deviceTrip d).settings = s.settings := by
  simp [State.deviceTrip]

@[simp] theorem State.deviceTrip_store (s : State) (d : DeviceTrip) : (s.deviceTrip d).store = s.store := by
  simp [State.deviceTrip]

@[simp] theorem State.deviceTrip_seqs (s : State) (d : DeviceTrip) : (s.deviceTrip d).seqs = s.seqs := by
  simp [State.deviceTrip]

@[simp] theorem State.deviceTrip_rates (s : State) (d : DeviceTrip) : (s.deviceTrip d).rates = s.rates := by
  simp [State.deviceTrip]

@[simp] theorem State.deviceTrip_meass (s : State) (d : DeviceTrip) : (s.deviceTrip d).meass = s.meass := by
  simp [State.deviceTrip]

@[simp] theorem State.deviceTrip_drives (s : State) (d : DeviceTrip) : (s.deviceTrip d).drives = s.drives := by
  simp [State.deviceTrip]

@[simp] theorem State.deviceTrip_lineups (s : State) (d : DeviceTrip) : (s.deviceTrip d).lineups = s.lineups := by
  simp [State.deviceTrip]

@[simp] theorem State.deviceTrip_tanks (s : State) (d : DeviceTrip) : (s.deviceTrip d).tanks = s.tanks := by
  simp [State.deviceTrip]

@[simp] theorem State.deviceTrip_link (s : State) (d : DeviceTrip) : (s.deviceTrip d).link = s.link := by
  simp [State.deviceTrip]

@[simp] theorem State.deviceTrip_port (s : State) (d : DeviceTrip) : (s.deviceTrip d).port = s.port := by
  simp [State.deviceTrip]

@[simp] theorem State.deviceTrip_linkResult (s : State) (d : DeviceTrip) : (s.deviceTrip d).linkResult = s.linkResult := by
  simp [State.deviceTrip]

@[simp] theorem State.deviceTrip_seq (s : State) (d : DeviceTrip) (l' : LineId) :
    (s.deviceTrip d).seq l' = s.seq l' := by
  simp [State.seq]

@[simp] theorem State.deviceTrip_rate (s : State) (d : DeviceTrip) (l' : LineId) :
    (s.deviceTrip d).rate l' = s.rate l' := by
  simp [State.rate]

@[simp] theorem State.deviceTrip_meas (s : State) (d : DeviceTrip) (l' : LineId) :
    (s.deviceTrip d).meas l' = s.meas l' := by
  simp [State.meas]

@[simp] theorem State.deviceTrip_drive (s : State) (d : DeviceTrip) (l' : LineId) :
    (s.deviceTrip d).drive l' = s.drive l' := by
  simp [State.drive]

@[simp] theorem State.deviceTrip_lineup (s : State) (d : DeviceTrip) (l' : LineId) :
    (s.deviceTrip d).lineup l' = s.lineup l' := by
  simp [State.lineup]

@[simp] theorem State.deviceTrip_tank (s : State) (d : DeviceTrip) (t' : TankId) :
    (s.deviceTrip d).tank t' = s.tank t' := by
  simp [State.tank]

@[simp] theorem State.deviceTrip_record (s : State) (d : DeviceTrip) (l' : LineId) :
    (s.deviceTrip d).record l' = s.record l' := by
  simp [State.record]

@[simp] theorem State.deviceTrip_limits (s : State) (d : DeviceTrip) (l' : LineId) :
    (s.deviceTrip d).limits l' = s.limits l' := by
  simp [State.limits, State.record]

@[simp] theorem State.deviceTrip_writing (s : State) (d : DeviceTrip) (l' : LineId) :
    (s.deviceTrip d).writing l' = s.writing l' := by
  simp [State.writing]

@[simp] theorem State.deviceTrip_tankState (s : State) (d : DeviceTrip) (t' : TankId) :
    (s.deviceTrip d).tankState t' = s.tankState t' := by
  simp [State.tankState, State.tank]

@[simp] theorem State.deviceTrip_tankLine (s : State) (d : DeviceTrip) (t' : TankId) :
    (s.deviceTrip d).tankLine t' = s.tankLine t' := by
  simp [State.tankLine, State.tank]

end Sys2Proof.Machine
end

