-- ==== Sys2Proof/Laws/Effects.lean ====
section
/-! SUPPORT. What each shared operation of Ops.lean does to the fields it writes, said once. -/

namespace Sys2Proof.Machine

/-! ### Notices (R165) -/

/-- R165: a notice joins the tail, or nothing changes. -/
@[simp] theorem State.notify_notices (s : State) (n : Notice) : (s.notify n).notices = noticesWith s n := by
  unfold State.notify noticesWith
  by_cases h : n ∈ s.notices
  · simp [h]
  · by_cases g : n.allowed s.port.mask = true <;> simp [h, g]

theorem State.notify_eq (s : State) (n : Notice) : s.notify n = { s with notices := noticesWith s n } := by
  unfold State.notify noticesWith
  by_cases h : n ∈ s.notices
  · simp [h]
  · by_cases g : n.allowed s.port.mask = true <;> simp [h, g]

theorem mem_noticesWith (s : State) (n m : Notice) :
    m ∈ noticesWith s n ↔ m ∈ s.notices ∨ (m = n ∧ n.allowed s.port.mask = true) := by
  unfold noticesWith
  split
  · next h =>
    constructor
    · exact .inl
    · rintro (h' | ⟨rfl, g⟩)
      · exact h'
      · rcases h with h | h
        · exact h
        · simp [g] at h
  · next h =>
    simp only [not_or, Bool.not_eq_false] at h
    simp [h.2]

/-! ### The sequence state (R62, R38) -/

/-- A write of the sequence state re-judges the pump permit of that line and leaves the others. -/
@[simp] theorem State.modSeq_seq (s : State) (l k : LineId) (f : Seq → Seq) :
    (s.modSeq l f).seq k =
      if k = l then { f (s.seq l) with pump := pumpPermit (f (s.seq l)) s.esd.loop } else s.seq k := by
  unfold State.modSeq
  simp only []
  split <;> simp [State.seq]

@[simp] theorem State.modSeq_seqs (s : State) (l : LineId) (f : Seq → Seq) :
    (s.modSeq l f).seqs = vset s.seqs l { f (s.seq l) with pump := pumpPermit (f (s.seq l)) s.esd.loop } := by
  unfold State.modSeq
  simp only []
  split <;> simp

/-! ### Tank records (R79) -/

@[simp] theorem State.modTank_tank (s : State) (t k : TankId) (f : Tank → Tank) :
    (s.modTank t f).tank k = if k = t then (s.tank t).map f else s.tank k := by
  unfold State.modTank
  split
  · next h => simp [h]
  · next h =>
    split
    · next e => subst e; simp [h]
    · rfl

@[simp] theorem State.modTankNoticed_tank (s : State) (t k : TankId) (f : Tank → Tank) :
    (s.modTankNoticed t f).tank k = if k = t then (s.tank t).map f else s.tank k := by
  unfold State.modTankNoticed
  split
  · next h => simp only []; split <;> simp [h]
  · next h =>
    split
    · next e => subst e; simp [h]
    · rfl

/-! ### The ship link (R123) -/

@[simp] theorem State.modLinkNoticed_link (s : State) (f : Link → Link) : (s.modLinkNoticed f).link = f s.link := by
  unfold State.modLinkNoticed
  simp only []
  split <;> simp

@[simp] theorem State.setOutcome_link (s : State) (l : LineId) (o : PermitOutcome) :
    (s.setOutcome l o).link = { s.link with outcomes := vset s.link.outcomes l (some o) } := by
  unfold State.setOutcome
  split
  · next h => rw [← h, vset_vget]
  · simp

/-! ### The device set and the contact (R144, R147) -/

theorem mem_setInsert {α : Type} [DecidableEq α] {all : List α} {c x : α} {set : List α} :
    x ∈ setInsert all c set ↔ x ∈ all ∧ (x = c ∨ x ∈ set) := by
  simp [setInsert]

theorem mem_setErase {α : Type} [DecidableEq α] {c x : α} {set : List α} : x ∈ setErase c set ↔ x ∈ set ∧ x ≠ c := by
  simp [setErase]

theorem deviceTrip_mem_all (d : DeviceTrip) : d ∈ DeviceTrip.all := by
  cases d with
  | esdIn => decide
  | consoleEsd => decide
  | overfill t => revert t; decide
  | stretchTrip l => revert l; decide

theorem tank_mem_all (t : TankId) : t ∈ allTanks := by revert t; decide

theorem line_mem_all (l : LineId) : l ∈ allLines := by revert l; decide

/-- The members after one joins (R147). -/
theorem State.mem_joinDevice (s : State) (d x : DeviceTrip) : x ∈ (s.joinDevice d).device ↔ x = d ∨ x ∈ s.device := by
  unfold State.joinDevice
  split
  · next h => constructor
              · exact .inr
              · rintro (rfl | h')
                · exact h
                · exact h'
  · simp [mem_setInsert, deviceTrip_mem_all]

theorem State.mem_leaveDevice (s : State) (d x : DeviceTrip) :
    x ∈ (s.leaveDevice d).device ↔ x ∈ s.device ∧ x ≠ d := by
  unfold State.leaveDevice
  split
  · simp [mem_setErase]
  · next h => exact ⟨fun h' => ⟨h', fun e => h (e ▸ h')⟩, fun h' => h'.1⟩

@[simp] theorem State.setContact_esd (s : State) (c : Contact) : (s.setContact c).esd = { s.esd with contact := c } := by
  unfold State.setContact
  split
  · next h => rw [← h]
  · simp

@[simp] theorem State.deviceTrip_esd (s : State) (d : DeviceTrip) :
    (s.deviceTrip d).esd = { s.esd with contact := .opened } := by
  simp [State.deviceTrip]

theorem State.mem_deviceTrip (s : State) (d x : DeviceTrip) : x ∈ (s.deviceTrip d).device ↔ x = d ∨ x ∈ s.device := by
  simp [State.deviceTrip, State.mem_joinDevice]

theorem State.mem_deviceTrip_overfills (s : State) (d : DeviceTrip) (x : TankId) :
    x ∈ (s.deviceTrip d).overfills ↔ d = .overfill x ∨ x ∈ s.overfills := by
  cases d <;> simp [State.deviceTrip, State.listOverfill, mem_setInsert, tank_mem_all, eq_comm]

/-! ### Alarms (R152 to R156) -/

/-- The key of an entry (R152). -/
def Alarm.key (a : Alarm) : AlarmKind × AlarmObject := (a.kind, a.object)

/-- The entry of a kind and object has that key. -/
theorem Alarm.isFor_iff (k : AlarmKind) (o : AlarmObject) (a : Alarm) : a.isFor k o = true ↔ a.key = (k, o) := by
  simp [Alarm.isFor, Alarm.key]

/-- R153: a raised alarm is filed, made present again, or was present. -/
theorem State.raiseAlarm_cases (s : State) (k : AlarmKind) (o : AlarmObject) :
    (s.alarms.find? (Alarm.isFor k o) = none ∧
      (s.raiseAlarm k o).alarms =
        s.alarms ++ [{ kind := k, object := o, acked := false, present := true, time := s.clock }]) ∨
    (∃ a, s.alarms.find? (Alarm.isFor k o) = some a ∧ a.present = false ∧
      (s.raiseAlarm k o).alarms = s.alarms.map fun b => if Alarm.isFor k o b then { b with present := true } else b) ∨
    (∃ a, s.alarms.find? (Alarm.isFor k o) = some a ∧ a.present = true ∧ (s.raiseAlarm k o).alarms = s.alarms) := by
  unfold State.raiseAlarm
  split
  · next h => exact .inl ⟨h, by simp⟩
  · next a h =>
    right
    by_cases p : a.present = true
    · right; exact ⟨a, h, p, by simp [p]⟩
    · left; exact ⟨a, h, by simpa using p, by simp [p]⟩

/-- R154: a condition gone removes the entry when acknowledged, marks it gone when not, or was gone. -/
theorem State.alarmGone_cases (s : State) (k : AlarmKind) (o : AlarmObject) :
    (s.alarmGone k o).alarms = s.alarms ∨
    (∃ a, s.alarms.find? (Alarm.isFor k o) = some a ∧ a.present = true ∧ a.acked = true ∧
      (s.alarmGone k o).alarms = s.alarms.filter fun b => !Alarm.isFor k o b) ∨
    (∃ a, s.alarms.find? (Alarm.isFor k o) = some a ∧ a.present = true ∧ a.acked = false ∧
      (s.alarmGone k o).alarms = s.alarms.map fun b => if Alarm.isFor k o b then { b with present := false } else b) := by
  unfold State.alarmGone
  split
  · exact .inl rfl
  · next a h =>
    by_cases p : a.present = true
    · right
      by_cases q : a.acked = true
      · left; exact ⟨a, h, p, q, by simp [p, q]⟩
      · right; exact ⟨a, h, p, by simpa using q, by simp [p, q]⟩
    · left; simp [p]

/-- A raised alarm's condition is present afterwards (R153). -/
theorem State.raiseAlarm_present (s : State) (k : AlarmKind) (o : AlarmObject) :
    (s.raiseAlarm k o).conditionPresent k o = true := by
  simp only [State.conditionPresent, List.any_eq_true, Bool.and_eq_true]
  rcases s.raiseAlarm_cases k o with ⟨h, e⟩ | ⟨a, h, -, e⟩ | ⟨a, h, p, e⟩ <;> rw [e]
  · exact ⟨_, List.mem_append_right _ (List.mem_singleton_self _), by simp [Alarm.isFor], rfl⟩
  · have hf := List.find?_some h
    refine ⟨{ a with present := true }, List.mem_map.mpr ⟨a, List.mem_of_find?_eq_some h, by simp [hf]⟩, ?_, rfl⟩
    simpa [Alarm.isFor] using hf
  · exact ⟨a, List.mem_of_find?_eq_some h, List.find?_some h, p⟩

/-- R156: the horn follows the set after either. -/
theorem State.raiseAlarm_horn (s : State) (k : AlarmKind) (o : AlarmObject) (h : HornFollows s) :
    HornFollows (s.raiseAlarm k o) := by
  unfold HornFollows State.raiseAlarm at *
  split
  · simp
  · split
    · exact h
    · simp

theorem State.alarmGone_horn (s : State) (k : AlarmKind) (o : AlarmObject) (h : HornFollows s) :
    HornFollows (s.alarmGone k o) := by
  unfold HornFollows State.alarmGone at *
  split
  · exact h
  · split
    · split <;> simp
    · exact h

/-- Without a waiting reply a request is taken on the state as it stands (R164). -/
theorem State.drained_of_none (s : State) (h : s.port.waiting = none) : s.drained = s := by
  simp [State.drained, State.replyGone, h]

end Sys2Proof.Machine
end

