-- ==== Sys2Proof/Laws/Soft.lean ====
section
/-! SUPPORT. What an operation of one line supervisor can do that leaves every sequence state alone (`Soft`) or writes its
own (`Own`): said once for each operation, so that frames and invariants follow without unfolding it. -/

namespace Sys2Proof.Machine

/-- A change of a line's measurement state that keeps the totaliser's base and never lowers its pulses (R6). -/
structure MeasMove (a b : Meas) : Prop where
  dBase : b.dBase = a.dBase
  pTot : a.pTot ≤ b.pTot

/-- `t` comes from `s` by writes of line `l`'s rate-control state, measurement state and drive, by alarms and by notices. -/
inductive Soft (l : LineId) (s : State) : State → Prop
  | refl : Soft l s s
  | notify {t : State} (n : Notice) : Soft l s t → Soft l s (t.notify n)
  | raise {t : State} (k : AlarmKind) (o : AlarmObject) : Soft l s t → Soft l s (t.raiseAlarm k o)
  | gone {t : State} (k : AlarmKind) (o : AlarmObject) : Soft l s t → Soft l s (t.alarmGone k o)
  | rate {t : State} (f : Rate → Rate) : Soft l s t → Soft l s (t.modRate l f)
  | meas {t : State} (f : Meas → Meas) : MeasMove (t.meas l) (f (t.meas l)) → Soft l s t → Soft l s (t.modMeas l f)
  | drive {t : State} (f : Drive → Drive) :
      (f (t.drive l)).enabled = (t.drive l).enabled → Soft l s t → Soft l s (t.modDrive l f)

theorem Soft.trans {l : LineId} {s t u : State} (h : Soft l s t) (g : Soft l t u) : Soft l s u := by
  induction g with
  | refl => exact h
  | notify n _ ih => exact ih.notify n
  | raise k o _ ih => exact ih.raise k o
  | gone k o _ ih => exact ih.gone k o
  | rate f _ ih => exact ih.rate f
  | meas f hf _ ih => exact ih.meas f hf
  | drive f hf _ ih => exact ih.drive f hf

/-- The fields of the state that no operation of a line supervisor touches. -/
structure SameElsewhere (s t : State) : Prop where
  pending : t.pending = s.pending
  clock : t.clock = s.clock
  phase : t.phase = s.phase
  key : t.key = s.key
  settings : t.settings = s.settings
  store : t.store = s.store
  lineups : t.lineups = s.lineups
  tanks : t.tanks = s.tanks
  link : t.link = s.link
  esd : t.esd = s.esd
  device : t.device = s.device
  overfills : t.overfills = s.overfills
  port : t.port = s.port
  linkResult : t.linkResult = s.linkResult

theorem SameElsewhere.rfl' {s : State} : SameElsewhere s s := by constructor <;> rfl

theorem SameElsewhere.trans {s t u : State} (h : SameElsewhere s t) (g : SameElsewhere t u) : SameElsewhere s u := by
  constructor
  · rw [g.pending, h.pending]
  · rw [g.clock, h.clock]
  · rw [g.phase, h.phase]
  · rw [g.key, h.key]
  · rw [g.settings, h.settings]
  · rw [g.store, h.store]
  · rw [g.lineups, h.lineups]
  · rw [g.tanks, h.tanks]
  · rw [g.link, h.link]
  · rw [g.esd, h.esd]
  · rw [g.device, h.device]
  · rw [g.overfills, h.overfills]
  · rw [g.port, h.port]
  · rw [g.linkResult, h.linkResult]

theorem Soft.seqs {l : LineId} {s t : State} (h : Soft l s t) : t.seqs = s.seqs := by
  induction h <;> simp_all

theorem Soft.seq {l : LineId} {s t : State} (h : Soft l s t) (k : LineId) : t.seq k = s.seq k := by
  simp [State.seq, h.seqs]

theorem Soft.elsewhere {l : LineId} {s t : State} (h : Soft l s t) : SameElsewhere s t := by
  induction h with
  | refl => exact SameElsewhere.rfl'
  | notify n _ ih => exact ih.trans (by constructor <;> simp)
  | raise k o _ ih => exact ih.trans (by constructor <;> simp)
  | gone k o _ ih => exact ih.trans (by constructor <;> simp)
  | rate f _ ih => exact ih.trans (by constructor <;> simp)
  | meas f _ _ ih => exact ih.trans (by constructor <;> simp)
  | drive f _ _ ih => exact ih.trans (by constructor <;> simp)

/-- The other lines' rate-control, measurement and drive are as they were. -/
theorem Soft.others {l : LineId} {s t : State} (h : Soft l s t) (k : LineId) (hk : k ≠ l) :
    t.rate k = s.rate k ∧ t.meas k = s.meas k ∧ t.drive k = s.drive k := by
  induction h <;> simp_all

theorem Soft.enabled {l : LineId} {s t : State} (h : Soft l s t) (k : LineId) :
    (t.drive k).enabled = (s.drive k).enabled := by
  induction h with
  | drive f hf _ ih =>
    simp only [State.modDrive_drive]
    split
    · next e => subst e; rw [hf, ih]
    · exact ih
  | _ => simp_all

theorem Soft.measMove {l : LineId} {s t : State} (h : Soft l s t) (k : LineId) : MeasMove (s.meas k) (t.meas k) := by
  induction h with
  | refl => exact ⟨rfl, Nat.le_refl _⟩
  | meas f hf _ ih =>
    simp only [State.modMeas_meas]
    split
    · next e => subst e; exact ⟨hf.dBase.trans ih.dBase, ih.pTot.trans hf.pTot⟩
    · exact ih
  | _ => simpa using ‹MeasMove _ _›

/-! ### The soft operations of Line.lean -/

theorem State.endSteady_soft (s : State) (l : LineId) : Soft l s (s.endSteady l) := by
  unfold State.endSteady
  simp only []
  split
  · exact (Soft.refl.meas _ ⟨rfl, Nat.le_refl _⟩).notify _
  · exact Soft.refl.meas _ ⟨rfl, Nat.le_refl _⟩

theorem State.leaveDelivering_soft (s : State) (l : LineId) : Soft l s (s.leaveDelivering l) := by
  unfold State.leaveDelivering
  split
  · exact ((s.endSteady_soft l).gone _ _).rate _
  · exact .refl

theorem State.setTarget_soft (s : State) (l : LineId) (t : Option (Nat × Governing)) : Soft l s (s.setTarget l t) := by
  unfold State.setTarget
  simp only []
  split <;> split
  · exact (Soft.refl.rate _).trans (State.endSteady_soft _ l)
  · exact ((Soft.refl.rate _).notify _).trans (State.endSteady_soft _ l)
  · exact Soft.refl.rate _
  · exact (Soft.refl.rate _).notify _

theorem State.formTarget_soft (s : State) (l : LineId) : Soft l s (s.formTarget l) := by
  unfold State.formTarget
  split
  · exact s.setTarget_soft l _
  · exact .refl

theorem State.dropTarget_soft (s : State) (l : LineId) : Soft l s (s.dropTarget l) := s.setTarget_soft l none

theorem State.takeOver_soft (s : State) (l : LineId) (why : TakeoverReason) : Soft l s (s.takeOver l why) :=
  (Soft.refl.rate _).notify _

theorem State.judgeTakeover_soft (s : State) (l : LineId) : Soft l s (s.judgeTakeover l) := by
  unfold State.judgeTakeover
  split
  · split
    · exact s.takeOver_soft l _
    · exact .refl
  · exact .refl

theorem Drive.rampTo_enabled (y t : Nat) (d : Drive) : (d.rampTo y t).enabled = d.enabled := by
  unfold Drive.rampTo
  split <;> rfl

theorem State.closeOnProfile_soft (s : State) (l : LineId) : Soft l s (s.closeOnProfile l) :=
  Soft.refl.drive _ (Drive.rampTo_enabled _ _ _)

theorem State.abandonStroke_soft (s : State) (l : LineId) : Soft l s (s.abandonStroke l) := by
  unfold State.abandonStroke
  split
  · exact (Soft.refl.drive _ rfl).notify _
  · exact .refl

theorem State.stretchTripGone_soft (s : State) (l : LineId) : Soft l s (s.stretchTripGone l) := by
  unfold State.stretchTripGone
  split
  · exact .refl
  · exact Soft.refl.gone _ _

theorem State.tellTopping_soft (s : State) (l : LineId) (n : Nat) (b : Bool) : Soft l s (s.tellTopping l n b) := by
  unfold State.tellTopping
  simp only []
  split
  · exact ((Soft.refl.rate _).trans (State.formTarget_soft _ l)).trans (State.takeOver_soft _ l _)
  · exact (Soft.refl.rate _).trans (State.formTarget_soft _ l)

/-! ### The soft operations of Sequence.lean and LineRequests.lean -/

theorem State.loopStep_soft (s : State) (l : LineId) : Soft l s (s.loopStep l) := by
  unfold State.loopStep
  split
  · exact .refl
  · simp only []
    split
    · exact .refl
    · exact Soft.refl.drive _ rfl

theorem State.rateLoopStep_soft (s : State) (l : LineId) : Soft l s (s.rateLoopStep l) :=
  (((Soft.refl.rate _).trans (State.judgeTakeover_soft _ l)).trans (State.formTarget_soft _ l)).trans
    (State.loopStep_soft _ l)

theorem Drive.rampStep_enabled (d : Drive) : d.rampStep.enabled = d.enabled := by
  unfold Drive.rampStep
  split
  · rfl
  · split <;> [rfl; (split <;> rfl)]

theorem Drive.trackStep_enabled (pos : Option Nat) (d : Drive) : (d.trackStep pos).enabled = d.enabled := by
  unfold Drive.trackStep
  split <;> rfl

theorem Drive.keepPos_enabled (pos : Option Nat) (d : Drive) : (d.keepPos pos).enabled = d.enabled := by
  unfold Drive.keepPos
  split <;> rfl

theorem Drive.strokeTimerStep_enabled (pos : Option Nat) (d : Drive) : (d.strokeTimerStep pos).enabled = d.enabled := by
  unfold Drive.strokeTimerStep
  split <;> [(split <;> rfl); rfl]

theorem State.judgeSettleEnd_soft (s : State) (l : LineId) : Soft l s (s.judgeSettleEnd l) := by
  unfold State.judgeSettleEnd
  simp only []
  split
  · exact Soft.refl.drive _ rfl
  · exact .refl

theorem State.enterSteady_soft (s : State) (l : LineId) : Soft l s (s.enterSteady l) :=
  ((Soft.refl.meas _ ⟨rfl, Nat.le_refl _⟩).notify _).gone _ _

theorem State.judgeSteady_soft (s : State) (l : LineId) : Soft l s (s.judgeSteady l) := by
  unfold State.judgeSteady
  simp only []
  split
  · exact s.enterSteady_soft l
  · exact .refl

theorem State.judgeUnsteady_soft (s : State) (l : LineId) : Soft l s (s.judgeUnsteady l) := by
  unfold State.judgeUnsteady
  simp only []
  split
  · exact (s.endSteady_soft l).raise _ _
  · exact .refl

theorem State.steadyStage_soft (s : State) (l : LineId) : Soft l s (s.steadyStage l) := by
  have m : ∀ f : Meas → Meas, (∀ x, MeasMove x (f x)) → Soft l s (s.modMeas l f) := fun f h => Soft.refl.meas f (h _)
  unfold State.steadyStage
  split
  · simp only []
    split <;> split
    · refine Soft.trans ?_ (State.judgeUnsteady_soft _ l)
      exact m _ fun _ => ⟨rfl, Nat.le_refl _⟩
    · exact m _ fun _ => ⟨rfl, Nat.le_refl _⟩
    · refine Soft.trans ?_ (State.judgeSteady_soft _ l)
      exact m _ fun _ => ⟨rfl, Nat.le_refl _⟩
    · exact m _ fun _ => ⟨rfl, Nat.le_refl _⟩
  · exact .refl

theorem State.closureStage_soft (s : State) (l : LineId) : Soft l s (s.closureStage l) := by
  unfold State.closureStage
  split
  · exact Soft.refl.meas _ ⟨rfl, Nat.le_refl _⟩
  · split <;> exact Soft.refl.meas _ ⟨rfl, Nat.le_refl _⟩

theorem Meas.takeSample_move (x : Sample) (f : Option Nat) (c : Bool) (m : Meas) : MeasMove m (m.takeSample x f c) := by
  constructor
  · rfl
  · unfold Meas.takeSample
    simp only []
    split
    · exact Nat.le_add_right _ _
    · exact Nat.le_refl _

theorem Meas.takeUp_move (x : Sample) (f : Option Nat) (c : Bool) (n a : Nat) (m : Meas) :
    MeasMove m ((m.takeSample x f c).takeUp n a) :=
  ⟨(Meas.takeSample_move x f c m).1, (Meas.takeSample_move x f c m).2⟩

theorem Meas.takePressure_move (x : Option Nat) (p : Nat) (m : Meas) : MeasMove m (m.takePressure x p) := by
  unfold Meas.takePressure
  split <;> exact ⟨rfl, Nat.le_refl _⟩

theorem Meas.takeStretch_move (v : Nat) (lim : Limits) (m : Meas) : MeasMove m (m.takeStretch v lim) :=
  ⟨rfl, Nat.le_refl _⟩

theorem State.setLoop_soft (s : State) (l : LineId) (w : LoopWord) : Soft l s (s.setLoop l w) := by
  unfold State.setLoop
  simp only []
  split
  · exact Soft.refl.rate _
  · exact (Soft.refl.rate _).notify _

/-! ### Operations that write the line's own sequence state -/

/-- `t` comes from `s` by soft writes of line `l` and by writes of its sequence state. -/
inductive Own (l : LineId) (s : State) : State → Prop
  | refl : Own l s s
  | soft {t u : State} : Own l s t → Soft l t u → Own l s u
  | seq {t : State} (f : Seq → Seq) : Own l s t → Own l s (t.modSeq l f)
  | drive {t : State} (f : Drive → Drive) : Own l s t → Own l s (t.modDrive l f)

theorem Soft.own {l : LineId} {s t : State} (h : Soft l s t) : Own l s t := Own.refl.soft h

theorem Own.trans {l : LineId} {s t u : State} (h : Own l s t) (g : Own l t u) : Own l s u := by
  induction g with
  | refl => exact h
  | soft _ hs ih => exact ih.soft hs
  | seq f _ ih => exact ih.seq f
  | drive f _ ih => exact ih.drive f

theorem Own.elsewhere {l : LineId} {s t : State} (h : Own l s t) : SameElsewhere s t := by
  induction h with
  | refl => exact SameElsewhere.rfl'
  | soft _ hs ih => exact ih.trans hs.elsewhere
  | seq f _ ih => exact ih.trans (by constructor <;> simp)
  | drive f _ ih => exact ih.trans (by constructor <;> simp)

/-- The other lines are as they were. -/
theorem Own.only {l : LineId} {s t : State} (h : Own l s t) : OnlyLine s t l := by
  intro k hk
  induction h with
  | refl => exact ⟨rfl, rfl, rfl, rfl, rfl⟩
  | soft _ hs ih =>
    obtain ⟨a, b, c, d, e⟩ := ih
    obtain ⟨b', c', d'⟩ := hs.others k hk
    exact ⟨(hs.seq k).trans a, b'.trans b, c'.trans c, d'.trans d, by
      rw [← e]; simp [State.lineup, hs.elsewhere.lineups]⟩
  | seq f _ ih => simpa [hk] using ih
  | drive f _ ih => simpa [hk] using ih

theorem State.clearPermit_own (s : State) (l : LineId) : Own l s (s.clearPermit l) := Own.refl.seq _

theorem State.dropHold_own (s : State) (l : LineId) (c : HoldCause) : Own l s (s.dropHold l c) := Own.refl.seq _

theorem State.addHold_own (s : State) (l : LineId) (c : HoldCause) : Own l s (s.addHold l c) := by
  unfold State.addHold
  simp only []
  split
  · split
    · exact ((s.leaveDelivering_soft l).own.seq _).soft (State.closeOnProfile_soft _ l)
    · exact Own.refl.seq _
  · exact .refl

theorem State.enterTripping_own (s : State) (l : LineId) : Own l s (s.enterTripping l) := by
  have h := ((s.abandonStroke_soft l).trans (State.leaveDelivering_soft _ l)).own.seq
    fun q => { q with state := .tripping, permit := false, holds := [] }
  unfold State.enterTripping
  exact h.soft (((Soft.refl.drive Drive.cut rfl).trans (State.dropTarget_soft _ l)).rate _)

theorem State.addTrip_own (s : State) (l : LineId) (c : TripCause) : Own l s (s.addTrip l c) := by
  unfold State.addTrip
  simp only []
  split
  · exact .refl
  · split
    · exact ((Own.refl.seq _).soft (Soft.refl.raise _ _)).trans (State.enterTripping_own _ l)
    · exact (Own.refl.seq _).soft (Soft.refl.raise _ _)

theorem State.enterOpening_own (s : State) (l : LineId) : Own l s (s.enterOpening l) := by
  unfold State.enterOpening
  simp only []
  split
  · exact ((Own.refl.seq _).soft (State.formTarget_soft _ l)).soft (Soft.refl.drive _ (Drive.rampTo_enabled _ _ _))
  · exact (Own.refl.seq _).soft (State.formTarget_soft _ l)

theorem State.enterDelivering_own (s : State) (l : LineId) : Own l s (s.enterDelivering l) :=
  (Own.refl.seq _).soft (((Soft.refl.drive _ rfl).rate _).meas _ ⟨rfl, Nat.le_refl _⟩)

theorem State.enterHeld_own (s : State) (l : LineId) : Own l s (s.enterHeld l) :=
  (Own.refl.seq _).soft (Soft.refl.drive _ rfl)

theorem State.enterTripped_own (s : State) (l : LineId) : Own l s (s.enterTripped l) :=
  (Own.refl.seq _).soft ((Soft.refl.drive _ rfl).trans (State.dropTarget_soft _ l))

theorem State.enterConnected_own (s : State) (l : LineId) : Own l s (s.enterConnected l) :=
  (Own.refl.seq _).soft (((Soft.refl.drive _ rfl).trans (State.dropTarget_soft _ l)).rate _)

theorem State.strokeToConnected_own (s : State) (l : LineId) : Own l s (s.strokeToConnected l) :=
  (Own.refl.seq _).soft (((Soft.refl.drive _ rfl).trans (State.dropTarget_soft _ l)).rate _)

theorem State.failStroke_own (s : State) (l : LineId) (why : StrokeFailure) : Own l s (s.failStroke l why) :=
  (((Soft.refl.drive _ rfl).notify _).raise _ _).own.trans (State.strokeToConnected_own _ l)

theorem State.passStroke_own (s : State) (l : LineId) (t : Nat) : Own l s (s.passStroke l t) :=
  (((Soft.refl.drive _ rfl).notify _).gone _ _).own.trans (State.strokeToConnected_own _ l)

theorem State.judgeStroke_own (s : State) (l : LineId) (t : Nat) : Own l s (s.judgeStroke l t) := by
  unfold State.judgeStroke
  simp only []
  have h : Soft l s (s.modDrive l fun d => { d with stage := some .done }) := Soft.refl.drive _ rfl
  split
  · exact h.own.trans (State.passStroke_own _ l _)
  · exact h.own.trans (State.failStroke_own _ l _)

theorem State.judgeOpenTimeout_own (s : State) (l : LineId) : Own l s (s.judgeOpenTimeout l) := by
  unfold State.judgeOpenTimeout
  simp only []
  split
  · exact s.failStroke_own l _
  · exact .refl

theorem State.judgeCloseTimeout_own (s : State) (l : LineId) : Own l s (s.judgeCloseTimeout l) := by
  unfold State.judgeCloseTimeout
  simp only []
  split
  · exact s.failStroke_own l _
  · exact .refl

theorem State.strokeStep_own (s : State) (l : LineId) (pos : Option Nat) : Own l s (s.strokeStep l pos) := by
  have m : ∀ f : Drive → Drive, (∀ d, (f d).enabled = d.enabled) → Soft l s (s.modDrive l f) :=
    fun f h => Soft.refl.drive f (h _)
  unfold State.strokeStep
  split
  · simp only []
    split
    · exact ((m Drive.stageStep fun _ => rfl).drive _ rfl).own
    · exact (m Drive.stageStep fun _ => rfl).own.trans (State.judgeOpenTimeout_own _ l)
  · exact ((m Drive.stageStep fun _ => rfl).trans (State.judgeSettleEnd_soft _ l)).own
  · simp only []
    have h := m (fun d => d.stageStep.strokeTimerStep pos) fun d => Drive.strokeTimerStep_enabled pos _
    split
    · split
      · exact h.own.trans (State.judgeStroke_own _ l _)
      · exact h.own.trans (State.judgeCloseTimeout_own _ l)
    · exact h.own.trans (State.judgeCloseTimeout_own _ l)
  · exact .refl
  · exact .refl

theorem State.failTracking_own (s : State) (l : LineId) : Own l s (s.failTracking l) := by
  have h : Own l s (s.modDrive l Drive.trackFrom0) := (Soft.refl.drive _ rfl).own
  unfold State.failTracking
  simp only []
  split
  iterate 4 exact h.trans (State.addTrip_own _ l _)
  · exact (h.trans (State.addTrip_own _ l _)).trans (State.enterTripped_own _ l)
  · exact h.trans (State.failStroke_own _ l _)
  all_goals exact h

theorem State.judgeTracking_own (s : State) (l : LineId) : Own l s (s.judgeTracking l) := by
  unfold State.judgeTracking
  split
  · exact s.failTracking_own l
  · exact .refl

theorem State.judgeSensorFault_own (s : State) (l : LineId) : Own l s (s.judgeSensorFault l) := by
  unfold State.judgeSensorFault
  split
  · exact s.addTrip_own l _
  · exact .refl

theorem State.judgeOverpressure_own (s : State) (l : LineId) : Own l s (s.judgeOverpressure l) := by
  unfold State.judgeOverpressure
  split
  · exact s.addTrip_own l _
  · exact .refl

theorem State.warnStretch_own (s : State) (l : LineId) (v w : Nat) : Own l s (s.warnStretch l v w) := by
  unfold State.warnStretch
  split
  · exact (Soft.refl.raise _ _).own.trans (State.addHold_own _ l _)
  · exact .refl

theorem State.judgeStretchClear_own (s : State) (l : LineId) : Own l s (s.judgeStretchClear l) := by
  unfold State.judgeStretchClear
  simp only []
  split
  · exact ((Own.refl.soft (Soft.refl.meas _ ⟨rfl, Nat.le_refl _⟩)).seq _).soft (Soft.refl.gone _ _)
  · exact .refl

theorem State.enterFinishing_own (s : State) (l : LineId) : Own l s (s.enterFinishing l) :=
  (Own.refl.seq _).soft ((Soft.refl.rate _).drive _ rfl)

theorem State.startLine_own (s : State) (l : LineId) (n : Nat) : Own l s (s.startLine l n) :=
  (Soft.refl.rate _).own.trans (State.enterOpening_own _ l)

theorem State.strokeLine_own (s : State) (l : LineId) : Own l s (s.strokeLine l) :=
  (Own.refl.seq _).soft ((Soft.refl.drive _ rfl).trans (State.dropTarget_soft _ l))

theorem State.causeGone_soft (s : State) (l : LineId) (c : TripCause) : Soft l s (s.causeGone l c) := by
  cases c
  case stretchTrip => exact s.stretchTripGone_soft l
  all_goals exact Soft.refl.gone _ _

theorem State.clearLine_own (s : State) (l : LineId) : Own l s (s.clearLine l) := by
  unfold State.clearLine
  simp only []
  have h : Own l s ((s.modSeq l fun q => { q with trips := [] }).enterConnected l) :=
    (Own.refl.seq _).trans (State.enterConnected_own _ l)
  generalize (s.modSeq l fun q => { q with trips := [] }).enterConnected l = t at h
  generalize (s.seq l).trips = cs
  induction cs generalizing t with
  | nil => exact h
  | cons c cs ih =>
    exact ih _ (h.soft (State.causeGone_soft _ l c))

theorem State.clearIfFit_own (s : State) (l : LineId) : Own l s (s.clearIfFit l) := by
  unfold State.clearIfFit
  split
  · exact s.clearLine_own l
  · exact .refl

end Sys2Proof.Machine
end

