-- ==== Sys2Proof/Laws/Writes.lean ====
section
/-! SUPPORT. What the blocks can do to the state within one command, said once: `Free` without any condition, `Writes` with
the conditions under which the sequence states, lineups, tank records and device set are written. -/

namespace Sys2Proof.Machine

/-! ### Unconditional writes -/

/-- What a group of writes may touch: which lines, which tanks, the ship link, the trip unit. -/
structure Scope where
  lines : LineId → Prop
  tanks : TankId → Prop
  link : Prop
  trip : Prop

/-- A scope lies inside another. -/
structure Scope.le (c d : Scope) : Prop where
  lines : ∀ l, c.lines l → d.lines l
  tanks : ∀ k, c.tanks k → d.tanks k
  link : c.link → d.link
  trip : c.trip → d.trip

/-- Everything. -/
def Scope.all : Scope := { lines := fun _ => True, tanks := fun _ => True, link := True, trip := True }

theorem Scope.le_all (c : Scope) : c.le .all := ⟨fun _ _ => trivial, fun _ _ => trivial, fun _ => trivial, fun _ => trivial⟩

theorem Scope.le_rfl {c : Scope} : c.le c := ⟨fun _ => id, fun _ => id, id, id⟩

/-- `t` comes from `s` by writes within the scope, with alarms raised or gone and notices. -/
inductive Free (c : Scope) (s : State) : State → Prop
  | refl : Free c s s
  | own {t u : State} (l : LineId) : c.lines l → Free c s t → Own l t u → Free c s u
  | notify {t : State} (n : Notice) : Free c s t → Free c s (t.notify n)
  | raise {t : State} (k : AlarmKind) (o : AlarmObject) : Free c s t → Free c s (t.raiseAlarm k o)
  | gone {t : State} (k : AlarmKind) (o : AlarmObject) : Free c s t → Free c s (t.alarmGone k o)
  | tank {t : State} (k : TankId) (r : Option Tank) : c.tanks k → Free c s t → Free c s (t.setTank k r)
  | lineup {t : State} (l : LineId) (ts : List TankId) : c.lines l → Free c s t → Free c s (t.setLineup l ts)
  | link {t : State} (f : Link → Link) : c.link → Free c s t → Free c s (t.modLink f)
  | result {t : State} (b : Bool) : c.link → Free c s t → Free c s { t with linkResult := b }
  | device {t : State} (ds : List DeviceTrip) : c.trip → Free c s t → Free c s { t with device := ds }
  | overfills {t : State} (ts : List TankId) : c.trip → Free c s t → Free c s { t with overfills := ts }
  | contact {t : State} (x : Contact) : c.trip → Free c s t → Free c s { t with esd := { t.esd with contact := x } }

theorem Free.trans {c : Scope} {s t u : State} (h : Free c s t) (g : Free c t u) : Free c s u := by
  induction g with
  | refl => exact h
  | own l hl _ ho ih => exact ih.own l hl ho
  | notify n _ ih => exact ih.notify n
  | raise k o _ ih => exact ih.raise k o
  | gone k o _ ih => exact ih.gone k o
  | tank k r hk _ ih => exact ih.tank k r hk
  | lineup l ts hl _ ih => exact ih.lineup l ts hl
  | link f hk _ ih => exact ih.link f hk
  | result b hk _ ih => exact ih.result b hk
  | device ds hd _ ih => exact ih.device ds hd
  | overfills ts hd _ ih => exact ih.overfills ts hd
  | contact x hd _ ih => exact ih.contact x hd

theorem Free.mono {c d : Scope} {s t : State} (h : Free c s t) (le : c.le d) : Free d s t := by
  induction h with
  | refl => exact .refl
  | own l hl _ ho ih => exact ih.own l (le.lines l hl) ho
  | notify n _ ih => exact ih.notify n
  | raise k o _ ih => exact ih.raise k o
  | gone k o _ ih => exact ih.gone k o
  | tank k r hk _ ih => exact ih.tank k r (le.tanks k hk)
  | lineup l ts hl _ ih => exact ih.lineup l ts (le.lines l hl)
  | link f hk _ ih => exact ih.link f (le.link hk)
  | result b hk _ ih => exact ih.result b (le.link hk)
  | device ds hd _ ih => exact ih.device ds (le.trip hd)
  | overfills ts hd _ ih => exact ih.overfills ts (le.trip hd)
  | contact x hd _ ih => exact ih.contact x (le.trip hd)

/-- The scope of one line. -/
def Scope.line (l : LineId) : Scope := { lines := (· = l), tanks := fun _ => False, link := False, trip := False }

theorem Own.free {l : LineId} {s t : State} (h : Own l s t) {c : Scope} (hl : c.lines l) : Free c s t :=
  Free.refl.own l hl h

theorem Soft.free {l : LineId} {s t : State} (h : Soft l s t) {c : Scope} (hl : c.lines l) : Free c s t := h.own.free hl

/-- The fields that no such write touches. -/
structure SameFrame (s t : State) : Prop where
  pending : t.pending = s.pending
  clock : t.clock = s.clock
  phase : t.phase = s.phase
  key : t.key = s.key
  settings : t.settings = s.settings
  store : t.store = s.store
  port : t.port = s.port
  loop : t.esd.loop = s.esd.loop
  far : t.esd.far = s.esd.far

theorem Free.frame {c : Scope} {s t : State} (h : Free c s t) : SameFrame s t := by
  have step : ∀ {t u : State}, SameFrame s t → SameFrame t u → SameFrame s u := fun a b =>
    ⟨b.pending.trans a.pending, b.clock.trans a.clock, b.phase.trans a.phase, b.key.trans a.key,
      b.settings.trans a.settings, b.store.trans a.store, b.port.trans a.port, b.loop.trans a.loop, b.far.trans a.far⟩
  induction h with
  | refl => constructor <;> rfl
  | own l _ _ ho ih =>
    have e := ho.elsewhere
    exact step ih ⟨e.pending, e.clock, e.phase, e.key, e.settings, e.store, e.port, congrArg Esd.loop e.esd,
      congrArg Esd.far e.esd⟩
  | _ => rename_i ih; exact step ih (by constructor <;> simp)

/-- Tanks outside the scope are as they were. -/
theorem Free.tank_eq {c : Scope} {s t : State} (h : Free c s t) {k : TankId} (hk : ¬ c.tanks k) : t.tank k = s.tank k := by
  induction h with
  | own l _ _ ho ih => rw [← ih]; simp [State.tank, ho.elsewhere.tanks]
  | tank j r hj _ ih =>
    have hn : k ≠ j := fun e => hk (e ▸ hj)
    rw [State.setTank_tank, if_neg hn, ih]
  | _ => simp_all [State.tank]

/-- Lines outside the scope are as they were. -/
theorem Free.line_eq {c : Scope} {s t : State} (h : Free c s t) {l : LineId} (hl : ¬ c.lines l) :
    t.seq l = s.seq l ∧ t.rate l = s.rate l ∧ t.meas l = s.meas l ∧ t.drive l = s.drive l ∧ t.lineup l = s.lineup l := by
  induction h with
  | own j hj _ ho ih =>
    have hn : l ≠ j := fun e => hl (e ▸ hj)
    obtain ⟨a, b, d, e, f⟩ := ho.only l hn
    rw [a, b, d, e, f]
    exact ih
  | lineup j ts hj _ ih =>
    have hn : l ≠ j := fun e => hl (e ▸ hj)
    simpa [hn] using ih
  | _ => simp_all [State.seq, State.rate, State.meas, State.drive, State.lineup]

theorem Free.link_eq {c : Scope} {s t : State} (h : Free c s t) (hk : ¬ c.link) :
    t.link = s.link ∧ t.linkResult = s.linkResult := by
  induction h with
  | own _ _ _ ho ih => exact ⟨ho.elsewhere.link.trans ih.1, ho.elsewhere.linkResult.trans ih.2⟩
  | link _ g => exact absurd g hk
  | result _ g => exact absurd g hk
  | _ => simp_all

theorem Free.trip_eq {c : Scope} {s t : State} (h : Free c s t) (hd : ¬ c.trip) :
    t.esd = s.esd ∧ t.device = s.device ∧ t.overfills = s.overfills := by
  induction h with
  | own _ _ _ ho ih =>
    exact ⟨ho.elsewhere.esd.trans ih.1, ho.elsewhere.device.trans ih.2.1, ho.elsewhere.overfills.trans ih.2.2⟩
  | device _ g => exact absurd g hd
  | overfills _ g => exact absurd g hd
  | contact _ g => exact absurd g hd
  | _ => simp_all

/-! ### The invariants that need no condition -/

/-- R152: the entries stay distinct when one is raised. -/
theorem State.raiseAlarm_distinct (s : State) (k : AlarmKind) (o : AlarmObject) (h : AlarmsDistinct s) :
    AlarmsDistinct (s.raiseAlarm k o) := by
  unfold AlarmsDistinct at *
  rcases s.raiseAlarm_cases k o with ⟨hf, e⟩ | ⟨a, -, -, e⟩ | ⟨a, -, -, e⟩ <;> rw [e]
  · rw [List.map_append, List.nodup_append]
    refine ⟨h, by simp, ?_⟩
    intro x hx y hy
    simp only [List.map_cons, List.map_nil, List.mem_singleton] at hy
    obtain ⟨b, hb, rfl⟩ := List.mem_map.mp hx
    intro he
    have := List.find?_eq_none.mp hf b hb
    exact this ((Alarm.isFor_iff k o b).mpr (he.trans hy))
  · rw [List.map_map]
    convert h using 2
    funext b
    simp only [Function.comp_apply]
    split <;> rfl
  · exact h

theorem State.alarmGone_distinct (s : State) (k : AlarmKind) (o : AlarmObject) (h : AlarmsDistinct s) :
    AlarmsDistinct (s.alarmGone k o) := by
  unfold AlarmsDistinct at *
  rcases s.alarmGone_cases k o with e | ⟨a, -, -, -, e⟩ | ⟨a, -, -, -, e⟩ <;> rw [e]
  · exact h
  · exact List.Nodup.sublist (List.Sublist.map _ List.filter_sublist) h
  · rw [List.map_map]
    convert h using 2
    funext b
    simp only [Function.comp_apply]
    split <;> rfl

/-- Distinct entries: two of one kind and object are one. -/
theorem AlarmsDistinct.unique {s : State} (h : AlarmsDistinct s) {a b : Alarm} (ha : a ∈ s.alarms) (hb : b ∈ s.alarms)
    (e : a.key = b.key) : a = b := List.inj_on_of_nodup_map h ha hb e

/-- R154: with distinct entries, every acknowledged entry left in the set is present. -/
theorem State.raiseAlarm_live (s : State) (k : AlarmKind) (o : AlarmObject) (h : AlarmsLive s) :
    AlarmsLive (s.raiseAlarm k o) := by
  intro b hb hacked
  rcases s.raiseAlarm_cases k o with ⟨-, e⟩ | ⟨a, -, -, e⟩ | ⟨a, -, -, e⟩ <;> rw [e] at hb
  · rcases List.mem_append.mp hb with hb | hb
    · exact h b hb hacked
    · rw [List.mem_singleton.mp hb]
  · obtain ⟨c, hc, rfl⟩ := List.mem_map.mp hb
    split
    · rfl
    · next hn => rw [if_neg hn] at hacked; exact h c hc hacked
  · exact h b hb hacked

theorem State.alarmGone_live (s : State) (k : AlarmKind) (o : AlarmObject) (d : AlarmsDistinct s) (h : AlarmsLive s) :
    AlarmsLive (s.alarmGone k o) := by
  intro b hb hacked
  rcases s.alarmGone_cases k o with e | ⟨a, -, -, -, e⟩ | ⟨a, hf, -, hq, e⟩ <;> rw [e] at hb
  · exact h b hb hacked
  · exact h b (List.mem_of_mem_filter hb) hacked
  · obtain ⟨c, hc, rfl⟩ := List.mem_map.mp hb
    split
    · next hi =>
      rw [if_pos hi] at hacked
      have : c = a := d.unique hc (List.mem_of_find?_eq_some hf)
        (((Alarm.isFor_iff k o c).mp hi).trans ((Alarm.isFor_iff k o a).mp (List.find?_some hf)).symm)
      subst this
      simp [hq] at hacked
    · next hn => rw [if_neg hn] at hacked; exact h c hc hacked

/-- R165: a notice keeps the pending set sound. -/
theorem State.notify_sound (s : State) (n : Notice) (h : NoticesSound s) : NoticesSound (s.notify n) := by
  refine ⟨?_, ?_⟩
  · rw [State.notify_notices]
    unfold noticesWith
    split
    · exact h.1
    · next g =>
      simp only [not_or] at g
      rw [List.nodup_append]
      exact ⟨h.1, by simp, fun a ha b hb e => g.1 (List.mem_singleton.mp hb ▸ e ▸ ha)⟩
  · intro m hm
    rw [State.notify_notices, mem_noticesWith] at hm
    rw [State.notify_port]
    rcases hm with hm | ⟨rfl, hm⟩
    · exact h.2 m hm
    · exact hm

theorem State.raiseAlarm_eq_notify (s : State) (k : AlarmKind) (o : AlarmObject) :
    (s.raiseAlarm k o).notices = s.notices ∨ (s.raiseAlarm k o).notices = noticesWith s (.alarm k o) := by
  unfold State.raiseAlarm
  split
  · right; rw [State.notify_notices]; rfl
  · split
    · exact .inl rfl
    · right; rw [State.notify_notices]; rfl

theorem State.alarmGone_eq_notify (s : State) (k : AlarmKind) (o : AlarmObject) :
    (s.alarmGone k o).notices = s.notices ∨ (s.alarmGone k o).notices = noticesWith s (.alarm k o) := by
  unfold State.alarmGone
  split
  · exact .inl rfl
  · split
    · right; rw [State.notify_notices]; split <;> rfl
    · exact .inl rfl

theorem NoticesSound.of_eq {s t : State} (h : NoticesSound s) (hn : t.notices = s.notices) (hp : t.port = s.port) :
    NoticesSound t := by
  unfold NoticesSound at *
  rw [hn, hp]
  exact h

theorem NoticesSound.of_with {s t : State} {n : Notice} (h : NoticesSound s) (hn : t.notices = noticesWith s n)
    (hp : t.port = s.port) : NoticesSound t := by
  have := s.notify_sound n h
  exact this.of_eq (by simp [hn]) (by simp [hp])

theorem State.modSeq_eq_notify (s : State) (l : LineId) (f : Seq → Seq) :
    (s.modSeq l f).notices = s.notices ∨ (s.modSeq l f).notices = noticesWith s (.line l) := by
  unfold State.modSeq
  simp only []
  split
  · exact .inl rfl
  · right; rw [State.notify_notices]; rfl

theorem Soft.horn {l : LineId} {s t : State} (h : Soft l s t) (i : HornFollows s) : HornFollows t := by
  induction h with
  | raise k o _ ih => exact State.raiseAlarm_horn _ k o ih
  | gone k o _ ih => exact State.alarmGone_horn _ k o ih
  | _ => simpa [HornFollows] using ‹HornFollows _›

theorem Soft.distinct {l : LineId} {s t : State} (h : Soft l s t) (i : AlarmsDistinct s) : AlarmsDistinct t := by
  induction h with
  | raise k o _ ih => exact State.raiseAlarm_distinct _ k o ih
  | gone k o _ ih => exact State.alarmGone_distinct _ k o ih
  | _ => simpa [AlarmsDistinct] using ‹AlarmsDistinct _›

theorem Soft.live {l : LineId} {s t : State} (h : Soft l s t) (d : AlarmsDistinct s) (i : AlarmsLive s) :
    AlarmsLive t := by
  induction h with
  | raise k o _ ih => exact State.raiseAlarm_live _ k o ih
  | gone k o ht ih => exact State.alarmGone_live _ k o (ht.distinct d) ih
  | _ => simpa [AlarmsLive] using ‹AlarmsLive _›

theorem Soft.noticesSound {l : LineId} {s t : State} (h : Soft l s t) (i : NoticesSound s) : NoticesSound t := by
  induction h with
  | refl => exact i
  | notify n _ ih => exact State.notify_sound _ n ih
  | raise k o _ ih =>
    rcases State.raiseAlarm_eq_notify _ k o with e | e
    · exact ih.of_eq e (by simp)
    · exact ih.of_with e (by simp)
  | gone k o _ ih =>
    rcases State.alarmGone_eq_notify _ k o with e | e
    · exact ih.of_eq e (by simp)
    · exact ih.of_with e (by simp)
  | rate f _ ih => exact ih.of_eq (by simp) (by simp)
  | meas f _ _ ih => exact ih.of_eq (by simp) (by simp)
  | drive f _ _ ih => exact ih.of_eq (by simp) (by simp)

theorem Own.horn {l : LineId} {s t : State} (h : Own l s t) (i : HornFollows s) : HornFollows t := by
  induction h with
  | refl => exact i
  | soft _ hs ih => exact hs.horn ih
  | seq f _ ih => simpa [HornFollows] using ih
  | drive f _ ih => simpa [HornFollows] using ih

theorem Own.distinct {l : LineId} {s t : State} (h : Own l s t) (i : AlarmsDistinct s) : AlarmsDistinct t := by
  induction h with
  | refl => exact i
  | soft _ hs ih => exact hs.distinct ih
  | seq f _ ih => simpa [AlarmsDistinct] using ih
  | drive f _ ih => simpa [AlarmsDistinct] using ih

theorem Own.live {l : LineId} {s t : State} (h : Own l s t) (d : AlarmsDistinct s) (i : AlarmsLive s) :
    AlarmsLive t := by
  induction h with
  | refl => exact i
  | soft ho hs ih => exact hs.live (ho.distinct d) ih
  | seq f _ ih => simpa [AlarmsLive] using ih
  | drive f _ ih => simpa [AlarmsLive] using ih

theorem Own.noticesSound {l : LineId} {s t : State} (h : Own l s t) (i : NoticesSound s) : NoticesSound t := by
  induction h with
  | refl => exact i
  | soft _ hs ih => exact hs.noticesSound ih
  | seq f _ ih =>
    rcases State.modSeq_eq_notify _ l f with e | e
    · exact ih.of_eq e (by simp)
    · exact ih.of_with e (by simp)
  | drive f _ ih => exact ih.of_eq (by simp) (by simp)

theorem pumpPermit_idem (q : Seq) (c : Contact) : pumpPermit { q with pump := pumpPermit q c } c = pumpPermit q c := rfl

theorem Own.pumps {l : LineId} {s t : State} (h : Own l s t) (i : PumpsFollow s) : PumpsFollow t := by
  induction h with
  | refl => exact i
  | soft _ hs ih =>
    intro k
    rw [hs.seq k, hs.elsewhere.esd]
    exact ih k
  | seq f _ ih =>
    intro k
    rw [State.modSeq_seq, State.modSeq_esd]
    split
    · rfl
    · exact ih k
  | drive f _ ih => exact ih

theorem Free.horn {c : Scope} {s t : State} (h : Free c s t) (i : HornFollows s) : HornFollows t := by
  induction h with
  | own l _ _ ho ih => exact ho.horn ih
  | raise k o _ ih => exact State.raiseAlarm_horn _ k o ih
  | gone k o _ ih => exact State.alarmGone_horn _ k o ih
  | _ => simpa [HornFollows] using ‹HornFollows _›

theorem Free.distinct {c : Scope} {s t : State} (h : Free c s t) (i : AlarmsDistinct s) : AlarmsDistinct t := by
  induction h with
  | own l _ _ ho ih => exact ho.distinct ih
  | raise k o _ ih => exact State.raiseAlarm_distinct _ k o ih
  | gone k o _ ih => exact State.alarmGone_distinct _ k o ih
  | _ => simpa [AlarmsDistinct] using ‹AlarmsDistinct _›

theorem Free.live {c : Scope} {s t : State} (h : Free c s t) (d : AlarmsDistinct s) (i : AlarmsLive s) :
    AlarmsLive t := by
  induction h with
  | own l _ hf ho ih => exact ho.live (hf.distinct d) ih
  | raise k o _ ih => exact State.raiseAlarm_live _ k o ih
  | gone k o hf ih => exact State.alarmGone_live _ k o (hf.distinct d) ih
  | _ => simpa [AlarmsLive] using ‹AlarmsLive _›

theorem Free.noticesSound {c : Scope} {s t : State} (h : Free c s t) (i : NoticesSound s) : NoticesSound t := by
  induction h with
  | refl => exact i
  | own l _ _ ho ih => exact ho.noticesSound ih
  | notify n _ ih => exact State.notify_sound _ n ih
  | raise k o _ ih => exact (Soft.refl (l := 0) |>.raise k o).noticesSound ih
  | gone k o _ ih => exact (Soft.refl (l := 0) |>.gone k o).noticesSound ih
  | _ => exact NoticesSound.of_eq ‹_› rfl rfl

theorem Free.pumps {c : Scope} {s t : State} (h : Free c s t) (i : PumpsFollow s) : PumpsFollow t := by
  induction h with
  | own l _ _ ho ih => exact ho.pumps ih
  | _ => simpa [PumpsFollow, State.seq] using ‹PumpsFollow _›

end Sys2Proof.Machine
end

