-- ==== Sys2Proof/Laws/Watch.lean ====
section
/-! SUPPORT. What each operation of the tank watch may touch, said once: its tank, its line, the ship link, the trip unit. -/

namespace Sys2Proof.Machine

variable {c : Scope}

/-! ### Operations of Ops.lean -/

theorem State.modTank_free (s : State) (k : TankId) (f : Tank → Tank) (hk : c.tanks k) : Free c s (s.modTank k f) := by
  unfold State.modTank
  split
  · exact Free.refl.tank k _ hk
  · exact .refl

theorem State.modTankNoticed_free (s : State) (k : TankId) (f : Tank → Tank) (hk : c.tanks k) :
    Free c s (s.modTankNoticed k f) := by
  unfold State.modTankNoticed
  split
  · simp only []
    split
    · exact Free.refl.tank k _ hk
    · exact (Free.refl.tank k _ hk).notify _
  · exact .refl

theorem State.modLinkNoticed_free (s : State) (f : Link → Link) (hc : c.link) : Free c s (s.modLinkNoticed f) := by
  unfold State.modLinkNoticed
  simp only []
  split
  · exact Free.refl.link _ hc
  · exact (Free.refl.link _ hc).notify _

theorem State.setOutcome_free (s : State) (l : LineId) (o : PermitOutcome) (hc : c.link) : Free c s (s.setOutcome l o) := by
  unfold State.setOutcome
  split
  · exact .refl
  · exact (Free.refl.link _ hc).notify _

theorem State.joinDevice_free (s : State) (d : DeviceTrip) (ht : c.trip) : Free c s (s.joinDevice d) := by
  unfold State.joinDevice
  split
  · exact .refl
  · exact (Free.refl.device _ ht).notify _

theorem State.leaveDevice_free (s : State) (d : DeviceTrip) (ht : c.trip) : Free c s (s.leaveDevice d) := by
  unfold State.leaveDevice
  split
  · exact (Free.refl.device _ ht).notify _
  · exact .refl

theorem State.setContact_free (s : State) (x : Contact) (ht : c.trip) : Free c s (s.setContact x) := by
  unfold State.setContact
  split
  · exact .refl
  · exact (Free.refl.contact x ht).notify _

theorem State.listOverfill_free (s : State) (d : DeviceTrip) (ht : c.trip) : Free c s (s.listOverfill d) := by
  cases d with
  | overfill t => exact Free.refl.overfills _ ht
  | _ => exact .refl

theorem State.deviceTrip_free (s : State) (d : DeviceTrip) (ht : c.trip) : Free c s (s.deviceTrip d) := by
  unfold State.deviceTrip
  exact (((s.joinDevice_free d ht).trans (State.listOverfill_free _ d ht)).raise _ _).trans (State.setContact_free _ _ ht)

/-! ### What the lines and the link are told -/

theorem State.queueAdvice_free (s : State) (k : TankId) (a : AdviceKind) (hc : c.link) : Free c s (s.queueAdvice k a) := by
  unfold State.queueAdvice
  split
  · exact .refl
  · exact Free.refl.link _ hc

theorem State.joinPoll_free (s : State) (k : TankId) (hc : c.link) : Free c s (s.joinPoll k) := by
  unfold State.joinPoll
  split
  · exact .refl
  · exact Free.refl.link _ hc

theorem State.forgetTank_free (s : State) (k : TankId) (hc : c.link) : Free c s (s.forgetTank k) := Free.refl.link _ hc

theorem State.reportTopping_soft (s : State) (l : LineId) (b : Bool) : Soft l s (s.reportTopping l b) :=
  s.tellTopping_soft l _ b

theorem State.reportLeftFull_own (s : State) (l : LineId) : Own l s (s.reportLeftFull l) := by
  unfold State.reportLeftFull
  split
  · exact s.dropHold_own l _
  · exact .refl

theorem State.reportOutlets_own (s : State) (l : LineId) (n : Nat) : Own l s (s.reportOutlets l n) := by
  unfold State.reportOutlets
  split
  · exact s.addHold_own l _
  · exact .refl

theorem State.tellDeparture_own (s : State) (l : LineId) (was : TankState) : Own l s (s.tellDeparture l was) := by
  cases was
  case topping => exact (s.reportTopping_soft l false).own
  case full => exact s.reportLeftFull_own l
  all_goals exact .refl

/-! ### Transitions of a tank -/

theorem State.moveTank_free (s : State) (k : TankId) (st : TankState) (hk : c.tanks k) : Free c s (s.moveTank k st) := by
  unfold State.moveTank
  simp only []
  split
  · exact (s.modTankNoticed_free k _ hk).gone _ _
  · exact s.modTankNoticed_free k _ hk

theorem State.leaveLineup_free (s : State) (k : TankId) (hk : c.tanks k) (hl : ∀ l, s.tankLine k = some l → c.lines l) :
    Free c s (s.leaveLineup k) := by
  unfold State.leaveLineup
  split
  · exact .refl
  · next l h => exact ((s.modTankNoticed_free k _ hk).lineup l _ (hl l h)).notify _

theorem State.removeTank_free (s : State) (k : TankId) (hk : c.tanks k) (hc : c.link) : Free c s (s.removeTank k) := by
  unfold State.removeTank
  exact ((Free.refl.tank k none hk).trans (State.forgetTank_free _ k hc)).notify _

theorem State.applyPending_free (s : State) (k : TankId) (hk : c.tanks k) (hc : c.link) : Free c s (s.applyPending k) := by
  unfold State.applyPending
  split
  · exact .refl
  · exact s.removeTank_free k hk hc
  · exact s.modTankNoticed_free k _ hk

theorem State.tankLine_moveTank (s : State) (k j : TankId) (st : TankState) :
    (s.moveTank k st).tankLine j = s.tankLine j := by
  have h : ((s.modTankNoticed k (Tank.moved st s.clock)).tank j).bind (·.line) = (s.tank j).bind (·.line) := by
    rw [State.modTankNoticed_tank]
    split
    · next e => subst e; cases s.tank j <;> rfl
    · rfl
  unfold State.moveTank State.tankLine
  simp only []
  split
  · simpa using h
  · exact h

/-- `listTank` up to the pending entry: the record and the lineup alone. -/
theorem State.listTank_free (s : State) (k : TankId) (b : Bool) (hk : c.tanks k) (hc : c.link)
    (hl : ∀ l, s.tankLine k = some l → c.lines l) : Free c s (s.listTank k b) := by
  unfold State.listTank
  split
  · exact .refl
  · next r h =>
    have h₁ : Free c s (((s.moveTank k .listed).leaveLineup k).modTankNoticed k
        fun x => { x with topped := x.topped || b }) :=
      ((s.moveTank_free k _ hk).trans (State.leaveLineup_free _ k hk (by
        intro l e
        rw [State.tankLine_moveTank] at e
        exact hl l e))).trans (State.modTankNoticed_free _ k _ hk)
    simp only []
    split
    · next l hr =>
      have hl' : c.lines l := hl l (by simp [State.tankLine, h, hr])
      exact (h₁.own l hl' (State.tellDeparture_own _ l _)).trans (State.applyPending_free _ k hk hc)
    · exact h₁.trans (State.applyPending_free _ k hk hc)

theorem State.shiftTank_free (s : State) (k : TankId) (st : TankState) (hk : c.tanks k)
    (hl : ∀ l, s.tankLine k = some l → c.lines l) : Free c s (s.shiftTank k st) := by
  unfold State.shiftTank
  split
  · exact .refl
  · next r h =>
    simp only []
    split
    · next l hr =>
      split
      · exact s.moveTank_free k st hk
      · exact (s.moveTank_free k st hk).own l (hl l (by simp [State.tankLine, h, hr])) (State.tellDeparture_own _ l _)
    · exact s.moveTank_free k st hk

theorem State.startFilling_free (s : State) (k : TankId) (hk : c.tanks k)
    (hl : ∀ l, s.tankLine k = some l → c.lines l) : Free c s (s.startFilling k) := by
  unfold State.startFilling
  simp only []
  split
  · next l h => exact (s.shiftTank_free k _ hk hl).own l (hl l h) (State.dropHold_own _ l _)
  · exact s.shiftTank_free k _ hk hl

theorem State.clearRing_free (s : State) (k : TankId) (hk : c.tanks k) : Free c s (s.clearRing k) :=
  s.modTank_free k _ hk

/-- A fold of operations within a scope stays within it. -/
theorem Free.foldl {α : Type} {f : State → α → State} (xs : List α) (hf : ∀ t, ∀ x ∈ xs, Free c t (f t x)) (s : State) :
    Free c s (xs.foldl f s) := by
  induction xs generalizing s with
  | nil => exact .refl
  | cons x xs ih =>
    exact (hf s x (List.mem_cons_self ..)).trans (ih (fun t y hy => hf t y (List.mem_cons_of_mem _ hy)) (f s x))

theorem State.clearRings_free (s : State) (l : LineId) (hk : ∀ k ∈ s.lineup l, c.tanks k) : Free c s (s.clearRings l) :=
  Free.foldl _ (fun t k h => t.clearRing_free k (hk k h)) s

theorem State.enterOverfill_free (s : State) (k : TankId) (hk : c.tanks k) (hc : c.link) (ht : c.trip)
    (hl : ∀ l, s.tankLine k = some l → c.lines l) : Free c s (s.enterOverfill k) := by
  unfold State.enterOverfill
  split
  · exact .refl
  · next r h =>
    have h₁ : Free c s ((((s.moveTank k .overfill).leaveLineup k).clearRing k).modTankNoticed k
        fun x => { x with stale := false }) :=
      (((s.moveTank_free k _ hk).trans (State.leaveLineup_free _ k hk (by
        intro l e
        rw [State.tankLine_moveTank] at e
        exact hl l e))).trans (State.clearRing_free _ k hk)).trans (State.modTankNoticed_free _ k _ hk)
    simp only []
    split
    · next l hr =>
      have hl' : c.lines l := hl l (by simp [State.tankLine, h, hr])
      exact (((h₁.own l hl' (State.tellDeparture_own _ l _)).own l hl' (State.reportOutlets_own _ l _)).trans
        (State.deviceTrip_free _ _ ht)).trans (State.queueAdvice_free _ k _ hc)
    · exact (h₁.trans (State.deviceTrip_free _ _ ht)).trans (State.queueAdvice_free _ k _ hc)

/-! ### Evaluation (R99 to R114) -/

theorem State.judgeStale_free (s : State) (k : TankId) (hk : c.tanks k) : Free c s (s.judgeStale k) :=
  s.modTankNoticed_free k _ hk

theorem State.enterFull_free (s : State) (k : TankId) (l : LineId) (hk : c.tanks k) (hc : c.link) (hl : c.lines l)
    (hr : ∀ j, s.tankLine k = some j → c.lines j) : Free c s (s.enterFull k l) :=
  ((s.shiftTank_free k _ hk hr).own l hl (State.addHold_own _ l _)).trans (State.queueAdvice_free _ k _ hc)

theorem State.enterTopping_free (s : State) (k : TankId) (l : LineId) (hk : c.tanks k) (hc : c.link) (hl : c.lines l) :
    Free c s (s.enterTopping k l) :=
  ((s.moveTank_free k _ hk).own l hl (State.reportTopping_soft _ l true).own).trans (State.queueAdvice_free _ k _ hc)

theorem State.actOn_free (s : State) (k : TankId) (l : LineId) (r : Tank) (e : Results) (hk : c.tanks k) (hc : c.link)
    (hl : c.lines l) (hr : ∀ j, s.tankLine k = some j → c.lines j) : Free c s (s.actOn k l r e) := by
  unfold State.actOn
  split
  · exact (s.addTrip_own l _).free hl
  · split
    · exact s.enterFull_free k l hk hc hl hr
    · split
      · split
        · exact s.enterTopping_free k l hk hc hl
        · exact .refl
      · exact .refl

/-- A write of the record that keeps its line keeps every tank's line. -/
theorem State.tankLine_modTank (s : State) (k j : TankId) (f : Tank → Tank) (hf : ∀ r, (f r).line = r.line) :
    (s.modTank k f).tankLine j = s.tankLine j := by
  unfold State.tankLine
  rw [State.modTank_tank]
  split
  · next e => subst e; cases s.tank j <;> simp [hf]
  · rfl

theorem State.tankLine_modTankNoticed (s : State) (k j : TankId) (f : Tank → Tank) (hf : ∀ r, (f r).line = r.line) :
    (s.modTankNoticed k f).tankLine j = s.tankLine j := by
  unfold State.tankLine
  rw [State.modTankNoticed_tank]
  split
  · next e => subst e; cases s.tank j <;> simp [hf]
  · rfl

theorem State.evaluate_free (s : State) (k : TankId) (hk : c.tanks k) (hc : c.link)
    (hl : ∀ l, s.tankLine k = some l → c.lines l) : Free c s (s.evaluate k) := by
  unfold State.evaluate
  split
  · exact .refl
  · next r h =>
    split
    · next l v hr hv =>
      split
      · have hl' : c.lines l := hl l (by simp [State.tankLine, h, hr])
        have h₁ : Free c s ((s.judgeStale k).modTank k fun x => { x with results := some (s.evaluation l r v) }) :=
          (s.judgeStale_free k hk).trans (State.modTank_free _ k _ hk)
        have h₂ := h₁.trans (State.actOn_free _ k l r (s.evaluation l r v) hk hc hl' (by
          intro j e
          rw [State.tankLine_modTank, State.judgeStale, State.tankLine_modTankNoticed] at e
          · exact hl j e
          all_goals exact fun _ => rfl))
        simp only []
        split
        · exact h₂.own l hl' (State.addHold_own _ l _)
        · exact h₂
      · exact .refl
    · exact .refl

theorem State.estimate_free (s : State) (k : TankId) (hk : c.tanks k) : Free c s (s.estimate k) := by
  unfold State.estimate
  split
  · exact .refl
  · split <;> exact s.modTank_free k _ hk

end Sys2Proof.Machine
end

