-- ==== Sys2Proof/Laws/Reports.lean ====
section
/-! SUPPORT. What level reports, line events, the directory and sample events may touch, said once. -/

namespace Sys2Proof.Machine

variable {c : Scope}

/-! ### The line of a tank under these operations -/

theorem Own.tank {l : LineId} {s t : State} (h : Own l s t) (k : TankId) : t.tank k = s.tank k := by
  simp [State.tank, h.elsewhere.tanks]

theorem Own.tankLine {l : LineId} {s t : State} (h : Own l s t) (k : TankId) : t.tankLine k = s.tankLine k := by
  simp [State.tankLine, h.tank]

theorem State.tankLine_clearRing (s : State) (k j : TankId) : (s.clearRing k).tankLine j = s.tankLine j :=
  s.tankLine_modTank k j _ fun _ => rfl

theorem State.tankLine_shiftTank (s : State) (k j : TankId) (st : TankState) :
    (s.shiftTank k st).tankLine j = s.tankLine j := by
  unfold State.shiftTank
  split
  · rfl
  · simp only []
    split
    · split
      · exact s.tankLine_moveTank k j st
      · rw [(State.tellDeparture_own _ _ _).tankLine, State.tankLine_moveTank]
    · exact s.tankLine_moveTank k j st

theorem State.tankLine_startFilling (s : State) (k j : TankId) : (s.startFilling k).tankLine j = s.tankLine j := by
  unfold State.startFilling
  simp only []
  split
  · rw [(State.dropHold_own _ _ _).tankLine, State.tankLine_shiftTank]
  · exact s.tankLine_shiftTank k j _

theorem State.tankLine_leaveLineup (s : State) (k : TankId) : (s.leaveLineup k).tankLine k = none := by
  unfold State.leaveLineup
  split
  · next h => exact h
  · unfold State.tankLine
    simp only [State.notify_tank, State.setLineup_tank, State.modTankNoticed_tank, if_pos]
    cases s.tank k <;> rfl

theorem State.tankLine_removeTank (s : State) (k : TankId) : (s.removeTank k).tankLine k = none := by
  simp [State.removeTank, State.forgetTank, State.tankLine]

theorem State.tankLine_applyPending (s : State) (k : TankId) (h : s.tankLine k = none) :
    (s.applyPending k).tankLine k = none := by
  unfold State.applyPending
  split
  · exact h
  · exact s.tankLine_removeTank k
  · rw [State.tankLine_modTankNoticed]
    · exact h
    · exact fun _ => rfl

theorem State.tankLine_listTank (s : State) (k : TankId) (b : Bool) : (s.listTank k b).tankLine k = none := by
  unfold State.listTank
  split
  · next h => simp [State.tankLine, h]
  · simp only []
    split
    all_goals
      apply State.tankLine_applyPending
      first
        | rw [(State.tellDeparture_own _ _ _).tankLine, State.tankLine_modTankNoticed, State.tankLine_leaveLineup]
        | rw [State.tankLine_modTankNoticed, State.tankLine_leaveLineup]
      exact fun _ => rfl

/-- A report's transitions leave a tank on its line or take it off. -/
theorem State.tankLine_reportTransition (s : State) (k : TankId) (v : ValveWord) (l : LineId)
    (h : (s.reportTransition k v).tankLine k = some l) : s.tankLine k = some l := by
  unfold State.reportTransition at h
  split at h
  · exact h
  · split at h
    · split at h
      · rwa [State.tankLine_startFilling] at h
      · exact h
    · simp only [] at h
      split at h
      all_goals first
        | rwa [State.tankLine_shiftTank, State.tankLine_clearRing] at h
        | (rw [State.tankLine_listTank] at h; cases h)
        | rwa [State.tankLine_clearRing] at h

/-! ### Level reports (R87, R88) -/

theorem State.takeReport_free (s : State) (p : LevelReport) (m : Nat) (hk : c.tanks p.tank) : Free c s (s.takeReport p m) :=
  s.modTankNoticed_free _ _ hk

theorem State.tankLine_takeReport (s : State) (p : LevelReport) (m : Nat) (k : TankId) :
    (s.takeReport p m).tankLine k = s.tankLine k := by
  unfold State.takeReport
  rw [State.tankLine_modTankNoticed]
  intro r
  unfold Tank.reported
  simp only []
  split <;> rfl

theorem State.reportTransition_free (s : State) (k : TankId) (v : ValveWord) (hk : c.tanks k) (hc : c.link)
    (hl : ∀ l, s.tankLine k = some l → c.lines l) : Free c s (s.reportTransition k v) := by
  have hl' : ∀ l, (s.clearRing k).tankLine k = some l → c.lines l := fun l e => hl l (by rwa [State.tankLine_clearRing] at e)
  unfold State.reportTransition
  split
  · exact .refl
  · split
    · split
      · exact s.startFilling_free k hk hl
      · exact .refl
    · simp only []
      have h := s.clearRing_free k hk
      split
      all_goals first
        | exact h.trans (State.shiftTank_free _ k _ hk hl')
        | exact h.trans (State.listTank_free _ k _ hk hc hl')
        | exact h

theorem State.tankLine_estimate (s : State) (k j : TankId) : (s.estimate k).tankLine j = s.tankLine j := by
  unfold State.estimate
  split
  · rfl
  · split
    all_goals
      apply State.tankLine_modTank
      intro r
      try unfold Tank.estimate
      first
        | rfl
        | (repeat' split) <;> rfl

theorem State.afterReport_free (s : State) (p : LevelReport) (line : Option LineId) (n : Nat) (hk : c.tanks p.tank)
    (hc : c.link) (ht : c.trip) (hl : ∀ l, s.tankLine p.tank = some l → c.lines l) (hm : ∀ l, line = some l → c.lines l) :
    Free c s (s.afterReport p line n) := by
  have h₁ := s.reportTransition_free p.tank p.valve hk hc hl
  have l₁ : ∀ l, (s.reportTransition p.tank p.valve).tankLine p.tank = some l → c.lines l :=
    fun l e => hl l (s.tankLine_reportTransition _ _ _ e)
  have rest : ∀ s₂, Free c s s₂ → (∀ l, s₂.tankLine p.tank = some l → c.lines l) →
      Free c s (match s₂.tank p.tank with
        | none => s₂
        | some r =>
          if r.overfills then s₂.enterOverfill p.tank
          else (if p.fault then s₂ else s₂.estimate p.tank).evaluate p.tank) := by
    intro s₂ h₂ l₂
    split
    · exact h₂
    · split
      · exact h₂.trans (State.enterOverfill_free _ _ hk hc ht l₂)
      · split
        · exact h₂.trans (State.evaluate_free _ _ hk hc l₂)
        · exact (h₂.trans (State.estimate_free _ _ hk)).trans (State.evaluate_free _ _ hk hc
            fun l e => l₂ l (by rwa [State.tankLine_estimate] at e))
  cases line with
  | none => exact rest _ h₁ l₁
  | some l =>
    have o := State.reportOutlets_own (s.reportTransition p.tank p.valve) l n
    exact rest _ (h₁.own l (hm l rfl) o) fun j e => l₁ j (by rwa [o.tankLine] at e)

theorem State.levelReport_free (s : State) (p : LevelReport) (hk : c.tanks p.tank) (hc : c.link) (ht : c.trip)
    (hl : ∀ l, s.tankLine p.tank = some l → c.lines l) : Free c s (s.levelReport p) := by
  unfold State.levelReport
  split
  · exact .refl
  · next r h =>
    simp only []
    split
    · exact .refl
    · exact (s.takeReport_free p _ hk).trans (State.afterReport_free _ p _ _ hk hc ht
        (fun l e => hl l (by rwa [State.tankLine_takeReport] at e))
        (fun l e => hl l (by simp [State.tankLine, h, e])))

/-! ### Events from the lines (R94) -/

theorem State.finishTank_free (s : State) (k : TankId) (hk : c.tanks k) (hc : c.link)
    (hl : ∀ l, s.tankLine k = some l → c.lines l) : Free c s (s.finishTank k) := by
  unfold State.finishTank
  split
  · exact s.listTank_free k _ hk hc hl
  · exact s.shiftTank_free k _ hk hl

theorem State.lineFinished_free (s : State) (l : LineId) : Free .all s (s.lineFinished l) :=
  Free.foldl _ (fun t k _ => t.finishTank_free k trivial trivial fun _ _ => trivial) s

theorem State.lineDisconnected_free (s : State) (l : LineId) : Free .all s (s.lineDisconnected l) :=
  Free.foldl _ (fun t k _ => t.listTank_free k _ trivial trivial fun _ _ => trivial) s

theorem State.finishLine_free (s : State) (l : LineId) : Free .all s (s.finishLine l) :=
  ((s.enterConnected_own l).free trivial).trans (State.lineFinished_free _ l)

theorem State.expireChange_free (s : State) (k : TankId) (hk : c.tanks k) : Free c s (s.expireChange k) := by
  unfold State.expireChange
  split
  · split
    · exact ((s.modTank_free k _ hk).notify _).raise _ _
    · exact .refl
  · exact .refl

theorem State.judgeChange_free (s : State) (k : TankId) (hk : c.tanks k) : Free c s (s.judgeChange k) := by
  unfold State.judgeChange
  split
  · split
    · exact s.expireChange_free k hk
    · exact .refl
  · exact .refl

theorem State.lineSampled_free (s : State) (l : LineId) : Free .all s (s.lineSampled l) :=
  Free.foldl _ (fun t k _ => (t.judgeStale_free k trivial).trans
    (State.evaluate_free _ k trivial trivial fun _ _ => trivial)) s

/-! ### Sample events (R2) -/

theorem State.positionTransition_free (s : State) (l : LineId) (pos : Option Nat) :
    Free .all s (s.positionTransition l pos) := by
  unfold State.positionTransition
  split
  · split
    · split
      · exact (s.enterDelivering_own l).free trivial
      · exact .refl
    · exact .refl
  · split
    · exact (s.enterHeld_own l).free trivial
    · exact .refl
  · split
    · exact s.finishLine_free l
    · exact .refl
  · split
    · exact (s.enterTripped_own l).free trivial
    · exact .refl
  all_goals exact .refl

theorem State.trackAndMove_free (s : State) (l : LineId) (pos : Option Nat) : Free .all s (s.trackAndMove l pos) := by
  unfold State.trackAndMove
  split
  · simp only []
    have h : Own l s (s.modDrive l (Drive.trackStep pos)) := (Soft.refl.drive _ (Drive.trackStep_enabled _ _)).own
    split
    · exact (h.trans (State.failTracking_own _ l)).free trivial
    · exact (h.free trivial).trans (State.positionTransition_free _ l pos)
  · exact .refl

theorem State.driveStage_free (s : State) (l : LineId) (pos : Option Nat) : Free .all s (s.driveStage l pos) := by
  have h : ∀ t, Own l s t → Free .all s ((t.trackAndMove l pos).modDrive l (Drive.keepPos pos)) := fun t ht =>
    ((ht.free trivial).trans (t.trackAndMove_free l pos)).own l trivial
      (Soft.refl.drive _ (Drive.keepPos_enabled _ _)).own
  unfold State.driveStage
  simp only []
  split
  · exact h _ (s.rateLoopStep_soft l).own
  · exact h _ (s.strokeStep_own l pos)
  iterate 4
    exact h _ ((Soft.refl.drive _ (Drive.rampStep_enabled _)).trans (State.formTarget_soft _ l)).own
  all_goals exact h _ .refl

theorem State.handStage_free (s : State) (l : LineId) : Free .all s (s.handStage l) := by
  unfold State.handStage
  simp only []
  exact ((Soft.refl.meas _ ⟨rfl, Nat.le_refl _⟩ : Soft l s _).free trivial).trans (State.lineSampled_free _ l)

theorem State.judgeStretchTrip_free (s : State) (l : LineId) (hl : c.lines l) (ht : c.trip) :
    Free c s (s.judgeStretchTrip l) := by
  unfold State.judgeStretchTrip
  split
  · exact ((s.addTrip_own l _).free hl).trans (State.deviceTrip_free _ _ ht)
  · exact .refl

theorem State.stretchStage_free (s : State) (l : LineId) (x : Option Nat) (lim : Limits) (hl : c.lines l) (ht : c.trip) :
    Free c s (s.stretchStage l x lim) := by
  unfold State.stretchStage
  simp only []
  split
  · next v =>
    have h : Soft l s (s.modMeas l (Meas.takeStretch v lim)) := Soft.refl.meas _ (Meas.takeStretch_move _ _ _)
    exact (((h.own.trans (State.warnStretch_own _ l _ _)).trans (State.judgeStretchClear_own _ l)).free hl).trans
      (State.judgeStretchTrip_free _ l hl ht)
  · exact ((s.judgeStretchClear_own l).free hl).trans (State.judgeStretchTrip_free _ l hl ht)

theorem State.measureStage_free (s : State) (l : LineId) (x : Sample) (hl : c.lines l) (ht : c.trip) :
    Free c s (s.measureStage l x) := by
  unfold State.measureStage
  simp only []
  have h : Soft l s (s.modMeas l fun m =>
      (m.takeSample x ((s.limits l).map (·.f)) (decide ((s.seq l).state ≠ .disconnected))).takeUp
        s.settings.steadyn (s.drive l).allowance) :=
    Soft.refl.meas _ (Meas.takeUp_move _ _ _ _ _ _)
  split
  · next lim _ _ =>
    have h₂ := ((h.own.trans (State.judgeSensorFault_own _ l)).soft
      (Soft.refl.meas (Meas.takePressure x.pressure lim.pRated) (Meas.takePressure_move _ _ _))).trans
      (State.judgeOverpressure_own _ l)
    exact ((h₂.free hl).trans (State.stretchStage_free _ l _ _ hl ht)).own l hl (State.steadyStage_soft _ l).own
  · exact (h.own.trans (State.judgeSensorFault_own _ l)).free hl
  · exact (h.meas _ ⟨rfl, Nat.le_refl _⟩).free hl

theorem State.sampleEvent_free (s : State) (l : LineId) (x : Sample) : Free .all s (s.sampleEvent l x) :=
  (((s.measureStage_free l x trivial trivial).own l trivial (State.closureStage_soft _ l).own).trans
    (State.driveStage_free _ l _)).trans (State.handStage_free _ l)

end Sys2Proof.Machine
end

