-- ==== Sys2Proof/Laws/LinkOps.lean ====
section
/-! SUPPORT. What the directory, the ship link and the requests may touch, said once. -/

namespace Sys2Proof.Machine

variable {c : Scope}

/-! ### The directory (R83 to R85) -/

theorem State.acceptEntry_free (s : State) (k : TankId) (e : DirEntry) (hk : c.tanks k) (hc : c.link) :
    Free c s (s.acceptEntry k e) := by
  unfold State.acceptEntry
  split
  · exact ((Free.refl.tank k _ hk).notify _).trans (State.joinPoll_free _ k hc)
  · split
    · split
      · exact s.modTankNoticed_free k _ hk
      · exact (s.modTankNoticed_free k _ hk).notify _
    · split
      · exact s.modTankNoticed_free k _ hk
      · exact s.modTankNoticed_free k _ hk

theorem State.rejectEntry_free (s : State) (o : Option TankId) (hk : ∀ k, c.tanks k) (hc : c.link) :
    Free c s (s.rejectEntry o) := by
  cases o with
  | some k => exact (s.modTankNoticed_free k _ (hk k)).notify _
  | none => exact (Free.refl.link _ hc).notify _

theorem State.applyEntries_free (s : State) (seen : List Nat) (es : List DirEntry) (hk : ∀ k, c.tanks k) (hc : c.link) :
    Free c s (s.applyEntries seen es) := by
  induction es generalizing s seen with
  | nil => exact .refl
  | cons e es ih =>
    unfold State.applyEntries
    simp only []
    refine Free.trans ?_ (ih _ _)
    split
    · split
      · exact s.acceptEntry_free _ e (hk _) hc
      · exact s.rejectEntry_free _ hk hc
    · exact s.rejectEntry_free _ hk hc

theorem State.dropUnnamed_free (s : State) (named : List Nat) (k : TankId) (hk : c.tanks k) (hc : c.link) :
    Free c s (s.dropUnnamed named k) := by
  unfold State.dropUnnamed
  split
  · exact .refl
  · split
    · exact .refl
    · split
      · exact (s.modTankNoticed_free k _ hk).notify _
      · exact s.removeTank_free k hk hc

theorem State.applyDirectory_free (s : State) (es : List DirEntry) (hk : ∀ k, c.tanks k) (hc : c.link) :
    Free c s (s.applyDirectory es) :=
  ((Free.refl.link _ hc).trans (State.applyEntries_free _ [] es hk hc)).trans
    (Free.foldl _ (fun t k _ => t.dropUnnamed_free _ k (hk k) hc) _)

/-! ### The choice of the next exchange -/

theorem State.sendQuery_free (s : State) (q : Query) (b : Bool) (hc : c.link) : Free c s (s.sendQuery q b) :=
  Free.refl.link _ hc

theorem State.pollTank_free (s : State) (k : TankId) (hc : c.link) : Free c s (s.pollTank k) :=
  (Free.refl.link _ hc).trans (State.sendQuery_free _ _ _ hc)

theorem State.choosePoll_free (s : State) (hc : c.link) : Free c s s.choosePoll := by
  unfold State.choosePoll
  split
  · split
    · exact s.sendQuery_free _ _ hc
    · exact s.pollTank_free _ hc
  · exact s.sendQuery_free _ _ hc
  · exact s.pollTank_free _ hc
  · exact s.sendQuery_free _ _ hc

theorem State.chooseLinked_free (s : State) (hc : c.link) : Free c s s.chooseLinked := by
  unfold State.chooseLinked
  split
  · exact (Free.refl.link _ hc).trans (State.sendQuery_free _ _ _ hc)
  · exact (Free.refl.link _ hc).trans (State.sendQuery_free _ _ _ hc)
  · exact s.choosePoll_free hc

theorem State.chooseNext_free (s : State) (hc : c.link) : Free c s s.chooseNext := by
  unfold State.chooseNext
  split
  · exact .refl
  · exact .refl
  · split
    · exact s.sendQuery_free _ _ hc
    · exact .refl
  all_goals
    split
    · exact s.chooseLinked_free hc
    · exact .refl

/-! ### Link states -/

theorem State.eachLine_free (s : State) (f : State → LineId → State) (hf : ∀ t l, Free c t (f t l)) :
    Free c s (s.eachLine f) := Free.foldl _ (fun t l _ => hf t l) s

theorem State.dropQueries_free (s : State) (hc : c.link) : Free c s s.dropQueries :=
  (Free.refl.link _ hc).trans (Free.foldl _ (fun t l _ => t.setOutcome_free l _ hc) _)

theorem State.enterLost_free (s : State) (hl : ∀ l, c.lines l) (hc : c.link) : Free c s s.enterLost := by
  have h := ((s.modLinkNoticed_free (fun k => { k with state := .lost, succRun := 0 }) hc).raise .linkLost .link).trans
    (State.dropQueries_free _ hc)
  unfold State.enterLost
  simp only []
  split
  · exact h.trans (State.eachLine_free _ _ fun t l =>
      (t.addHold_own l _ |>.trans (State.clearPermit_own _ l)).free (hl l))
  · exact h

theorem State.linkBack_free (s : State) (hl : ∀ l, c.lines l) : Free c s s.linkBack :=
  (Free.refl.gone _ _).trans (State.eachLine_free _ _ fun t l => (t.dropHold_own l _).free (hl l))

theorem State.recoverLink_free (s : State) (hl : ∀ l, c.lines l) (hc : c.link) : Free c s s.recoverLink :=
  (s.modLinkNoticed_free _ hc).trans (State.linkBack_free _ hl)

theorem State.judgeLost_free (s : State) (hl : ∀ l, c.lines l) (hc : c.link) : Free c s s.judgeLost := by
  unfold State.judgeLost
  split
  · exact s.enterLost_free hl hc
  · exact .refl

theorem State.judgeRecovered_free (s : State) (hl : ∀ l, c.lines l) (hc : c.link) : Free c s s.judgeRecovered := by
  unfold State.judgeRecovered
  split
  · exact s.recoverLink_free hl hc
  · exact .refl

theorem State.judgeQuality_free (s : State) (hl : ∀ l, c.lines l) (hc : c.link) : Free c s s.judgeQuality := by
  unfold State.judgeQuality
  split
  · split
    · exact s.judgeLost_free hl hc
    · split
      · exact s.modLinkNoticed_free _ hc
      · exact .refl
  · split
    · exact s.judgeLost_free hl hc
    · split
      · exact s.modLinkNoticed_free _ hc
      · exact .refl
  · exact s.judgeRecovered_free hl hc
  · exact .refl
  · exact .refl

theorem State.countOutcome_free (s : State) (b : Bool) (hl : ∀ l, c.lines l) (hc : c.link) :
    Free c s (s.countOutcome b) := by
  unfold State.countOutcome
  split
  · exact (Free.refl.link _ hc).trans (State.judgeQuality_free _ hl hc)
  · exact .refl

theorem State.closeExchange_free (s : State) (r b : Bool) (hl : ∀ l, c.lines l) (hc : c.link) :
    Free c s (s.closeExchange r b) :=
  (Free.refl.link _ hc).trans (State.countOutcome_free _ b hl hc)

theorem State.takeStop_free (s : State) (b : Bool) (hl : ∀ l, c.lines l) (hc : c.link) : Free c s (s.takeStop b) := by
  unfold State.takeStop
  refine (s.modLinkNoticed_free _ hc).trans (State.eachLine_free _ _ fun t l => ?_)
  split
  · exact ((t.addHold_own l _).trans (State.clearPermit_own _ l)).free (hl l)
  · exact (t.dropHold_own l _).free (hl l)

/-! ### Acquisition and refresh -/

theorem State.setAcqResult_free (s : State) (r : AcqResult) (hc : c.link) : Free c s (s.setAcqResult r) :=
  ((Free.refl.link _ hc).notify _).result _ hc

theorem State.acquired_free (s : State) (h : Header) (es : List DirEntry) (hl : ∀ l, c.lines l) (hk : ∀ k, c.tanks k)
    (hc : c.link) : Free c s (s.acquired h es) := by
  unfold State.acquired
  simp only []
  exact (((((Free.refl.notify _).trans (State.modLinkNoticed_free _ _ hc)).trans (State.setAcqResult_free _ _ hc)).trans
    (State.applyDirectory_free _ es hk hc)).trans (State.modLinkNoticed_free _ _ hc)).trans (State.linkBack_free _ hl)

theorem State.acquisitionFails_free (s : State) (a : AcqTelegram) (hc : c.link) : Free c s (s.acquisitionFails a) :=
  ((Free.refl.notify _).trans (State.modLinkNoticed_free _ _ hc)).trans (State.setAcqResult_free _ _ hc)

theorem State.acquisitionMiss_free (s : State) (a : AcqTelegram) (hc : c.link) : Free c s (s.acquisitionMiss a) := by
  unfold State.acquisitionMiss
  split
  · split
    · exact s.acquisitionFails_free a hc
    · exact Free.refl.link _ hc
  · exact .refl

theorem State.refreshed_free (s : State) (h : Header) (es : List DirEntry) (hk : ∀ k, c.tanks k) (hc : c.link) :
    Free c s (s.refreshed h es) :=
  (s.modLinkNoticed_free _ hc).trans (State.applyDirectory_free _ es hk hc)

theorem State.compareRevision_free (s : State) (n : Nat) (hc : c.link) : Free c s (s.compareRevision n) := by
  unfold State.compareRevision
  split
  · exact .refl
  · split
    · exact Free.refl.link _ hc
    · split
      · exact Free.refl.link _ hc
      · exact .refl

theorem State.takeHeader_free (s : State) (b : Bool) (h : Header) (hc : c.link) : Free c s (s.takeHeader b h) :=
  Free.refl.link _ hc

theorem State.takeEntry_free (s : State) (b : Bool) (e : DirEntry) (hl : ∀ l, c.lines l) (hk : ∀ k, c.tanks k)
    (hc : c.link) : Free c s (s.takeEntry b e) := by
  unfold State.takeEntry
  split
  · split
    · split
      · exact s.refreshed_free _ _ hk hc
      · exact Free.refl.link _ hc
    · exact .refl
  · split
    · split
      · exact s.acquired_free _ _ hl hk hc
      · exact Free.refl.link _ hc
    · exact .refl

theorem State.takePermit_free (s : State) (l : LineId) (g b : Bool) (hl : c.lines l) (hc : c.link) :
    Free c s (s.takePermit l g b) := by
  unfold State.takePermit
  split
  · split
    · split
      · exact ((s.clearPermit_own l).free hl).trans (State.setOutcome_free _ l _ hc)
      · exact ((Own.refl.seq _ : Own l s _).free hl).trans (State.setOutcome_free _ l _ hc)
    · exact ((s.clearPermit_own l).free hl).trans (State.setOutcome_free _ l _ hc)
  · exact s.setOutcome_free l _ hc

theorem State.takeBody_free (s : State) (x : Exchange) (stop : Bool) (b : ReplyBody) : Free .all s (s.takeBody x stop b) := by
  unfold State.takeBody
  split
  · exact s.takeHeader_free _ _ trivial
  · exact s.takeEntry_free _ _ (fun _ => trivial) (fun _ => trivial) trivial
  · exact (s.levelReport_free _ trivial trivial trivial fun _ _ => trivial).trans (State.compareRevision_free _ _ trivial)
  · exact s.takePermit_free _ _ _ trivial trivial
  · exact .refl

/-! ### The end of an exchange -/

theorem State.endGood_free (s : State) (x : Exchange) (stop : Bool) (b : ReplyBody) : Free .all s (s.endGood x stop b) :=
  (((s.closeExchange_free _ _ (fun _ => trivial) trivial).trans (State.takeStop_free _ _ (fun _ => trivial) trivial)).trans
    (State.takeBody_free _ x stop b)).trans (State.chooseNext_free _ trivial)

theorem State.takeFailure_free (s : State) (x : Exchange) (hc : c.link) : Free c s (s.takeFailure x) := by
  unfold State.takeFailure
  split
  · exact s.setOutcome_free _ _ hc
  · split
    · exact Free.refl.link _ hc
    · exact s.acquisitionMiss_free _ hc
  · split
    · exact Free.refl.link _ hc
    · exact s.acquisitionMiss_free _ hc
  all_goals exact .refl

theorem State.endFailed_free (s : State) (x : Exchange) (hl : ∀ l, c.lines l) (hc : c.link) : Free c s (s.endFailed x) :=
  ((s.closeExchange_free _ _ hl hc).trans (State.takeFailure_free _ x hc)).trans (State.chooseNext_free _ hc)

theorem State.takeReply_free (s : State) (k : Query → Bool) (more : Bool) (t : List Byte) :
    Free .all s (s.takeReply k more t) := by
  unfold State.takeReply
  split
  · split
    · split
      · split
        · split
          · split
            · exact Free.refl.link _ trivial
            · exact .refl
          · exact s.endGood_free _ _ _
        · exact .refl
      · exact .refl
    · exact .refl
  · exact .refl

theorem State.takeContinuation_free (s : State) (t : List Byte) : Free .all s (s.takeContinuation t) := by
  unfold State.takeContinuation
  split
  · split
    · split
      · exact s.endGood_free _ _ _
      · exact .refl
    · exact .refl
  · exact .refl

theorem State.continuationLate_free (s : State) (hl : ∀ l, c.lines l) (hc : c.link) : Free c s s.continuationLate := by
  unfold State.continuationLate
  split
  · split
    · exact s.endFailed_free _ hl hc
    · exact .refl
  · exact .refl

theorem State.windowOut_free (s : State) (hl : ∀ l, c.lines l) (hc : c.link) : Free c s s.windowOut := by
  unfold State.windowOut
  split
  · split
    · exact .refl
    · exact s.endFailed_free _ hl hc
  · exact .refl

theorem State.beginAcquisition_free (s : State) (hc : c.link) : Free c s s.beginAcquisition :=
  ((s.modLinkNoticed_free _ hc).trans (State.dropQueries_free _ hc)).trans (State.chooseNext_free _ hc)

theorem State.toManual_free (s : State) (hl : ∀ l, c.lines l) (hc : c.link) : Free c s s.toManual :=
  ((s.modLinkNoticed_free _ hc).trans (State.dropQueries_free _ hc)).trans (State.eachLine_free _ _ fun t l =>
    ((t.dropHold_own l _).soft (State.formTarget_soft _ l)).free (hl l))

theorem State.toLinked_free (s : State) (hl : ∀ l, c.lines l) (hc : c.link) : Free c s s.toLinked :=
  ((s.modLinkNoticed_free _ hc).trans (State.eachLine_free _ _ fun t l => (t.formTarget_soft l).free (hl l))).trans
    (State.chooseNext_free _ hc)

theorem State.queuePermit_free (s : State) (l : LineId) (hc : c.link) : Free c s (s.queuePermit l) := by
  unfold State.queuePermit
  split
  · exact s.setOutcome_free l _ hc
  · exact (Free.refl.link _ hc).trans (State.setOutcome_free _ l _ hc)

end Sys2Proof.Machine
end

