-- ==== Sys2Proof/Laws/Lawful.lean ====
section
/-! SUPPORT. The writes of the line supervisors and of the link with the conditions the rules put on them (`Lawful`), and what
follows for hold causes, trip causes, permits, drives, lineups and the link's counts. -/

namespace Sys2Proof.Machine

/-! ### One line's sequence state -/

/-- R47: hold causes only in HOLDING, HELD and FINISHING. -/
def Seq.HoldsOk (q : Seq) : Prop := q.holds ≠ [] → q.state = .holding ∨ q.state = .held ∨ q.state = .finishing

/-- R55 to R58: trip causes only in TRIPPING and TRIPPED. -/
def Seq.TripsOk (q : Seq) : Prop := q.trips ≠ [] → q.state = .tripping ∨ q.state = .tripped

/-- R60: a permit only in the states that hold one. -/
def Seq.PermitOk (q : Seq) : Prop := q.permit = true → q.state.mayHoldPermit = true

/-- A change of a line's sequence state that keeps what holds of it and neither connects nor disconnects it. -/
structure SeqMove (a b : Seq) : Prop where
  holds : a.HoldsOk → b.HoldsOk
  trips : a.TripsOk → b.TripsOk
  permit : a.PermitOk → b.PermitOk
  joined : b.state = .disconnected ↔ a.state = .disconnected

/-- A change of the link controller that keeps its bounds. -/
def Link.Bounded (k : Link) : Prop :=
  k.window.length ≤ 32 ∧ k.failRun ≤ 255 ∧ k.succRun ≤ 3 ∧ k.spacing ≤ 15 ∧ k.polls ≤ 8 ∧ k.advices.length ≤ 16
    ∧ k.advices.Nodup ∧ k.queries.Nodup ∧ k.poll.Nodup

theorem SeqMove.refl (a : Seq) : SeqMove a a := ⟨id, id, id, Iff.rfl⟩

theorem SeqMove.dropHold (q : Seq) (c : HoldCause) : SeqMove q { q with holds := setErase c q.holds } := by
  refine ⟨fun h g => h fun e => g ?_, id, id, Iff.rfl⟩
  simp [e, setErase]

theorem SeqMove.clearPermit (q : Seq) : SeqMove q { q with permit := false } :=
  { holds := id, trips := id, permit := fun _ h => (nomatch h), joined := Iff.rfl }

theorem SeqMove.clearTrips (q : Seq) : SeqMove q { q with trips := [] } := ⟨id, fun _ h => absurd rfl h, id, Iff.rfl⟩

/-- `t` comes from `s` by lawful writes. -/
inductive Lawful (s : State) : State → Prop
  | refl : Lawful s s
  | soft {t u : State} (l : LineId) : Lawful s t → Soft l t u → Lawful s u
  | seq {t : State} (l : LineId) (f : Seq → Seq) : SeqMove (t.seq l) (f (t.seq l)) → Lawful s t → Lawful s (t.modSeq l f)
  | trip {t : State} (l : LineId) (c : TripCause) : Lawful s t → Lawful s (t.addTrip l c)
  | leave {t : State} (l : LineId) : (t.seq l).state = .connected → Lawful s t →
      Lawful s (((t.modSeq l fun q => { q with state := .disconnected, grade := none, permit := false }).modMeas l
        Meas.disconnected).modDrive l Drive.turnOff)
  | tank {t : State} (k : TankId) (r : Option Tank) : Lawful s t → Lawful s (t.setTank k r)
  | lineup {t : State} (l : LineId) (ts : List TankId) : ((t.lineup l).length ≤ 6 → ts.length ≤ 6) → Lawful s t →
      Lawful s (t.setLineup l ts)
  | link {t : State} (f : Link → Link) : (t.link.Bounded → (f t.link).Bounded) → Lawful s t → Lawful s (t.modLink f)
  | device {t : State} (ds : List DeviceTrip) : Lawful s t → Lawful s { t with device := ds }
  | overfills {t : State} (ts : List TankId) : Lawful s t → Lawful s { t with overfills := ts }
  | contact {t : State} (x : Contact) : Lawful s t → Lawful s { t with esd := { t.esd with contact := x } }
  | result {t : State} (b : Bool) : Lawful s t → Lawful s { t with linkResult := b }

theorem Lawful.trans {s t u : State} (h : Lawful s t) (g : Lawful t u) : Lawful s u := by
  induction g with
  | refl => exact h
  | soft l _ hs ih => exact ih.soft l hs
  | seq l f hf _ ih => exact ih.seq l f hf
  | trip l c _ ih => exact ih.trip l c
  | leave l hl _ ih => exact ih.leave l hl
  | tank k r _ ih => exact ih.tank k r
  | lineup l ts hl _ ih => exact ih.lineup l ts hl
  | link f hf _ ih => exact ih.link f hf
  | device ds _ ih => exact ih.device ds
  | overfills ts _ ih => exact ih.overfills ts
  | contact x _ ih => exact ih.contact x
  | result b _ ih => exact ih.result b

theorem Soft.lawful {l : LineId} {s t : State} (h : Soft l s t) : Lawful s t := Lawful.refl.soft l h

theorem Lawful.notify {s t : State} (n : Notice) (h : Lawful s t) : Lawful s (t.notify n) :=
  h.soft 0 (Soft.refl.notify n)

theorem Lawful.raise {s t : State} (k : AlarmKind) (o : AlarmObject) (h : Lawful s t) : Lawful s (t.raiseAlarm k o) :=
  h.soft 0 (Soft.refl.raise k o)

theorem Lawful.gone {s t : State} (k : AlarmKind) (o : AlarmObject) (h : Lawful s t) : Lawful s (t.alarmGone k o) :=
  h.soft 0 (Soft.refl.gone k o)

theorem Lawful.foldl {α : Type} {f : State → α → State} (xs : List α) (hf : ∀ t, ∀ x ∈ xs, Lawful t (f t x))
    (s : State) : Lawful s (xs.foldl f s) := by
  induction xs generalizing s with
  | nil => exact .refl
  | cons x xs ih =>
    exact (hf s x (List.mem_cons_self ..)).trans (ih (fun t y hy => hf t y (List.mem_cons_of_mem _ hy)) (f s x))

/-! ### What a trip cause does to the sequence state (R55 to R57) -/

/-- The sequence state of a line that a trip cause is handed to. -/
theorem State.addTrip_seq (s : State) (l k : LineId) (c : TripCause) :
    (s.addTrip l c).seq k =
      if k = l ∧ ¬((s.seq l).state = .disconnected ∨ c ∈ (s.seq l).trips) then
        let q := { s.seq l with trips := setInsert TripCause.all c (s.seq l).trips }
        let q' := if (s.seq l).state.trips then { q with state := .tripping, permit := false, holds := [] } else q
        { q' with pump := pumpPermit q' s.esd.loop }
      else s.seq k := by
  unfold State.addTrip
  simp only []
  by_cases h : (s.seq l).state = .disconnected ∨ c ∈ (s.seq l).trips
  · simp [h]
  · by_cases g : (s.seq l).state.trips = true
    · have e : ∀ t : State, (t.enterTripping l).seq k =
          if k = l then
            let q := { t.seq l with state := .tripping, permit := false, holds := [] }
            { q with pump := pumpPermit q t.esd.loop }
          else t.seq k := by
        intro t
        have a := (t.abandonStroke_soft l).trans (State.leaveDelivering_soft _ l)
        have b := State.dropTarget_soft ((((t.abandonStroke l).leaveDelivering l).modSeq l fun q =>
          { q with state := .tripping, permit := false, holds := [] }).modDrive l Drive.cut) l
        unfold State.enterTripping
        rw [State.modRate_seq, b.seq, State.modDrive_seq, State.modSeq_seq, a.seq, a.seq, a.elsewhere.esd]
      rw [if_neg h, if_pos g, e, State.raiseAlarm_seq, State.raiseAlarm_seq, State.raiseAlarm_esd, State.modSeq_seq,
        State.modSeq_seq, State.modSeq_esd]
      by_cases hk : k = l
      · simp [hk, h, g, pumpPermit]
      · simp [hk]
    · rw [if_neg h, if_neg g, State.raiseAlarm_seq, State.modSeq_seq]
      by_cases hk : k = l
      · simp [hk, h, g]
      · simp [hk]

/-! ### The invariants -/

theorem setInsert_ne_nil {α : Type} [DecidableEq α] {all : List α} {c : α} {set : List α} (h : c ∈ all) :
    setInsert all c set ≠ [] := fun e => by
  have : c ∈ setInsert all c set := mem_setInsert.mpr ⟨h, .inl rfl⟩
  rw [e] at this
  cases this

theorem Lawful.holds {s t : State} (h : Lawful s t) (i : HoldsPlaced s) : HoldsPlaced t := by
  induction h with
  | refl => exact i
  | soft l _ hs ih => intro k; rw [hs.seq]; exact ih k
  | seq l f hf _ ih =>
    intro k
    rw [State.modSeq_seq]
    split
    · exact hf.holds (ih l)
    · exact ih k
  | trip l c _ ih =>
    intro k
    rw [State.addTrip_seq]
    split
    · next hk =>
      simp only []
      split
      · exact fun g => absurd rfl g
      · exact hk.1 ▸ ih l
    · exact ih k
  | leave l hl _ ih =>
    intro k
    simp only [State.modDrive_seq, State.modMeas_seq, State.modSeq_seq]
    split
    · intro g
      have := ih l g
      simp [hl] at this
    · exact ih k
  | _ => assumption

theorem Lawful.trips {s t : State} (h : Lawful s t) (i : TripsPlaced s) : TripsPlaced t := by
  induction h with
  | refl => exact i
  | soft l _ hs ih => intro k; rw [hs.seq]; exact ih k
  | seq l f hf _ ih =>
    intro k
    rw [State.modSeq_seq]
    split
    · exact hf.trips (ih l)
    · exact ih k
  | trip l c _ ih =>
    intro k
    rw [State.addTrip_seq]
    split
    · next hk =>
      simp only []
      split
      · exact fun _ => .inl rfl
      · next hn =>
        intro _
        have := hk.2
        simp only [not_or] at this
        revert hn
        cases e : (_ : Seq).state <;> simp_all [LineState.trips]
    · exact ih k
  | leave l hl _ ih =>
    intro k
    simp only [State.modDrive_seq, State.modMeas_seq, State.modSeq_seq]
    split
    · intro g
      have := ih l g
      simp [hl] at this
    · exact ih k
  | _ => assumption

theorem Lawful.permits {s t : State} (h : Lawful s t) (i : PermitsPlaced s) : PermitsPlaced t := by
  induction h with
  | refl => exact i
  | soft l _ hs ih => intro k; rw [hs.seq]; exact ih k
  | seq l f hf _ ih =>
    intro k
    rw [State.modSeq_seq]
    split
    · exact hf.permit (ih l)
    · exact ih k
  | trip l c _ ih =>
    intro k
    rw [State.addTrip_seq]
    split
    · simp only []
      split
      · intro g; cases g
      · exact ih l
    · exact ih k
  | leave l hl _ ih =>
    intro k
    simp only [State.modDrive_seq, State.modMeas_seq, State.modSeq_seq]
    split
    · intro g; cases g
    · exact ih k
  | _ => assumption

/-- Trip causes join, and no line is connected or disconnected by them. -/
theorem State.addTrip_joined (s : State) (l k : LineId) (c : TripCause) :
    ((s.addTrip l c).seq k).state = .disconnected ↔ (s.seq k).state = .disconnected := by
  rw [State.addTrip_seq]
  split
  · next h =>
    have := h.2
    simp only [not_or] at this
    simp only []
    split <;> simp [h.1, this.1]
  · exact Iff.rfl

theorem State.addTrip_enabled (s : State) (l k : LineId) (c : TripCause) :
    ((s.addTrip l c).drive k).enabled = (s.drive k).enabled := by
  have e : ∀ t : State, ((t.enterTripping l).drive k).enabled = (t.drive k).enabled := by
    intro t
    have a := (t.abandonStroke_soft l).trans (State.leaveDelivering_soft _ l)
    have b := State.dropTarget_soft ((((t.abandonStroke l).leaveDelivering l).modSeq l fun q =>
      { q with state := .tripping, permit := false, holds := [] }).modDrive l Drive.cut) l
    unfold State.enterTripping
    rw [State.modRate_drive, b.enabled, State.modDrive_drive, State.modSeq_drive, State.modSeq_drive, ← a.enabled]
    split
    · next e => subst e; rfl
    · rfl
  unfold State.addTrip
  simp only []
  split
  · rfl
  · split
    · rw [e]; simp
    · simp

theorem State.addTrip_measMove (s : State) (l k : LineId) (c : TripCause) :
    MeasMove (s.meas k) ((s.addTrip l c).meas k) := by
  have e : ∀ t : State, MeasMove (t.meas k) ((t.enterTripping l).meas k) := by
    intro t
    have a := ((t.abandonStroke_soft l).trans (State.leaveDelivering_soft _ l)).measMove k
    have b := (State.dropTarget_soft ((((t.abandonStroke l).leaveDelivering l).modSeq l fun q =>
      { q with state := .tripping, permit := false, holds := [] }).modDrive l Drive.cut) l).measMove k
    rw [State.modDrive_meas, State.modSeq_meas] at b
    unfold State.enterTripping
    rw [State.modRate_meas]
    exact ⟨b.dBase.trans a.dBase, a.pTot.trans b.pTot⟩
  unfold State.addTrip
  simp only []
  split
  · exact ⟨rfl, Nat.le_refl _⟩
  · split
    · refine ⟨(e _).dBase.trans ?_, Nat.le_trans ?_ (e _).pTot⟩ <;> simp
    · simpa using (⟨rfl, Nat.le_refl _⟩ : MeasMove (s.meas k) (s.meas k))

theorem Lawful.enabled {s t : State} (h : Lawful s t) (i : DrivesEnabled s) : DrivesEnabled t := by
  induction h with
  | refl => exact i
  | soft l _ hs ih => intro k; rw [hs.seq, hs.enabled]; exact ih k
  | seq l f hf _ ih =>
    intro k
    rw [State.modSeq_seq, State.modSeq_drive, ih k]
    split
    · next e => subst e; simp [hf.joined]
    · rfl
  | trip l c _ ih =>
    intro k
    rw [State.addTrip_enabled, ih k]
    simp [State.addTrip_joined]
  | leave l hl _ ih =>
    intro k
    simp only [State.modDrive_seq, State.modMeas_seq, State.modSeq_seq, State.modDrive_drive, State.modMeas_drive,
      State.modSeq_drive]
    split
    · simp [Drive.turnOff]
    · exact ih k
  | _ => assumption

theorem Lawful.lineups {s t : State} (h : Lawful s t) (i : LineupsBounded s) : LineupsBounded t := by
  induction h with
  | refl => exact i
  | soft l _ hs ih => intro k; simpa [State.lineup, hs.elsewhere.lineups] using ih k
  | trip l c _ ih => intro k; simpa [State.lineup, (State.addTrip_own _ l c).elsewhere.lineups] using ih k
  | lineup l ts hl _ ih =>
    intro k
    rw [State.setLineup_lineup]
    split
    · exact hl (ih l)
    · exact ih k
  | _ => simpa [LineupsBounded] using ‹LineupsBounded _›

theorem Lawful.link_bounded {s t : State} (h : Lawful s t) (i : LinkBounded s) : LinkBounded t := by
  induction h with
  | refl => exact i
  | soft l _ hs ih => unfold LinkBounded; rw [hs.elsewhere.link]; exact ih
  | trip l c _ ih => unfold LinkBounded; rw [(State.addTrip_own _ l c).elsewhere.link]; exact ih
  | link f hf _ ih => exact hf ih
  | _ => simpa [LinkBounded] using ‹LinkBounded _›

/-- R6: a line that is connected at the end was connected at the beginning, and its delivered total has not fallen. -/
theorem Lawful.total {s t : State} (h : Lawful s t) (l : LineId) (ht : (t.seq l).state ≠ .disconnected) :
    (s.seq l).state ≠ .disconnected ∧ MeasMove (s.meas l) (t.meas l) := by
  induction h with
  | refl => exact ⟨ht, rfl, Nat.le_refl _⟩
  | soft j _ hs ih =>
    rw [hs.seq] at ht
    obtain ⟨a, b⟩ := ih ht
    have m := hs.measMove l
    exact ⟨a, m.dBase.trans b.dBase, b.pTot.trans m.pTot⟩
  | seq j f hf _ ih =>
    rw [State.modSeq_meas]
    refine ih fun e => ht ?_
    rw [State.modSeq_seq]
    split
    · next hj => subst hj; exact hf.joined.mpr e
    · exact e
  | @trip t j c _ ih =>
    obtain ⟨a, b⟩ := ih fun e => ht ((State.addTrip_joined _ j l c).mpr e)
    refine ⟨a, ?_⟩
    by_cases hj : l = j
    · subst hj
      exact ⟨(State.addTrip_measMove _ l l c).dBase.trans b.dBase, b.pTot.trans (State.addTrip_measMove _ l l c).pTot⟩
    · have o := (t.addTrip_own j c).only l hj
      rw [o.2.2.1]
      exact b
  | leave j hl _ ih =>
    simp only [State.modDrive_seq, State.modMeas_seq, State.modSeq_seq] at ht
    split at ht
    · exact absurd rfl ht
    · next hj =>
      simp only [State.modDrive_meas, State.modMeas_meas, if_neg hj, State.modSeq_meas]
      exact ih ht
  | _ => simpa using ‹_ → _› ht

end Sys2Proof.Machine
end

