-- ==== Sys2Proof/Laws/LineLaws.lean ====
section
/-! SUPPORT. Every operation of the lines, of the tank watch and of the link is a chain of lawful writes. -/

namespace Sys2Proof.Machine

/-! ### Shared operations -/

theorem State.clearPermit_lawful (s : State) (l : LineId) : Lawful s (s.clearPermit l) :=
  Lawful.refl.seq l _ (SeqMove.clearPermit _)

theorem State.dropHold_lawful (s : State) (l : LineId) (c : HoldCause) : Lawful s (s.dropHold l c) :=
  Lawful.refl.seq l _ (SeqMove.dropHold _ c)

/-- A write of the sequence state alone, in a state that fixes what it needs. -/
theorem Lawful.seqIn {s t : State} (l : LineId) (f : Seq → Seq) (h : Lawful s t) (hf : SeqMove (t.seq l) (f (t.seq l))) :
    Lawful s (t.modSeq l f) := h.seq l f hf

theorem State.addHold_lawful (s : State) (l : LineId) (c : HoldCause) : Lawful s (s.addHold l c) := by
  unfold State.addHold
  simp only []
  split
  · next h =>
    split
    · next g =>
      have o := s.leaveDelivering_soft l
      refine (o.lawful.seq l _ ?_).soft l (State.closeOnProfile_soft _ l)
      rw [o.seq]
      refine ⟨fun _ _ => .inl rfl, fun ht hn => ?_, fun _ _ => rfl, ?_⟩
      · have := ht hn
        revert g this
        cases (s.seq l).state <;> simp [LineState.moving]
      · revert g
        cases (s.seq l).state <;> simp [LineState.moving]
    · next g =>
      refine Lawful.refl.seq l _ ⟨fun _ _ => ?_, id, id, Iff.rfl⟩
      have h1 := h.1
      revert g h1
      cases (s.seq l).state <;> simp [LineState.moving, LineState.takesHold]
  · exact .refl

/-- Entry to OPENING from CONNECTED, HOLDING or HELD with no hold cause but OPERATOR (R45, R52). -/
theorem State.enterOpening_lawful (s : State) (l : LineId)
    (h : (s.seq l).state = .connected ∨ (s.seq l).state = .holding ∨ (s.seq l).state = .held)
    (g : (s.seq l).HoldsOk → setErase .operator (s.seq l).holds = []) : Lawful s (s.enterOpening l) := by
  have m : Lawful s (s.modSeq l fun q => { q with state := .opening, holds := setErase .operator q.holds }) := by
    refine Lawful.refl.seq l _ ⟨fun a b => absurd (g a) b, fun a b => ?_, fun _ _ => rfl, ?_⟩
    · have := a b
      rcases h with h | h | h <;> simp [h] at this
    · rcases h with h | h | h <;> simp [h]
  unfold State.enterOpening
  simp only []
  split
  · exact (m.soft l (State.formTarget_soft _ l)).soft l (Soft.refl.drive _ (Drive.rampTo_enabled _ _ _))
  · exact m.soft l (State.formTarget_soft _ l)

theorem State.enterDelivering_lawful (s : State) (l : LineId) (h : (s.seq l).state = .opening) :
    Lawful s (s.enterDelivering l) := by
  refine (Lawful.refl.seq l _ ⟨fun a b => ?_, fun a b => ?_, fun _ _ => rfl, by simp [h]⟩).soft l
    (((Soft.refl.drive _ rfl).rate _).meas _ ⟨rfl, Nat.le_refl _⟩)
  · simpa [h] using a b
  · simpa [h] using a b

theorem State.enterHeld_lawful (s : State) (l : LineId) (h : (s.seq l).state = .holding) : Lawful s (s.enterHeld l) := by
  refine (Lawful.refl.seq l _ ⟨fun _ _ => .inr (.inl rfl), fun a b => ?_, fun _ _ => rfl, by simp [h]⟩).soft l
    (Soft.refl.drive _ rfl)
  simpa [h] using a b

theorem State.enterTripped_lawful (s : State) (l : LineId) (h : (s.seq l).state = .tripping) :
    Lawful s (s.enterTripped l) := by
  refine (Lawful.refl.seq l _ ⟨fun a b => ?_, fun _ _ => .inr rfl, fun a b => ?_, by simp [h]⟩).soft l
    ((Soft.refl.drive _ rfl).trans (State.dropTarget_soft _ l))
  · simpa [h] using a b
  · simpa [h, LineState.mayHoldPermit] using a b

/-- Entry to CONNECTED of a line without trip causes that is not DISCONNECTED. -/
theorem State.enterConnected_lawful (s : State) (l : LineId) (h : (s.seq l).state ≠ .disconnected)
    (g : (s.seq l).TripsOk → (s.seq l).trips = []) : Lawful s (s.enterConnected l) :=
  (Lawful.refl.seq l _ ⟨fun _ b => absurd rfl b, fun a b => absurd (g a) b, fun _ _ => rfl, by simp [h]⟩).soft l
    (((Soft.refl.drive _ rfl).trans (State.dropTarget_soft _ l)).rate _)

theorem State.strokeToConnected_lawful (s : State) (l : LineId) (h : (s.seq l).state = .stroking) :
    Lawful s (s.strokeToConnected l) := by
  refine (Lawful.refl.seq l _ ⟨fun _ b => absurd rfl b, fun a b => ?_, fun _ _ => rfl, by simp [h]⟩).soft l
    (((Soft.refl.drive _ rfl).trans (State.dropTarget_soft _ l)).rate _)
  simpa [h] using a b

theorem State.failStroke_lawful (s : State) (l : LineId) (why : StrokeFailure) (h : (s.seq l).state = .stroking) :
    Lawful s (s.failStroke l why) := by
  have o : Soft l s (((s.modDrive l fun d => (d.endStroke (.failed why)).adjust 0).notify (.doneStroke l)).raiseAlarm
    .strokeFailed (.line l)) := ((Soft.refl.drive _ rfl).notify _).raise _ _
  exact o.lawful.trans (State.strokeToConnected_lawful _ l (by rw [o.seq]; exact h))

theorem State.passStroke_lawful (s : State) (l : LineId) (n : Nat) (h : (s.seq l).state = .stroking) :
    Lawful s (s.passStroke l n) := by
  have o : Soft l s (((s.modDrive l fun d => { d.endStroke (.pass n) with tMeas := some n }).notify
    (.doneStroke l)).alarmGone .strokeFailed (.line l)) := ((Soft.refl.drive _ rfl).notify _).gone _ _
  exact o.lawful.trans (State.strokeToConnected_lawful _ l (by rw [o.seq]; exact h))

theorem State.judgeStroke_lawful (s : State) (l : LineId) (n : Nat) (h : (s.seq l).state = .stroking) :
    Lawful s (s.judgeStroke l n) := by
  have o : Soft l s (s.modDrive l fun d => { d with stage := some .done }) := Soft.refl.drive _ rfl
  unfold State.judgeStroke
  simp only []
  split
  · exact o.lawful.trans (State.passStroke_lawful _ l _ (by rw [o.seq]; exact h))
  · exact o.lawful.trans (State.failStroke_lawful _ l _ (by rw [o.seq]; exact h))

theorem State.judgeOpenTimeout_lawful (s : State) (l : LineId) : Lawful s (s.judgeOpenTimeout l) := by
  unfold State.judgeOpenTimeout
  simp only []
  split
  · next h => exact s.failStroke_lawful l _ h.1
  · exact .refl

theorem State.judgeCloseTimeout_lawful (s : State) (l : LineId) : Lawful s (s.judgeCloseTimeout l) := by
  unfold State.judgeCloseTimeout
  simp only []
  split
  · next h => exact s.failStroke_lawful l _ h.1
  · exact .refl

theorem State.strokeStep_lawful (s : State) (l : LineId) (pos : Option Nat) (hs : (s.seq l).state = .stroking) :
    Lawful s (s.strokeStep l pos) := by
  have a : Soft l s (s.modDrive l Drive.stageStep) := Soft.refl.drive _ rfl
  have b : Soft l s (s.modDrive l fun d => d.stageStep.strokeTimerStep pos) :=
    Soft.refl.drive _ (Drive.strokeTimerStep_enabled pos _)
  unfold State.strokeStep
  split
  · simp only []
    split
    · exact (a.drive _ rfl).lawful
    · exact a.lawful.trans (State.judgeOpenTimeout_lawful _ l)
  · exact (a.trans (State.judgeSettleEnd_soft _ l)).lawful
  · simp only []
    split
    · split
      · exact b.lawful.trans (State.judgeStroke_lawful _ l _ (by rw [b.seq]; exact hs))
      · exact b.lawful.trans (State.judgeCloseTimeout_lawful _ l)
    · exact b.lawful.trans (State.judgeCloseTimeout_lawful _ l)
  · exact .refl
  · exact .refl

theorem State.addTrip_lawful (s : State) (l : LineId) (c : TripCause) : Lawful s (s.addTrip l c) := Lawful.refl.trip l c

theorem State.failTracking_lawful (s : State) (l : LineId) : Lawful s (s.failTracking l) := by
  have o : Soft l s (s.modDrive l Drive.trackFrom0) := Soft.refl.drive _ rfl
  unfold State.failTracking
  simp only []
  split
  iterate 4 exact o.lawful.trip l _
  · next h =>
    refine (o.lawful.trip l _).trans (State.enterTripped_lawful _ l ?_)
    rw [State.addTrip_seq, o.seq]
    split
    · simp [h, LineState.trips]
    · exact h
  · next h => exact o.lawful.trans (State.failStroke_lawful _ l _ (by rw [o.seq]; exact h))
  all_goals exact o.lawful

theorem State.judgeTracking_lawful (s : State) (l : LineId) : Lawful s (s.judgeTracking l) := by
  unfold State.judgeTracking
  split
  · exact s.failTracking_lawful l
  · exact .refl

/-! ### The tank watch and the link -/

theorem State.modTank_lawful (s : State) (k : TankId) (f : Tank → Tank) : Lawful s (s.modTank k f) := by
  unfold State.modTank
  split
  · exact Lawful.refl.tank k _
  · exact .refl

theorem State.modTankNoticed_lawful (s : State) (k : TankId) (f : Tank → Tank) : Lawful s (s.modTankNoticed k f) := by
  unfold State.modTankNoticed
  split
  · simp only []
    split
    · exact Lawful.refl.tank k _
    · exact (Lawful.refl.tank k _).notify _
  · exact .refl

theorem State.modLinkNoticed_lawful (s : State) (f : Link → Link) (hf : ∀ k, k.Bounded → (f k).Bounded) :
    Lawful s (s.modLinkNoticed f) := by
  have h := hf s.link
  unfold State.modLinkNoticed
  simp only []
  split
  · exact Lawful.refl.link _ h
  · exact (Lawful.refl.link _ h).notify _

theorem State.setOutcome_lawful (s : State) (l : LineId) (o : PermitOutcome) : Lawful s (s.setOutcome l o) := by
  unfold State.setOutcome
  split
  · exact .refl
  · exact (Lawful.refl.link (fun k => { k with outcomes := vset k.outcomes l (some o) }) fun h => h).notify _

theorem State.joinDevice_lawful (s : State) (d : DeviceTrip) : Lawful s (s.joinDevice d) := by
  unfold State.joinDevice
  split
  · exact .refl
  · exact (Lawful.refl.device _).notify _

theorem State.leaveDevice_lawful (s : State) (d : DeviceTrip) : Lawful s (s.leaveDevice d) := by
  unfold State.leaveDevice
  split
  · exact (Lawful.refl.device _).notify _
  · exact .refl

theorem State.setContact_lawful (s : State) (x : Contact) : Lawful s (s.setContact x) := by
  unfold State.setContact
  split
  · exact .refl
  · exact (Lawful.refl.contact x).notify _

theorem State.deviceTrip_lawful (s : State) (d : DeviceTrip) : Lawful s (s.deviceTrip d) := by
  have h : ∀ t : State, Lawful t (t.listOverfill d) := by
    intro t
    cases d with
    | overfill k => exact Lawful.refl.overfills _
    | _ => exact .refl
  unfold State.deviceTrip
  exact (((s.joinDevice_lawful d).trans (h _)).raise _ _).trans (State.setContact_lawful _ _)

theorem State.queueAdvice_lawful (s : State) (k : TankId) (a : AdviceKind) : Lawful s (s.queueAdvice k a) := by
  unfold State.queueAdvice
  split
  · exact .refl
  · next h =>
    simp only [not_or] at h
    refine Lawful.refl.link _ fun ⟨b1, b2, b3, b4, b5, b6, b7, b8, b9⟩ => ⟨b1, b2, b3, b4, b5, ?_, ?_, b8, b9⟩
    · simp only []
      split
      · simp only [List.length_append, List.length_drop, List.length_cons, List.length_nil]; omega
      · simp only [List.length_append, List.length_cons, List.length_nil]; omega
    · simp only []
      rw [List.nodup_append]
      refine ⟨?_, by simp, fun x hx y hy e => ?_⟩
      · split
        · exact b7.sublist (List.drop_sublist _ _)
        · exact b7
      · rw [List.mem_singleton.mp hy] at e
        rw [e] at hx
        refine h.2 ?_
        split at hx
        · exact List.mem_of_mem_drop hx
        · exact hx

theorem State.joinPoll_lawful (s : State) (k : TankId) : Lawful s (s.joinPoll k) := by
  unfold State.joinPoll
  split
  · exact .refl
  · next h =>
    refine Lawful.refl.link _ fun ⟨b1, b2, b3, b4, b5, b6, b7, b8, b9⟩ => ⟨b1, b2, b3, b4, b5, b6, b7, b8, ?_⟩
    simp only []
    rw [List.nodup_append]
    exact ⟨b9, by simp, fun x hx y hy e => h (List.mem_singleton.mp hy ▸ e ▸ hx)⟩

theorem State.forgetTank_lawful (s : State) (k : TankId) : Lawful s (s.forgetTank k) :=
  Lawful.refl.link _ fun ⟨b1, b2, b3, b4, b5, b6, b7, b8, b9⟩ =>
    ⟨b1, b2, b3, b4, b5, (List.length_filter_le _ _).trans b6, b7.filter _, b8, b9.filter _⟩

theorem State.reportLeftFull_lawful (s : State) (l : LineId) : Lawful s (s.reportLeftFull l) := by
  unfold State.reportLeftFull
  split
  · exact s.dropHold_lawful l _
  · exact .refl

theorem State.reportOutlets_lawful (s : State) (l : LineId) (n : Nat) : Lawful s (s.reportOutlets l n) := by
  unfold State.reportOutlets
  split
  · exact s.addHold_lawful l _
  · exact .refl

theorem State.tellDeparture_lawful (s : State) (l : LineId) (was : TankState) : Lawful s (s.tellDeparture l was) := by
  cases was
  case topping => exact (s.reportTopping_soft l false).lawful
  case full => exact s.reportLeftFull_lawful l
  all_goals exact .refl

theorem State.moveTank_lawful (s : State) (k : TankId) (st : TankState) : Lawful s (s.moveTank k st) := by
  unfold State.moveTank
  simp only []
  split
  · exact (s.modTankNoticed_lawful k _).gone _ _
  · exact s.modTankNoticed_lawful k _

theorem setErase_length_le {α : Type} [DecidableEq α] (c : α) (xs : List α) : (setErase c xs).length ≤ xs.length :=
  List.length_filter_le _ _

theorem State.leaveLineup_lawful (s : State) (k : TankId) : Lawful s (s.leaveLineup k) := by
  unfold State.leaveLineup
  split
  · exact .refl
  · next l _ =>
    refine ((s.modTankNoticed_lawful k _).lineup l _ fun h => ?_).notify _
    rw [State.modTankNoticed_lineup] at h
    exact (setErase_length_le k _).trans h

theorem State.removeTank_lawful (s : State) (k : TankId) : Lawful s (s.removeTank k) := by
  unfold State.removeTank
  exact ((Lawful.refl.tank k none).trans (State.forgetTank_lawful _ k)).notify _

theorem State.applyPending_lawful (s : State) (k : TankId) : Lawful s (s.applyPending k) := by
  unfold State.applyPending
  split
  · exact .refl
  · exact s.removeTank_lawful k
  · exact s.modTankNoticed_lawful k _

theorem State.listTank_lawful (s : State) (k : TankId) (b : Bool) : Lawful s (s.listTank k b) := by
  unfold State.listTank
  split
  · exact .refl
  · have h := ((s.moveTank_lawful k .listed).trans (State.leaveLineup_lawful _ k)).trans
      (State.modTankNoticed_lawful _ k fun x => { x with topped := x.topped || b })
    simp only []
    split
    · exact (h.trans (State.tellDeparture_lawful _ _ _)).trans (State.applyPending_lawful _ k)
    · exact h.trans (State.applyPending_lawful _ k)

theorem State.shiftTank_lawful (s : State) (k : TankId) (st : TankState) : Lawful s (s.shiftTank k st) := by
  unfold State.shiftTank
  split
  · exact .refl
  · simp only []
    split
    · split
      · exact s.moveTank_lawful k st
      · exact (s.moveTank_lawful k st).trans (State.tellDeparture_lawful _ _ _)
    · exact s.moveTank_lawful k st

theorem State.startFilling_lawful (s : State) (k : TankId) : Lawful s (s.startFilling k) := by
  unfold State.startFilling
  simp only []
  split
  · exact (s.shiftTank_lawful k _).trans (State.dropHold_lawful _ _ _)
  · exact s.shiftTank_lawful k _

theorem State.clearRing_lawful (s : State) (k : TankId) : Lawful s (s.clearRing k) := s.modTank_lawful k _

theorem State.clearRings_lawful (s : State) (l : LineId) : Lawful s (s.clearRings l) :=
  Lawful.foldl _ (fun t k _ => t.clearRing_lawful k) s

theorem State.enterOverfill_lawful (s : State) (k : TankId) : Lawful s (s.enterOverfill k) := by
  unfold State.enterOverfill
  split
  · exact .refl
  · have h := (((s.moveTank_lawful k .overfill).trans (State.leaveLineup_lawful _ k)).trans
      (State.clearRing_lawful _ k)).trans (State.modTankNoticed_lawful _ k fun x => { x with stale := false })
    simp only []
    split
    · exact (((h.trans (State.tellDeparture_lawful _ _ _)).trans (State.reportOutlets_lawful _ _ _)).trans
        (State.deviceTrip_lawful _ _)).trans (State.queueAdvice_lawful _ _ _)
    · exact (h.trans (State.deviceTrip_lawful _ _)).trans (State.queueAdvice_lawful _ _ _)

theorem State.judgeStale_lawful (s : State) (k : TankId) : Lawful s (s.judgeStale k) := s.modTankNoticed_lawful k _

theorem State.enterFull_lawful (s : State) (k : TankId) (l : LineId) : Lawful s (s.enterFull k l) :=
  ((s.shiftTank_lawful k _).trans (State.addHold_lawful _ l _)).trans (State.queueAdvice_lawful _ k _)

theorem State.enterTopping_lawful (s : State) (k : TankId) (l : LineId) : Lawful s (s.enterTopping k l) :=
  ((s.moveTank_lawful k _).soft l (State.reportTopping_soft _ l true)).trans (State.queueAdvice_lawful _ k _)

theorem State.actOn_lawful (s : State) (k : TankId) (l : LineId) (r : Tank) (e : Results) : Lawful s (s.actOn k l r e) := by
  unfold State.actOn
  split
  · exact Lawful.refl.trip l _
  · split
    · exact s.enterFull_lawful k l
    · split
      · split
        · exact s.enterTopping_lawful k l
        · exact .refl
      · exact .refl

theorem State.evaluate_lawful (s : State) (k : TankId) : Lawful s (s.evaluate k) := by
  unfold State.evaluate
  split
  · exact .refl
  · next r _ =>
    split
    · next l v _ _ =>
      split
      · have h := ((s.judgeStale_lawful k).trans (State.modTank_lawful _ k fun x =>
          { x with results := some (s.evaluation l r v) })).trans (State.actOn_lawful _ k l r (s.evaluation l r v))
        simp only []
        split
        · exact h.trans (State.addHold_lawful _ l _)
        · exact h
      · exact .refl
    · exact .refl

theorem State.estimate_lawful (s : State) (k : TankId) : Lawful s (s.estimate k) := by
  unfold State.estimate
  split
  · exact .refl
  · split <;> exact s.modTank_lawful k _

theorem State.reportTransition_lawful (s : State) (k : TankId) (v : ValveWord) : Lawful s (s.reportTransition k v) := by
  unfold State.reportTransition
  split
  · exact .refl
  · split
    · split
      · exact s.startFilling_lawful k
      · exact .refl
    · simp only []
      have h := s.clearRing_lawful k
      split
      all_goals first
        | exact h.trans (State.shiftTank_lawful _ k _)
        | exact h.trans (State.listTank_lawful _ k _)
        | exact h

theorem State.afterReport_lawful (s : State) (p : LevelReport) (line : Option LineId) (n : Nat) :
    Lawful s (s.afterReport p line n) := by
  have rest : ∀ s₂, Lawful s s₂ → Lawful s (match s₂.tank p.tank with
      | none => s₂
      | some r =>
        if r.overfills then s₂.enterOverfill p.tank
        else (if p.fault then s₂ else s₂.estimate p.tank).evaluate p.tank) := by
    intro s₂ h₂
    split
    · exact h₂
    · split
      · exact h₂.trans (State.enterOverfill_lawful _ _)
      · split
        · exact h₂.trans (State.evaluate_lawful _ _)
        · exact (h₂.trans (State.estimate_lawful _ _)).trans (State.evaluate_lawful _ _)
  have h₁ := s.reportTransition_lawful p.tank p.valve
  cases line with
  | none => exact rest _ h₁
  | some l => exact rest _ (h₁.trans (State.reportOutlets_lawful _ l n))

theorem State.levelReport_lawful (s : State) (p : LevelReport) : Lawful s (s.levelReport p) := by
  unfold State.levelReport
  split
  · exact .refl
  · simp only []
    split
    · exact .refl
    · exact (s.modTankNoticed_lawful _ _ : Lawful s (s.takeReport p _)).trans (State.afterReport_lawful _ _ _ _)

theorem State.finishTank_lawful (s : State) (k : TankId) : Lawful s (s.finishTank k) := by
  unfold State.finishTank
  split
  · exact s.listTank_lawful k _
  · exact s.shiftTank_lawful k _

theorem State.lineFinished_lawful (s : State) (l : LineId) : Lawful s (s.lineFinished l) :=
  Lawful.foldl _ (fun t k _ => t.finishTank_lawful k) s

theorem State.lineDisconnected_lawful (s : State) (l : LineId) : Lawful s (s.lineDisconnected l) :=
  Lawful.foldl _ (fun t k _ => t.listTank_lawful k _) s

theorem State.finishLine_lawful (s : State) (l : LineId) (h : (s.seq l).state ≠ .disconnected)
    (g : (s.seq l).TripsOk → (s.seq l).trips = []) : Lawful s (s.finishLine l) :=
  (s.enterConnected_lawful l h g).trans (State.lineFinished_lawful _ l)

theorem State.lineSampled_lawful (s : State) (l : LineId) : Lawful s (s.lineSampled l) :=
  Lawful.foldl _ (fun t k _ => (t.judgeStale_lawful k).trans (State.evaluate_lawful _ k)) s

theorem State.expireChange_lawful (s : State) (k : TankId) : Lawful s (s.expireChange k) := by
  unfold State.expireChange
  split
  · split
    · exact ((s.modTank_lawful k _).notify _).raise _ _
    · exact .refl
  · exact .refl

theorem State.judgeChange_lawful (s : State) (k : TankId) : Lawful s (s.judgeChange k) := by
  unfold State.judgeChange
  split
  · split
    · exact s.expireChange_lawful k
    · exact .refl
  · exact .refl

/-! ### Sample events -/

theorem Seq.trips_nil {q : Seq} (h : q.TripsOk) (a : q.state ≠ .tripping) (b : q.state ≠ .tripped) : q.trips = [] := by
  by_contra hn
  rcases h hn with e | e
  · exact a e
  · exact b e

theorem State.positionTransition_lawful (s : State) (l : LineId) (pos : Option Nat) :
    Lawful s (s.positionTransition l pos) := by
  unfold State.positionTransition
  split
  · next h =>
    split
    · split
      · exact s.enterDelivering_lawful l h
      · exact .refl
    · exact .refl
  · next h =>
    split
    · exact s.enterHeld_lawful l h
    · exact .refl
  · next h =>
    split
    · exact s.finishLine_lawful l (by simp [h]) fun g => Seq.trips_nil g (by simp [h]) (by simp [h])
    · exact .refl
  · next h =>
    split
    · exact s.enterTripped_lawful l h
    · exact .refl
  all_goals exact .refl

theorem State.trackAndMove_lawful (s : State) (l : LineId) (pos : Option Nat) : Lawful s (s.trackAndMove l pos) := by
  unfold State.trackAndMove
  split
  · simp only []
    have h : Soft l s (s.modDrive l (Drive.trackStep pos)) := Soft.refl.drive _ (Drive.trackStep_enabled _ _)
    split
    · exact h.lawful.trans (State.failTracking_lawful _ l)
    · exact h.lawful.trans (State.positionTransition_lawful _ l pos)
  · exact .refl

theorem State.driveStage_lawful (s : State) (l : LineId) (pos : Option Nat) : Lawful s (s.driveStage l pos) := by
  have h : ∀ t, Lawful s t → Lawful s ((t.trackAndMove l pos).modDrive l (Drive.keepPos pos)) := fun t ht =>
    (ht.trans (t.trackAndMove_lawful l pos)).soft l (Soft.refl.drive _ (Drive.keepPos_enabled _ _))
  unfold State.driveStage
  simp only []
  split
  · exact h _ (s.rateLoopStep_soft l).lawful
  · next e => exact h _ (s.strokeStep_lawful l pos e)
  iterate 4
    exact h _ ((Soft.refl.drive _ (Drive.rampStep_enabled _)).trans (State.formTarget_soft _ l)).lawful
  all_goals exact h _ .refl

theorem State.handStage_lawful (s : State) (l : LineId) : Lawful s (s.handStage l) := by
  unfold State.handStage
  simp only []
  exact (Soft.refl.meas _ ⟨rfl, Nat.le_refl _⟩ : Soft l s _).lawful.trans (State.lineSampled_lawful _ l)

theorem State.judgeSensorFault_lawful (s : State) (l : LineId) : Lawful s (s.judgeSensorFault l) := by
  unfold State.judgeSensorFault
  split
  · exact Lawful.refl.trip l _
  · exact .refl

theorem State.judgeOverpressure_lawful (s : State) (l : LineId) : Lawful s (s.judgeOverpressure l) := by
  unfold State.judgeOverpressure
  split
  · exact Lawful.refl.trip l _
  · exact .refl

theorem State.judgeStretchTrip_lawful (s : State) (l : LineId) : Lawful s (s.judgeStretchTrip l) := by
  unfold State.judgeStretchTrip
  split
  · exact (Lawful.refl.trip l _).trans (State.deviceTrip_lawful _ _)
  · exact .refl

theorem State.warnStretch_lawful (s : State) (l : LineId) (v w : Nat) : Lawful s (s.warnStretch l v w) := by
  unfold State.warnStretch
  split
  · exact (Lawful.refl.raise _ _).trans (State.addHold_lawful _ l _)
  · exact .refl

theorem State.judgeStretchClear_lawful (s : State) (l : LineId) : Lawful s (s.judgeStretchClear l) := by
  unfold State.judgeStretchClear
  simp only []
  split
  · exact ((Lawful.refl.soft l (Soft.refl.meas _ ⟨rfl, Nat.le_refl _⟩)).trans (State.dropHold_lawful _ l _)).gone _ _
  · exact .refl

theorem State.stretchStage_lawful (s : State) (l : LineId) (x : Option Nat) (lim : Limits) :
    Lawful s (s.stretchStage l x lim) := by
  unfold State.stretchStage
  simp only []
  split
  · next v =>
    have h : Soft l s (s.modMeas l (Meas.takeStretch v lim)) := Soft.refl.meas _ (Meas.takeStretch_move _ _ _)
    exact ((h.lawful.trans (State.warnStretch_lawful _ l _ _)).trans (State.judgeStretchClear_lawful _ l)).trans
      (State.judgeStretchTrip_lawful _ l)
  · exact (s.judgeStretchClear_lawful l).trans (State.judgeStretchTrip_lawful _ l)

theorem State.measureStage_lawful (s : State) (l : LineId) (x : Sample) : Lawful s (s.measureStage l x) := by
  unfold State.measureStage
  simp only []
  have h : Soft l s (s.modMeas l fun m =>
      (m.takeSample x ((s.limits l).map (·.f)) (decide ((s.seq l).state ≠ .disconnected))).takeUp
        s.settings.steadyn (s.drive l).allowance) :=
    Soft.refl.meas _ (Meas.takeUp_move _ _ _ _ _ _)
  split
  · next lim _ _ =>
    have h₂ := ((h.lawful.trans (State.judgeSensorFault_lawful _ l)).soft l
      (Soft.refl.meas (Meas.takePressure x.pressure lim.pRated) (Meas.takePressure_move _ _ _))).trans
      (State.judgeOverpressure_lawful _ l)
    exact (h₂.trans (State.stretchStage_lawful _ l _ _)).soft l (State.steadyStage_soft _ l)
  · exact h.lawful.trans (State.judgeSensorFault_lawful _ l)
  · exact (h.meas _ ⟨rfl, Nat.le_refl _⟩).lawful

theorem State.sampleEvent_lawful (s : State) (l : LineId) (x : Sample) : Lawful s (s.sampleEvent l x) :=
  (((s.measureStage_lawful l x).soft l (State.closureStage_soft _ l)).trans (State.driveStage_lawful _ l _)).trans
    (State.handStage_lawful _ l)

end Sys2Proof.Machine
end

