-- ==== Sys2Proof/Laws/LinkLaws.lean ====
section
/-! SUPPORT. Every operation of the directory and of the ship link is a chain of lawful writes. -/

namespace Sys2Proof.Machine

/-! ### The directory -/

theorem State.acceptEntry_lawful (s : State) (k : TankId) (e : DirEntry) : Lawful s (s.acceptEntry k e) := by
  unfold State.acceptEntry
  split
  · exact ((Lawful.refl.tank k _).notify _).trans (State.joinPoll_lawful _ k)
  · split
    · split
      · exact s.modTankNoticed_lawful k _
      · exact (s.modTankNoticed_lawful k _).notify _
    · split
      · exact s.modTankNoticed_lawful k _
      · exact s.modTankNoticed_lawful k _

theorem State.rejectEntry_lawful (s : State) (o : Option TankId) : Lawful s (s.rejectEntry o) := by
  cases o with
  | some k => exact (s.modTankNoticed_lawful k _).notify _
  | none => exact (Lawful.refl.link (fun k => { k with rejected := k.rejected + 1 }) fun h => h).notify _

theorem State.applyEntries_lawful (s : State) (seen : List Nat) (es : List DirEntry) :
    Lawful s (s.applyEntries seen es) := by
  induction es generalizing s seen with
  | nil => exact .refl
  | cons e es ih =>
    unfold State.applyEntries
    simp only []
    refine Lawful.trans ?_ (ih _ _)
    split
    · split
      · exact s.acceptEntry_lawful _ e
      · exact s.rejectEntry_lawful _
    · exact s.rejectEntry_lawful _

theorem State.dropUnnamed_lawful (s : State) (named : List Nat) (k : TankId) : Lawful s (s.dropUnnamed named k) := by
  unfold State.dropUnnamed
  split
  · exact .refl
  · split
    · exact .refl
    · split
      · exact (s.modTankNoticed_lawful k _).notify _
      · exact s.removeTank_lawful k

theorem State.applyDirectory_lawful (s : State) (es : List DirEntry) : Lawful s (s.applyDirectory es) :=
  ((Lawful.refl.link (fun k => { k with rejected := 0 }) fun h => h).trans (State.applyEntries_lawful _ [] es)).trans
    (Lawful.foldl _ (fun t k _ => t.dropUnnamed_lawful _ k) _)

/-! ### The choice of the next exchange -/

theorem State.sendQuery_lawful (s : State) (q : Query) (b : Bool) : Lawful s (s.sendQuery q b) :=
  Lawful.refl.link _ fun h => h

theorem mem_insertBehind {p : TankId → Bool} {t x : TankId} {xs : List TankId} :
    x ∈ insertBehind p t xs ↔ x = t ∨ x ∈ xs := by
  induction xs with
  | nil => simp [insertBehind]
  | cons y ys ih =>
    unfold insertBehind
    split
    · simp only [List.mem_cons]; tauto
    · simp only [List.mem_cons, ih]; tauto

theorem nodup_insertBehind {p : TankId → Bool} {t : TankId} {xs : List TankId} (h : xs.Nodup) (ht : t ∉ xs) :
    (insertBehind p t xs).Nodup := by
  induction xs with
  | nil => simp [insertBehind]
  | cons y ys ih =>
    rw [List.nodup_cons] at h
    simp only [List.mem_cons, not_or] at ht
    unfold insertBehind
    split
    · rw [List.nodup_cons, List.nodup_cons]
      refine ⟨?_, ht.2, h.2⟩
      rw [List.mem_cons, not_or]
      exact ⟨Ne.symm ht.1, h.1⟩
    · rw [List.nodup_cons, mem_insertBehind, not_or]
      exact ⟨⟨Ne.symm ht.1, h.1⟩, ih h.2 ht.2⟩

theorem setErase_not_mem {α : Type} [DecidableEq α] (c : α) (xs : List α) : c ∉ setErase c xs := fun h =>
  (mem_setErase.mp h).2 rfl

theorem State.pollTank_lawful (s : State) (k : TankId) : Lawful s (s.pollTank k) := by
  unfold State.pollTank
  simp only []
  refine (Lawful.refl.link _ fun ⟨b1, b2, b3, b4, b5, b6, b7, b8, b9⟩ => ?_).trans (State.sendQuery_lawful _ _ _)
  have n : (setErase k s.link.poll).Nodup := b9.filter _
  have tail : (setErase k s.link.poll ++ [k]).Nodup := by
    rw [List.nodup_append]
    refine ⟨n, by simp, fun x hx y hy e => setErase_not_mem k s.link.poll ?_⟩
    rwa [e, List.mem_singleton.mp hy] at hx
  split
  · refine ⟨b1, b2, b3, b4, ?_, b6, b7, b8, ?_⟩
    · simp only []; omega
    · simp only []
      split
      · exact nodup_insertBehind n (setErase_not_mem k _)
      · exact tail
  · exact ⟨b1, b2, b3, b4, Nat.zero_le _, b6, b7, b8, tail⟩

theorem State.choosePoll_lawful (s : State) : Lawful s s.choosePoll := by
  unfold State.choosePoll
  split
  · split
    · exact s.sendQuery_lawful _ _
    · exact s.pollTank_lawful _
  · exact s.sendQuery_lawful _ _
  · exact s.pollTank_lawful _
  · exact s.sendQuery_lawful _ _

theorem State.chooseLinked_lawful (s : State) : Lawful s s.chooseLinked := by
  unfold State.chooseLinked
  split
  · next h =>
    refine (Lawful.refl.link _ fun ⟨b1, b2, b3, b4, b5, b6, b7, b8, b9⟩ => ?_).trans (State.sendQuery_lawful _ _ _)
    rw [h] at b6 b7
    exact ⟨b1, b2, b3, b4, b5, Nat.le_of_succ_le b6, (List.nodup_cons.mp b7).2, b8, b9⟩
  · next h =>
    refine (Lawful.refl.link _ fun ⟨b1, b2, b3, b4, b5, b6, b7, b8, b9⟩ => ?_).trans (State.sendQuery_lawful _ _ _)
    rw [h] at b8
    exact ⟨b1, b2, b3, b4, b5, b6, b7, (List.nodup_cons.mp b8).2, b9⟩
  · exact s.choosePoll_lawful

theorem State.chooseNext_lawful (s : State) : Lawful s s.chooseNext := by
  unfold State.chooseNext
  split
  · exact .refl
  · exact .refl
  · split
    · exact s.sendQuery_lawful _ _
    · exact .refl
  all_goals
    split
    · exact s.chooseLinked_lawful
    · exact .refl

/-! ### Link states -/

theorem State.eachLine_lawful (s : State) (f : State → LineId → State) (hf : ∀ t l, Lawful t (f t l)) :
    Lawful s (s.eachLine f) := Lawful.foldl _ (fun t l _ => hf t l) s

theorem State.dropQueries_lawful (s : State) : Lawful s s.dropQueries :=
  (Lawful.refl.link (fun k => { k with queries := [] }) fun ⟨b1, b2, b3, b4, b5, b6, b7, _, b9⟩ =>
    ⟨b1, b2, b3, b4, b5, b6, b7, List.nodup_nil, b9⟩).trans (Lawful.foldl _ (fun t l _ => t.setOutcome_lawful l _) _)

theorem State.enterLost_lawful (s : State) : Lawful s s.enterLost := by
  have h := ((s.modLinkNoticed_lawful (fun k => { k with state := .lost, succRun := 0 })
    fun _ ⟨b1, b2, _, b4, b5, b6, b7, b8, b9⟩ => ⟨b1, b2, Nat.zero_le _, b4, b5, b6, b7, b8, b9⟩).raise .linkLost
    .link).trans (State.dropQueries_lawful _)
  unfold State.enterLost
  simp only []
  split
  · exact h.trans (State.eachLine_lawful _ _ fun t l => (t.addHold_lawful l _).trans (State.clearPermit_lawful _ l))
  · exact h

theorem State.linkBack_lawful (s : State) : Lawful s s.linkBack :=
  (Lawful.refl.gone _ _).trans (State.eachLine_lawful _ _ fun t l => t.dropHold_lawful l _)

theorem State.recoverLink_lawful (s : State) : Lawful s s.recoverLink :=
  (s.modLinkNoticed_lawful (fun k => { k with state := .good, window := [], failRun := 0 })
    fun _ ⟨_, _, b3, b4, b5, b6, b7, b8, b9⟩ => ⟨Nat.zero_le _, Nat.zero_le _, b3, b4, b5, b6, b7, b8, b9⟩).trans
    (State.linkBack_lawful _)

theorem State.judgeLost_lawful (s : State) : Lawful s s.judgeLost := by
  unfold State.judgeLost
  split
  · exact s.enterLost_lawful
  · exact .refl

theorem State.judgeRecovered_lawful (s : State) : Lawful s s.judgeRecovered := by
  unfold State.judgeRecovered
  split
  · exact s.recoverLink_lawful
  · exact .refl

theorem State.judgeQuality_lawful (s : State) : Lawful s s.judgeQuality := by
  unfold State.judgeQuality
  split
  · split
    · exact s.judgeLost_lawful
    · split
      · exact s.modLinkNoticed_lawful _ fun _ h => h
      · exact .refl
  · split
    · exact s.judgeLost_lawful
    · split
      · exact s.modLinkNoticed_lawful _ fun _ h => h
      · exact .refl
  · exact s.judgeRecovered_lawful
  · exact .refl
  · exact .refl

theorem Link.count_bounded (b : Bool) (n : Nat) (k : Link) (h : k.Bounded) : (k.count b n).Bounded := by
  obtain ⟨b1, b2, b3, b4, b5, b6, b7, b8, b9⟩ := h
  refine ⟨?_, ?_, ?_, b4, b5, b6, b7, b8, b9⟩
  · simp only [Link.count, List.length_drop, List.length_append, List.length_cons, List.length_nil]; omega
  · simp only [Link.count]; split <;> omega
  · simp only [Link.count]; split <;> [omega; (split <;> omega)]

theorem State.countOutcome_lawful (s : State) (b : Bool) : Lawful s (s.countOutcome b) := by
  unfold State.countOutcome
  split
  · exact (Lawful.refl.link _ (Link.count_bounded b _ _)).trans (State.judgeQuality_lawful _)
  · exact .refl

theorem Link.space_bounded (b : Bool) (k : Link) (h : k.Bounded) : (k.space b).Bounded := by
  obtain ⟨b1, b2, b3, b4, b5, b6, b7, b8, b9⟩ := h
  refine ⟨b1, b2, b3, ?_, b5, b6, b7, b8, b9⟩
  simp only [Link.space]; split <;> omega

theorem State.closeExchange_lawful (s : State) (r b : Bool) : Lawful s (s.closeExchange r b) := by
  unfold State.closeExchange
  exact (Lawful.refl.link (fun k => { k.space r with exchange := none }) (Link.space_bounded r _)).trans
    (State.countOutcome_lawful _ b)

theorem State.takeStop_lawful (s : State) (b : Bool) : Lawful s (s.takeStop b) := by
  unfold State.takeStop
  refine (s.modLinkNoticed_lawful (fun k => { k with stop := some b }) fun _ h => h).trans
    (State.eachLine_lawful _ _ fun t l => ?_)
  split
  · exact (t.addHold_lawful l _).trans (State.clearPermit_lawful _ l)
  · exact t.dropHold_lawful l _

/-! ### Acquisition and refresh -/

theorem State.setAcqResult_lawful (s : State) (r : AcqResult) : Lawful s (s.setAcqResult r) :=
  ((Lawful.refl.link (fun k => { k with lastAcq := some r }) fun h => h).notify .link).result _

theorem State.acquired_lawful (s : State) (h : Header) (es : List DirEntry) : Lawful s (s.acquired h es) := by
  unfold State.acquired
  simp only []
  refine Lawful.trans ?_ (State.linkBack_lawful _)
  refine Lawful.trans ?_ (State.modLinkNoticed_lawful _ _ fun _ ⟨_, _, _, b4, b5, b6, b7, b8, b9⟩ =>
    ⟨Nat.zero_le _, Nat.zero_le _, Nat.zero_le _, b4, b5, b6, b7, b8, b9⟩)
  refine Lawful.trans ?_ (State.applyDirectory_lawful _ es)
  refine Lawful.trans ?_ (State.setAcqResult_lawful _ _)
  exact Lawful.trans (Lawful.refl.notify .doneLinkstart) (State.modLinkNoticed_lawful _ _
    fun _ ⟨b1, b2, b3, b4, b5, b6, b7, b8, b9⟩ => ⟨b1, b2, b3, b4, b5, b6, b7, b8, b9⟩)

theorem State.acquisitionFails_lawful (s : State) (a : AcqTelegram) : Lawful s (s.acquisitionFails a) :=
  ((Lawful.refl.notify _).trans (State.modLinkNoticed_lawful _ (fun k => { k with state := .down, acq := none })
    fun _ h => h)).trans (State.setAcqResult_lawful _ _)

theorem State.acquisitionMiss_lawful (s : State) (a : AcqTelegram) : Lawful s (s.acquisitionMiss a) := by
  unfold State.acquisitionMiss
  split
  · split
    · exact s.acquisitionFails_lawful a
    · exact Lawful.refl.link _ fun h => h
  · exact .refl

theorem State.refreshed_lawful (s : State) (h : Header) (es : List DirEntry) : Lawful s (s.refreshed h es) :=
  (s.modLinkNoticed_lawful (fun k => { k with rev := some h.revision, refresh := none }) fun _ h => h).trans
    (State.applyDirectory_lawful _ es)

theorem State.compareRevision_lawful (s : State) (n : Nat) : Lawful s (s.compareRevision n) := by
  unfold State.compareRevision
  split
  · exact .refl
  · split
    · exact Lawful.refl.link _ fun h => h
    · split
      · exact Lawful.refl.link _ fun h => h
      · exact .refl

theorem State.takeHeader_lawful (s : State) (b : Bool) (h : Header) : Lawful s (s.takeHeader b h) := by
  unfold State.takeHeader
  refine Lawful.refl.link _ fun k => ?_
  split
  · exact k
  · exact k

theorem State.takeEntry_lawful (s : State) (b : Bool) (e : DirEntry) : Lawful s (s.takeEntry b e) := by
  unfold State.takeEntry
  split
  · split
    · split
      · exact s.refreshed_lawful _ _
      · exact Lawful.refl.link _ fun h => h
    · exact .refl
  · split
    · split
      · exact s.acquired_lawful _ _
      · exact Lawful.refl.link _ fun h => h
    · exact .refl

theorem State.takePermit_lawful (s : State) (l : LineId) (g b : Bool) : Lawful s (s.takePermit l g b) := by
  unfold State.takePermit
  split
  · next h =>
    split
    · split
      · exact (s.clearPermit_lawful l).trans (State.setOutcome_lawful _ l _)
      · refine (Lawful.refl.seq l _ ⟨id, id, fun _ _ => ?_, Iff.rfl⟩).trans (State.setOutcome_lawful _ l _)
        revert h
        cases (s.seq l).state <;> simp [LineState.asksPermit, LineState.mayHoldPermit]
    · exact (s.clearPermit_lawful l).trans (State.setOutcome_lawful _ l _)
  · exact s.setOutcome_lawful l _

theorem State.takeBody_lawful (s : State) (x : Exchange) (stop : Bool) (b : ReplyBody) : Lawful s (s.takeBody x stop b) := by
  unfold State.takeBody
  split
  · exact s.takeHeader_lawful _ _
  · exact s.takeEntry_lawful _ _
  · exact (s.levelReport_lawful _).trans (State.compareRevision_lawful _ _)
  · exact s.takePermit_lawful _ _ _
  · exact .refl

/-! ### The end of an exchange -/

theorem State.endGood_lawful (s : State) (x : Exchange) (stop : Bool) (b : ReplyBody) : Lawful s (s.endGood x stop b) :=
  (((s.closeExchange_lawful _ _).trans (State.takeStop_lawful _ _)).trans (State.takeBody_lawful _ x stop b)).trans
    (State.chooseNext_lawful _)

theorem State.takeFailure_lawful (s : State) (x : Exchange) : Lawful s (s.takeFailure x) := by
  unfold State.takeFailure
  split
  · exact s.setOutcome_lawful _ _
  · split
    · exact Lawful.refl.link _ fun h => h
    · exact s.acquisitionMiss_lawful _
  · split
    · exact Lawful.refl.link _ fun h => h
    · exact s.acquisitionMiss_lawful _
  all_goals exact .refl

theorem State.endFailed_lawful (s : State) (x : Exchange) : Lawful s (s.endFailed x) :=
  ((s.closeExchange_lawful _ _).trans (State.takeFailure_lawful _ x)).trans (State.chooseNext_lawful _)

theorem State.takeReply_lawful (s : State) (k : Query → Bool) (more : Bool) (t : List Byte) :
    Lawful s (s.takeReply k more t) := by
  unfold State.takeReply
  split
  · split
    · split
      · split
        · split
          · split
            · exact Lawful.refl.link _ fun h => h
            · exact .refl
          · exact s.endGood_lawful _ _ _
        · exact .refl
      · exact .refl
    · exact .refl
  · exact .refl

theorem State.takeContinuation_lawful (s : State) (t : List Byte) : Lawful s (s.takeContinuation t) := by
  unfold State.takeContinuation
  split
  · split
    · split
      · exact s.endGood_lawful _ _ _
      · exact .refl
    · exact .refl
  · exact .refl

theorem State.continuationLate_lawful (s : State) : Lawful s s.continuationLate := by
  unfold State.continuationLate
  split
  · split
    · exact s.endFailed_lawful _
    · exact .refl
  · exact .refl

theorem State.windowOut_lawful (s : State) : Lawful s s.windowOut := by
  unfold State.windowOut
  split
  · split
    · exact .refl
    · exact s.endFailed_lawful _
  · exact .refl

theorem State.beginAcquisition_lawful (s : State) : Lawful s s.beginAcquisition :=
  ((s.modLinkNoticed_lawful (fun k =>
    { k with
      state := .acquiring, window := [], failRun := 0, succRun := 0, refresh := none
      acq := some { header := none, next := 0, attempts := 0, entries := [] } })
    fun _ ⟨_, _, _, b4, b5, b6, b7, b8, b9⟩ =>
      ⟨Nat.zero_le _, Nat.zero_le _, Nat.zero_le _, b4, b5, b6, b7, b8, b9⟩).trans
    (State.dropQueries_lawful _)).trans (State.chooseNext_lawful _)

theorem State.toManual_lawful (s : State) : Lawful s s.toManual :=
  ((s.modLinkNoticed_lawful (fun k => { k with gauging := .manual, advices := [], refresh := none })
    fun _ ⟨b1, b2, b3, b4, b5, _, _, b8, b9⟩ =>
      ⟨b1, b2, b3, b4, b5, Nat.zero_le _, List.nodup_nil, b8, b9⟩).trans (State.dropQueries_lawful _)).trans
    (State.eachLine_lawful _ _ fun t l => (t.dropHold_lawful l _).soft l (State.formTarget_soft _ l))

theorem State.toLinked_lawful (s : State) : Lawful s s.toLinked :=
  ((s.modLinkNoticed_lawful (fun k => { k with gauging := .linked }) fun _ h => h).trans
    (State.eachLine_lawful _ _ fun t l => (t.formTarget_soft l).lawful)).trans
    (State.chooseNext_lawful _)

theorem State.queuePermit_lawful (s : State) (l : LineId) : Lawful s (s.queuePermit l) := by
  unfold State.queuePermit
  split
  · exact s.setOutcome_lawful l _
  · next h =>
    refine (Lawful.refl.link _ fun ⟨b1, b2, b3, b4, b5, b6, b7, b8, b9⟩ => ⟨b1, b2, b3, b4, b5, b6, b7, ?_, b9⟩).trans
      (State.setOutcome_lawful _ l _)
    simp only []
    rw [List.nodup_append]
    exact ⟨b8, by simp, fun x hx y hy e => h (List.mem_singleton.mp hy ▸ e ▸ hx)⟩

end Sys2Proof.Machine
end

