-- ==== Sys2Proof/Laws/Acts.lean ====
section
/-! SUPPORT. What one command can do to the state, said once (`Acts`, `exec_acts`), and the invariants that follow. -/

namespace Sys2Proof.Machine

/-- The ranges of R172 on a group of settings. -/
def Settings.InRange (x : Settings) : Prop := SettingsInRange { State.reset with settings := x }

/-- `t` comes from `s` by what commands do: writes of the blocks, a connection, an acknowledgement, the clock, the phase, the
key, settings, the store, the console port, the mask, a loop reading, a notice sent, a reset. -/
inductive Acts (s : State) : State → Prop
  | refl : Acts s s
  | writes {t u : State} : Acts s t → Free .all t u → Lawful t u → Acts s u
  | connect {t : State} (l : LineId) (g : Nat) : (t.seq l).state = .disconnected → Acts s t → Acts s (t.connectLine l g)
  | acked {t : State} (f : Alarm → Bool) : (∀ a, f { a with acked := true } = f a) → Acts s t → Acts s (t.setAlarms (ackedSet f t.alarms))
  | clock {t : State} (n : Nat) : Acts s t → Acts s { t with clock := n }
  | phase {t : State} (p : Phase) : Acts s t → Acts s { t with phase := p }
  | key {t : State} (b : Bool) : Acts s t → Acts s { t with key := b }
  | settings {t : State} (x : Settings) : (t.settings.InRange → x.InRange) → Acts s t → Acts s { t with settings := x }
  | store {t : State} (x : Store) : Acts s t → Acts s { t with store := x }
  | port {t : State} (p : Port) : p.mask = t.port.mask → Acts s t → Acts s { t with port := p }
  | mask {t : State} (m : List NoticeKind) : Acts s t → Acts s (t.setMask m)
  | loop {t : State} (x : Contact) : Acts s t →
      Acts s (({ t with esd := { t.esd with loop := x } }).notify .trip).judgePumps
  | far {t : State} (x : Contact) : Acts s t → Acts s { t with esd := { t.esd with far := x } }
  | sent {t : State} (ns : List Notice) : ns.Sublist t.notices → Acts s t → Acts s { t with notices := ns }
  | result {t : State} (b : Bool) : Acts s t → Acts s { t with linkResult := b }
  | meas {t : State} (l : LineId) (f : Meas → Meas) : Acts s t → Acts s (t.modMeas l f)
  | reset {t : State} (u : State) : u.pending = t.pending → Acts s t → Acts s u.resetBlocks

theorem Acts.trans {s t u : State} (h : Acts s t) (g : Acts t u) : Acts s u := by
  induction g with
  | refl => exact h
  | writes _ a b ih => exact ih.writes a b
  | connect l g hl _ ih => exact ih.connect l g hl
  | acked f hf _ ih => exact ih.acked f hf
  | clock n _ ih => exact ih.clock n
  | phase p _ ih => exact ih.phase p
  | key b _ ih => exact ih.key b
  | settings x hx _ ih => exact ih.settings x hx
  | store x _ ih => exact ih.store x
  | port p hp _ ih => exact ih.port p hp
  | mask m _ ih => exact ih.mask m
  | loop x _ ih => exact ih.loop x
  | far x _ ih => exact ih.far x
  | sent ns hn _ ih => exact ih.sent ns hn
  | result b _ ih => exact ih.result b
  | meas l f _ ih => exact ih.meas l f
  | reset u hu _ ih => exact ih.reset u hu

theorem Acts.of {s t : State} (f : Free .all s t) (l : Lawful s t) : Acts s t := Acts.refl.writes f l

theorem Soft.acts {l : LineId} {s t : State} (h : Soft l s t) : Acts s t := .of (h.free trivial) h.lawful

theorem Acts.notify {s t : State} (n : Notice) (h : Acts s t) : Acts s (t.notify n) :=
  h.writes (Free.refl.notify n) (Lawful.refl.notify n)

theorem Acts.raise {s t : State} (k : AlarmKind) (o : AlarmObject) (h : Acts s t) : Acts s (t.raiseAlarm k o) :=
  h.writes (Free.refl.raise k o) (Lawful.refl.raise k o)

theorem Acts.gone {s t : State} (k : AlarmKind) (o : AlarmObject) (h : Acts s t) : Acts s (t.alarmGone k o) :=
  h.writes (Free.refl.gone k o) (Lawful.refl.gone k o)

theorem Acts.foldl {α : Type} {f : State → α → State} (xs : List α) (hf : ∀ t, ∀ x ∈ xs, Acts t (f t x)) (s : State) :
    Acts s (xs.foldl f s) := by
  induction xs generalizing s with
  | nil => exact .refl
  | cons x xs ih =>
    exact (hf s x (List.mem_cons_self ..)).trans (ih (fun t y hy => hf t y (List.mem_cons_of_mem _ hy)) (f s x))

/-! ### The invariants -/

theorem Acts.pending {s t : State} (h : Acts s t) : t.pending = s.pending := by
  induction h with
  | refl => rfl
  | writes _ f _ ih => exact f.frame.pending.trans ih
  | connect l g _ _ ih => simpa [State.connectLine] using ih
  | loop x _ ih => simpa [State.judgePumps, State.eachLine, allLines] using ih
  | reset u hu _ ih => exact hu.trans ih
  | _ => assumption

/-- R62: after every line's permit is re-judged it follows its conditions. -/
theorem State.judgePumps_follow (s : State) : PumpsFollow s.judgePumps := by
  have e : s.judgePumps.esd = s.esd := by simp [State.judgePumps, State.eachLine, allLines]
  intro k
  rw [e]
  have hk := line_mem_all k
  simp only [allLines, List.mem_cons, List.not_mem_nil, or_false] at hk
  simp only [State.judgePumps, State.eachLine, allLines, List.foldl, State.modSeq_seq, State.modSeq_esd, id]
  rcases hk with rfl | rfl | rfl | rfl <;> rfl

theorem State.judgePumps_lawful (s : State) : Lawful s s.judgePumps :=
  s.eachLine_lawful _ fun _ l => Lawful.refl.seq l id (SeqMove.refl _)

theorem State.resetBlocks_seq (s : State) (l : LineId) : s.resetBlocks.seq l = Seq.initial := by
  simp [State.seq, State.resetBlocks]

theorem Acts.pumps {s t : State} (h : Acts s t) (i : PumpsFollow s) : PumpsFollow t := by
  induction h with
  | refl => exact i
  | writes _ f _ ih => exact f.pumps ih
  | connect l g hl _ ih =>
    intro k
    simp only [State.connectLine, State.modDrive_seq, State.modMeas_seq, State.modSeq_seq, State.modDrive_esd,
      State.modMeas_esd, State.modSeq_esd]
    split
    · rfl
    · exact ih k
  | loop x _ _ => exact State.judgePumps_follow _
  | reset u _ _ _ => intro k; rw [State.resetBlocks_seq]; cases u.resetBlocks.esd.loop <;> rfl
  | _ => assumption

theorem ackedSet_keys (f : Alarm → Bool) (as : List Alarm) (h : (as.map fun a => (a.kind, a.object)).Nodup) :
    ((ackedSet f as).map fun a => (a.kind, a.object)).Nodup := by
  unfold ackedSet
  refine List.Nodup.sublist (List.Sublist.map _ List.filter_sublist) ?_
  rw [List.map_map]
  convert h using 2
  funext a
  simp only [Function.comp_apply]
  split <;> rfl

theorem ackedSet_live (f : Alarm → Bool) (hf : ∀ a, f { a with acked := true } = f a) (as : List Alarm)
    (h : ∀ a ∈ as, a.acked = true → a.present = true) : ∀ a ∈ ackedSet f as, a.acked = true → a.present = true := by
  intro a ha hacked
  obtain ⟨ha, hp⟩ := List.mem_filter.mp ha
  obtain ⟨b, hb, rfl⟩ := List.mem_map.mp ha
  by_cases hs : f b = true
  · rw [if_pos hs] at hp ⊢
    rw [hf b] at hp
    simpa [hs] using hp
  · rw [if_neg hs] at hacked ⊢
    exact h b hb hacked

theorem Acts.horn {s t : State} (h : Acts s t) (i : HornFollows s) : HornFollows t := by
  induction h with
  | refl => exact i
  | writes _ f _ ih => exact f.horn ih
  | connect l g hl _ ih => simpa [State.connectLine, HornFollows] using ih
  | acked f _ _ _ => exact rfl
  | loop x _ ih => simpa [State.judgePumps, State.eachLine, allLines, HornFollows] using ih
  | reset u _ _ _ => exact rfl
  | _ => assumption

theorem Acts.distinct {s t : State} (h : Acts s t) (i : AlarmsDistinct s) : AlarmsDistinct t := by
  induction h with
  | refl => exact i
  | writes _ f _ ih => exact f.distinct ih
  | connect l g hl _ ih => simpa [State.connectLine, AlarmsDistinct] using ih
  | acked f _ _ ih => exact ackedSet_keys f _ ih
  | loop x _ ih => simpa [State.judgePumps, State.eachLine, allLines, AlarmsDistinct] using ih
  | reset u _ _ _ => exact List.nodup_nil
  | _ => assumption

theorem Acts.live {s t : State} (h : Acts s t) (d : AlarmsDistinct s) (i : AlarmsLive s) : AlarmsLive t := by
  induction h with
  | refl => exact i
  | writes a f _ ih => exact f.live (a.distinct d) ih
  | connect l g hl _ ih => simpa [State.connectLine, AlarmsLive] using ih
  | acked f hf _ ih => exact ackedSet_live f hf _ ih
  | loop x _ ih => simpa [State.judgePumps, State.eachLine, allLines, AlarmsLive] using ih
  | reset u _ _ _ => intro a ha; cases ha
  | _ => assumption

theorem Acts.noticesSound {s t : State} (h : Acts s t) (i : NoticesSound s) : NoticesSound t := by
  induction h with
  | refl => exact i
  | writes _ f _ ih => exact f.noticesSound ih
  | @connect t l g hl _ ih =>
    have o : Own l t (t.modSeq l fun q => { q with state := .connected, grade := some g }) := Own.refl.seq _
    exact (o.noticesSound ih).of_eq (by simp [State.connectLine]) (by simp [State.connectLine])
  | @loop t x _ ih =>
    have h₁ := State.notify_sound { t with esd := { t.esd with loop := x } } .trip (ih.of_eq rfl rfl)
    unfold State.judgePumps State.eachLine
    generalize (({ t with esd := { t.esd with loop := x } } : State).notify .trip) = u at h₁
    induction allLines generalizing u with
    | nil => exact h₁
    | cons l ls ihl => exact ihl _ ((Own.refl.seq _ : Own l u (u.modSeq l id)).noticesSound h₁)
  | port p hp _ ih => exact ⟨ih.1, fun n hn => hp ▸ ih.2 n hn⟩
  | mask m _ ih =>
    refine ⟨ih.1.filter _, fun n hn => ?_⟩
    exact (List.mem_filter.mp hn).2
  | sent ns hn _ ih => exact ⟨ih.1.sublist hn, fun n h => ih.2 n (hn.subset h)⟩
  | reset u _ _ _ => exact ⟨List.nodup_nil, fun n hn => by cases hn⟩
  | _ => assumption

theorem Acts.holds {s t : State} (h : Acts s t) (i : HoldsPlaced s) : HoldsPlaced t := by
  induction h with
  | refl => exact i
  | writes _ _ f ih => exact f.holds ih
  | connect l g hl _ ih =>
    intro k
    simp only [State.connectLine, State.modDrive_seq, State.modMeas_seq, State.modSeq_seq]
    split
    · intro hn
      have := ih l hn
      simp [hl] at this
    · exact ih k
  | loop x _ ih =>
    refine (State.judgePumps_lawful _).holds ?_
    intro k
    rw [State.notify_seq]
    exact ih k
  | reset u _ _ _ => intro k; rw [State.resetBlocks_seq]; exact fun hn => absurd rfl hn
  | _ => assumption

theorem Acts.trips {s t : State} (h : Acts s t) (i : TripsPlaced s) : TripsPlaced t := by
  induction h with
  | refl => exact i
  | writes _ _ f ih => exact f.trips ih
  | connect l g hl _ ih =>
    intro k
    simp only [State.connectLine, State.modDrive_seq, State.modMeas_seq, State.modSeq_seq]
    split
    · intro hn
      have := ih l hn
      simp [hl] at this
    · exact ih k
  | loop x _ ih =>
    refine (State.judgePumps_lawful _).trips ?_
    intro k
    rw [State.notify_seq]
    exact ih k
  | reset u _ _ _ => intro k; rw [State.resetBlocks_seq]; exact fun hn => absurd rfl hn
  | _ => assumption

theorem Acts.permits {s t : State} (h : Acts s t) (i : PermitsPlaced s) : PermitsPlaced t := by
  induction h with
  | refl => exact i
  | writes _ _ f ih => exact f.permits ih
  | connect l g hl _ ih =>
    intro k
    simp only [State.connectLine, State.modDrive_seq, State.modMeas_seq, State.modSeq_seq]
    split
    · exact fun _ => rfl
    · exact ih k
  | loop x _ ih =>
    refine (State.judgePumps_lawful _).permits ?_
    intro k
    rw [State.notify_seq]
    exact ih k
  | reset u _ _ _ => intro k; rw [State.resetBlocks_seq]; intro hn; cases hn
  | _ => assumption

theorem Acts.enabled {s t : State} (h : Acts s t) (i : DrivesEnabled s) : DrivesEnabled t := by
  induction h with
  | refl => exact i
  | writes _ _ f ih => exact f.enabled ih
  | connect l g hl _ ih =>
    intro k
    simp only [State.connectLine, State.modDrive_seq, State.modMeas_seq, State.modSeq_seq, State.modDrive_drive,
      State.modMeas_drive, State.modSeq_drive]
    split
    · rfl
    · exact ih k
  | loop x _ ih =>
    refine (State.judgePumps_lawful _).enabled ?_
    intro k
    rw [State.notify_seq, State.notify_drive]
    exact ih k
  | reset u _ _ _ => intro k; rw [State.resetBlocks_seq]; simp [State.drive, State.resetBlocks, Drive.initial, Seq.initial]
  | _ => assumption

theorem Acts.lineups {s t : State} (h : Acts s t) (i : LineupsBounded s) : LineupsBounded t := by
  induction h with
  | refl => exact i
  | writes _ _ f ih => exact f.lineups ih
  | connect l g hl _ ih => intro k; simpa [State.connectLine] using ih k
  | loop x _ ih =>
    refine (State.judgePumps_lawful _).lineups ?_
    intro k
    rw [State.notify_lineup]
    exact ih k
  | reset u _ _ _ => intro k; simp [State.lineup, State.resetBlocks]
  | _ => assumption

theorem Acts.link_bounded {s t : State} (h : Acts s t) (i : LinkBounded s) : LinkBounded t := by
  induction h with
  | refl => exact i
  | writes _ _ f ih => exact f.link_bounded ih
  | connect l g hl _ ih => unfold LinkBounded; simpa [State.connectLine] using ih
  | loop x _ ih => unfold LinkBounded; simpa [State.judgePumps, State.eachLine, allLines] using ih
  | reset u _ _ _ => simp [LinkBounded, State.resetBlocks, Link.initial]
  | _ => assumption

theorem Acts.settings_in_range {s t : State} (h : Acts s t) (i : SettingsInRange s) : SettingsInRange t := by
  induction h with
  | refl => exact i
  | writes _ f _ ih => unfold SettingsInRange; rw [f.frame.settings]; exact ih
  | connect l g hl _ ih => unfold SettingsInRange; simpa [State.connectLine] using ih
  | loop x _ ih => unfold SettingsInRange; simpa [State.judgePumps, State.eachLine, allLines] using ih
  | settings x hx _ ih => exact hx ih
  | reset u _ _ _ => simp [SettingsInRange, State.resetBlocks, Settings.initial]
  | _ => assumption

end Sys2Proof.Machine
end

