-- ==== Sys2Proof/Laws/Exec.lean ====
section
/-! SUPPORT. Every command does what `Acts` allows: `exec_acts`, and with it one step. -/

namespace Sys2Proof.Machine

/-! ### Replies -/

theorem State.answer_acts (s : State) (fs : List String) : Acts s (s.answer fs) := Acts.refl.port _ rfl

theorem State.take_acts (s : State) (h r : List String) : Acts s (s.take h r) := s.answer_acts _

theorem State.refuse_acts (s : State) (h r : List String) : Acts s (s.refuse h r) := s.answer_acts _

theorem Acts.take {s t : State} (h : Acts s t) (a b : List String) : Acts s (t.take a b) := h.trans (t.take_acts a b)

theorem State.afterStartup_acts (s : State) (name : List String) (body : State → State) (h : Acts s (body s)) :
    Acts s (s.afterStartup name body) := by
  unfold State.afterStartup
  split
  · exact s.refuse_acts _ _
  · exact h

theorem State.onLine_acts (s : State) (name : List String) (n : Nat) (body : State → LineId → State)
    (h : ∀ l, Acts s (body s l)) : Acts s (s.onLine name n body) := by
  unfold State.onLine
  split
  · exact h _
  · exact s.refuse_acts _ _

theorem State.onTank_acts (s : State) (name : List String) (n : Nat) (body : State → TankId → Tank → State)
    (h : ∀ k r, s.tank k = some r → Acts s (body s k r)) : Acts s (s.onTank name n body) := by
  unfold State.onTank
  split
  · split
    · next e => exact h _ _ e
    · exact s.refuse_acts _ _
  · exact s.refuse_acts _ _

theorem State.lineRequest_acts (s : State) (kw : String) (n : Nat) (body : State → LineId → List String → State)
    (h : ∀ l hd, Acts s (body s l hd)) : Acts s (s.lineRequest kw n body) :=
  s.afterStartup_acts _ _ (s.onLine_acts _ n _ fun l => h l _)

theorem Own.acts_of {l : LineId} {s t : State} (h : Own l s t) (g : Lawful s t) : Acts s t := .of (h.free trivial) g

/-! ### Requests of the lines -/

theorem State.takeConnect_acts (s : State) (n g : Nat) : Acts s (s.takeConnect n g) := by
  refine s.lineRequest_acts _ n _ fun l hd => ?_
  split
  · exact s.refuse_acts _ _
  · next h =>
    split
    · exact s.refuse_acts _ _
    · split
      · exact s.refuse_acts _ _
      · exact (Acts.refl.connect l g (not_not.mp h)).take _ _

/-- The state of every line stands while its tanks are listed. -/
theorem State.dropHold_state (s : State) (l k : LineId) (c : HoldCause) :
    ((s.dropHold l c).seq k).state = (s.seq k).state := by
  unfold State.dropHold
  rw [State.modSeq_seq]
  split
  · next h => subst h; rfl
  · rfl

theorem State.tellDeparture_state (s : State) (l k : LineId) (was : TankState) :
    ((s.tellDeparture l was).seq k).state = (s.seq k).state := by
  cases was
  case topping => rw [show s.tellDeparture l .topping = s.reportTopping l false from rfl, (s.reportTopping_soft l false).seq]
  case full =>
    rw [show s.tellDeparture l .full = s.reportLeftFull l from rfl]
    unfold State.reportLeftFull
    split
    · exact s.dropHold_state l k _
    · rfl
  all_goals rfl

theorem State.moveTank_seq (s : State) (k : TankId) (st : TankState) (l : LineId) : (s.moveTank k st).seq l = s.seq l := by
  unfold State.moveTank
  simp only []
  split <;> simp

theorem State.leaveLineup_seq (s : State) (k : TankId) (l : LineId) : (s.leaveLineup k).seq l = s.seq l := by
  unfold State.leaveLineup
  split <;> simp

theorem State.applyPending_seq (s : State) (k : TankId) (l : LineId) : (s.applyPending k).seq l = s.seq l := by
  unfold State.applyPending
  split <;> simp [State.removeTank, State.forgetTank]

theorem State.listTank_state (s : State) (k : TankId) (b : Bool) (l : LineId) :
    ((s.listTank k b).seq l).state = (s.seq l).state := by
  unfold State.listTank
  split
  · rfl
  · simp only []
    rw [State.applyPending_seq]
    split
    · rw [State.tellDeparture_state, State.modTankNoticed_seq, State.leaveLineup_seq, State.moveTank_seq]
    · rw [State.modTankNoticed_seq, State.leaveLineup_seq, State.moveTank_seq]

theorem State.lineDisconnected_state (s : State) (l k : LineId) :
    ((s.lineDisconnected l).seq k).state = (s.seq k).state := by
  unfold State.lineDisconnected
  generalize s.lineup l = ts
  induction ts generalizing s with
  | nil => rfl
  | cons t ts ih => exact (ih _).trans (s.listTank_state t false k)

theorem State.disconnectLine_acts (s : State) (l : LineId) (h : (s.seq l).state = .connected) :
    Acts s (s.disconnectLine l) := by
  have e : ((s.lineDisconnected l).seq l).state = .connected := (s.lineDisconnected_state l l).trans h
  have m : Soft l _ (((s.lineDisconnected l).modSeq l fun q =>
      { q with state := .disconnected, grade := none, permit := false }).modMeas l Meas.disconnected) :=
    Soft.refl.meas _ ⟨rfl, Nat.le_refl _⟩
  have f := (s.lineDisconnected_free l).own l trivial (((Own.refl.seq _).soft m).drive Drive.turnOff)
  have g := (s.lineDisconnected_lawful l).leave l e
  have r : Soft l _ (State.disconnectLine s l) :=
    (((State.dropTarget_soft _ l).gone .stretchWarn (.line l)).gone .strokeFailed (.line l))
  exact (Acts.of f g).writes (r.free trivial) r.lawful

theorem State.takeDisconnect_acts (s : State) (n : Nat) : Acts s (s.takeDisconnect n) := by
  refine s.lineRequest_acts _ n _ fun l hd => ?_
  split
  · next h => exact (s.disconnectLine_acts l h).take _ _
  · exact s.refuse_acts _ _

theorem State.strokeLine_acts (s : State) (l : LineId) (h : (s.seq l).state = .connected)
    (g : ¬(s.seq l).permit = true) : Acts s (s.strokeLine l) := by
  refine (s.strokeLine_own l).acts_of ?_
  refine (Lawful.refl.seq l (fun q => { q with state := .stroking }) ⟨fun a b => ?_, fun a b => ?_, fun _ b => absurd b g, by simp [h]⟩).soft l
    ((Soft.refl.drive Drive.startStroke rfl).trans (State.dropTarget_soft _ l))
  · simpa [h] using a b
  · simpa [h] using a b

theorem State.takeStroke_acts (s : State) (n : Nat) : Acts s (s.takeStroke n) := by
  refine s.lineRequest_acts _ n _ fun l hd => ?_
  split
  · next h =>
    split
    · exact s.refuse_acts _ _
    · next g => exact (s.strokeLine_acts l h g).take _ _
  all_goals exact s.refuse_acts _ _

theorem State.takeStrokeset_acts (s : State) (n : Nat) (t : Option Nat) : Acts s (s.takeStrokeset n t) := by
  refine s.lineRequest_acts _ n _ fun l hd => ?_
  have h : ∀ x : Option Nat, Soft l s (s.modDrive l fun d => { d with tOvr := x }) := fun x => Soft.refl.drive _ rfl
  split
  · exact (h _).acts.take _ _
  · split
    · exact (h _).acts.take _ _
    · exact s.refuse_acts _ _

theorem State.takePermitQuery_acts (s : State) (n : Nat) : Acts s (s.takePermitQuery n) := by
  refine s.lineRequest_acts _ n _ fun l hd => ?_
  split
  · exact s.refuse_acts _ _
  · split
    · exact s.refuse_acts _ _
    · exact (Acts.of (s.queuePermit_free l trivial) (s.queuePermit_lawful l)).take _ _

theorem State.takePermitConfirm_acts (s : State) (n : Nat) : Acts s (s.takePermitConfirm n) := by
  refine s.lineRequest_acts _ n _ fun l hd => ?_
  split
  · exact s.refuse_acts _ _
  · next h =>
    split
    · exact s.refuse_acts _ _
    · refine Acts.take ((Own.refl.seq _ : Own l s _).acts_of (Lawful.refl.seq l _ ⟨id, id, fun _ _ => ?_, Iff.rfl⟩)) _ _
      revert h
      cases (s.seq l).state <;> simp [LineState.asksPermit, LineState.mayHoldPermit]

theorem State.startLine_acts (s : State) (l : LineId) (n : Nat) (h : (s.seq l).state = .connected) :
    Acts s (s.startLine l n) := by
  have r : Soft l s (s.modRate l fun r => { r with target := n }) := Soft.refl.rate _
  refine (s.startLine_own l n).acts_of (r.lawful.trans (State.enterOpening_lawful _ l (.inl ?_) fun g => ?_))
  · rw [r.seq]; exact h
  · rw [r.seq] at g ⊢
    have : (s.seq l).holds = [] := by
      by_contra hn
      have := g hn
      simp [h] at this
    simp [this, setErase]

theorem State.startRefusal_state (s : State) (l : LineId) (h : s.startRefusal l = none) :
    (s.seq l).state = .connected := by
  by_contra hn
  simp [State.startRefusal, hn] at h

theorem State.takeStart_acts (s : State) (n : Nat) (r : NumField) : Acts s (s.takeStart n r) := by
  refine s.lineRequest_acts _ n _ fun l hd => ?_
  split
  · exact s.refuse_acts _ _
  · split
    · exact s.refuse_acts _ _
    · next h => exact (s.startLine_acts l _ (s.startRefusal_state l h)).take _ _

theorem State.clearRings_acts (s : State) (l : LineId) : Acts s (s.clearRings l) :=
  .of (s.clearRings_free l fun _ _ => trivial) (s.clearRings_lawful l)

theorem State.setRate_acts (s : State) (l : LineId) (n : Nat) : Acts s (s.setRate l n) := by
  have r : Soft l s ((s.modRate l fun r => { r with target := n }).formTarget l) :=
    (Soft.refl.rate _).trans (State.formTarget_soft _ l)
  unfold State.setRate
  simp only []
  split
  · exact r.acts
  · exact r.acts.trans (State.clearRings_acts _ l)

theorem State.storeRate_acts (s : State) (l : LineId) (n : Nat) : Acts s (s.storeRate l n) := by
  have r : Soft l s (s.modRate l fun r => { r with pendingTarget := some n }) := Soft.refl.rate _
  unfold State.storeRate
  simp only []
  split
  · exact r.acts
  · exact r.acts.trans (State.clearRings_acts _ l)

theorem State.takeRate_acts (s : State) (n : Nat) (r : NumField) : Acts s (s.takeRate n r) := by
  refine s.lineRequest_acts _ n _ fun l hd => ?_
  split
  · exact s.refuse_acts _ _
  · simp only []
    split
    iterate 2 exact (s.setRate_acts l _).take _ _
    iterate 2 exact (s.storeRate_acts l _).take _ _
    all_goals exact s.refuse_acts _ _

theorem State.takeLoop_acts (s : State) (n : Nat) (m : Option LoopWord) : Acts s (s.takeLoop n m) := by
  refine s.lineRequest_acts _ n _ fun l hd => ?_
  split
  · exact s.refuse_acts _ _
  · split
    · exact s.refuse_acts _ _
    · exact (s.setLoop_soft l _).acts.take _ _

theorem State.takeHold_acts (s : State) (n : Nat) : Acts s (s.takeHold n) := by
  refine s.lineRequest_acts _ n _ fun l hd => ?_
  split
  · exact ((s.addHold_own l _).acts_of (s.addHold_lawful l _)).take _ _
  · exact s.refuse_acts _ _

theorem State.resumeLine_acts (s : State) (l : LineId) (h : (s.seq l).state.paused = true)
    (g : (s.seq l).otherHolds = []) : Acts s (s.resumeLine l) := by
  have c := s.clearRings_acts l
  have e : ∀ k, ((s.clearRings l).seq k) = s.seq k := by
    intro k
    unfold State.clearRings
    generalize s.lineup l = ts
    induction ts generalizing s with
    | nil => rfl
    | cons t ts ih =>
      refine (ih _ ?_ ?_ ?_).trans (State.modTank_seq _ _ _ _)
      · simpa [State.clearRing] using h
      · simpa [State.clearRing] using g
      · exact State.clearRings_acts _ l
  have r : Soft l (s.clearRings l) ((s.clearRings l).modRate l
      fun r => { r with target := r.pendingTarget.getD r.target, pendingTarget := none }) := Soft.refl.rate _
  refine c.writes ((r.own.trans (State.enterOpening_own _ l)).free trivial)
    (r.lawful.trans (State.enterOpening_lawful _ l (.inr ?_) fun _ => ?_))
  · rw [r.seq, e]
    revert h
    cases (s.seq l).state <;> simp [LineState.paused]
  · rw [r.seq, e]
    exact g

theorem State.takeResume_acts (s : State) (n : Nat) : Acts s (s.takeResume n) := by
  refine s.lineRequest_acts _ n _ fun l hd => ?_
  simp only []
  split
  · exact s.refuse_acts _ _
  · next h =>
    split
    · exact s.refuse_acts _ _
    · next g =>
      split
      · exact s.refuse_acts _ _
      · split
        · exact s.refuse_acts _ _
        · exact (s.resumeLine_acts l (by simpa using h) (not_not.mp g)).take _ _

theorem State.enterFinishing_lawful (s : State) (l : LineId)
    (h : (s.seq l).state = .opening ∨ (s.seq l).state = .delivering ∨ (s.seq l).state = .holding) :
    Lawful s (s.enterFinishing l) := by
  refine (Lawful.refl.seq l (fun q => { q with state := .finishing, permit := false })
    ⟨fun _ _ => .inr (.inr rfl), fun a b => ?_, fun _ b => (nomatch b), ?_⟩).soft l
    ((Soft.refl.rate _).drive Drive.trackFrom0 rfl)
  · have := a b
    rcases h with h | h | h <;> simp [h] at this
  · rcases h with h | h | h <;> simp [h]

theorem State.takeFinish_acts (s : State) (n : Nat) : Acts s (s.takeFinish n) := by
  refine s.lineRequest_acts _ n _ fun l hd => ?_
  have o := s.leaveDelivering_soft l
  split
  iterate 2
    next h =>
      refine Acts.take (o.acts.writes (((State.enterFinishing_own _ l).soft (State.closeOnProfile_soft _ l)).free trivial)
        ((State.enterFinishing_lawful _ l ?_).soft l (State.closeOnProfile_soft _ l))) _ _
      rw [o.seq]; simp [h]
  · next h => exact ((s.enterFinishing_own l).acts_of (s.enterFinishing_lawful l (.inr (.inr h)))).take _ _
  · next h =>
    refine Acts.take (.of (((s.clearPermit_own l).free trivial).trans (State.finishLine_free _ l))
      ((s.clearPermit_lawful l).trans (State.finishLine_lawful _ l ?_ fun g => Seq.trips_nil g ?_ ?_))) _ _
    all_goals simp [State.clearPermit, h]
  all_goals exact s.refuse_acts _ _

theorem State.clearLine_lawful (s : State) (l : LineId) (h : (s.seq l).state = .tripped) : Lawful s (s.clearLine l) := by
  have a : Lawful s (s.modSeq l fun q => { q with trips := [] }) := Lawful.refl.seq l _ (SeqMove.clearTrips _)
  have b := a.trans (State.enterConnected_lawful (s.modSeq l fun q => { q with trips := [] }) l (by simp [h])
    fun _ => by simp)
  exact b.trans (Lawful.foldl _ (fun t c _ => (t.causeGone_soft l c).lawful) _)

theorem State.takeClear_acts (s : State) (n : Nat) : Acts s (s.takeClear n) := by
  refine s.lineRequest_acts _ n _ fun l hd => ?_
  split
  · exact s.refuse_acts _ _
  · next h =>
    split
    · exact s.refuse_acts _ _
    · exact ((s.clearLine_own l).acts_of (s.clearLine_lawful l (not_not.mp h))).take _ _

theorem State.clearIfFit_lawful (s : State) (l : LineId) : Lawful s (s.clearIfFit l) := by
  unfold State.clearIfFit
  split
  · next h => exact s.clearLine_lawful l h.1
  · exact .refl

/-! ### Requests of the tank watch -/

/-- The lineup of a line once a tank has been assigned to it. -/
theorem State.assignTank_lineup (s : State) (l j : LineId) (k : TankId) :
    ((s.assignTank l k).lineup j).length ≤ (s.lineup j).length + (if j = l then 1 else 0) := by
  unfold State.assignTank
  split
  · exact Nat.le_add_right _ _
  · simp only []
    split
    · rw [show ∀ t : State, (t.dropHold l .noOutlet).lineup j = t.lineup j from fun t => by simp [State.dropHold]]
      simp only [State.notify_lineup, State.setLineup_lineup, State.modTankNoticed_lineup]
      split
      · next h => subst h; simp
      · simp
    · simp only [State.notify_lineup, State.setLineup_lineup, State.modTankNoticed_lineup]
      split
      · next h => subst h; simp
      · simp

theorem State.assignTank_acts (s : State) (l : LineId) (k : TankId) (h : (s.lineup l).length < 6) :
    Acts s (s.assignTank l k) := by
  unfold State.assignTank
  split
  · exact .refl
  · next r _ =>
    have f := ((s.modTankNoticed_free (c := .all) k (fun r =>
      { r with line := some l, ring := [], anchor := none, topped := false, results := none,
               state := r.assignedState }) trivial).lineup l (s.lineup l ++ [k]) trivial).notify (.line l)
    have g := ((s.modTankNoticed_lawful k (fun r =>
      { r with line := some l, ring := [], anchor := none, topped := false, results := none,
               state := r.assignedState })).lineup l (s.lineup l ++ [k]) (by intro _; simp; omega)).notify (.line l)
    simp only []
    split
    · exact (Acts.of f g).trans ((State.dropHold_own _ l _).acts_of (State.dropHold_lawful _ l _))
    · exact Acts.of f g

/-- The assignments of a taken ASSIGN stay within six tanks (R82, R90). -/
theorem State.assignAll_acts (s : State) (l : LineId) (ks : List TankId)
    (h : (s.lineup l).length + ks.length ≤ 6) : Acts s (ks.foldl (fun s t => s.assignTank l t) s) := by
  induction ks generalizing s with
  | nil => exact .refl
  | cons k ks ih =>
    simp only [List.length_cons] at h
    refine (s.assignTank_acts l k (by omega)).trans (ih _ ?_)
    have := s.assignTank_lineup l l k
    simp only [if_true] at this
    omega

theorem State.assignRefusals_room (s : State) (l : LineId) (b : Nat) (ns : List Nat)
    (h : s.assignRefusals l b ns = none) (hn : ns ≠ []) : (s.lineup l).length + b + ns.length ≤ 6 := by
  induction ns generalizing b with
  | nil => exact absurd rfl hn
  | cons n ns ih =>
    unfold State.assignRefusals at h
    split at h
    · cases h
    · next e =>
      have hb : (s.lineup l).length + b < 6 := by
        unfold State.assignRefusal at e
        split at e
        · cases e
        · split at e <;> [cases e; split at e] <;> [cases e; split at e] <;> [cases e; split at e]
          · cases e
          · omega
      cases ns with
      | nil => simp; omega
      | cons m ms =>
        have := ih (b + 1) h (by simp)
        simp only [List.length_cons] at this ⊢
        omega

theorem State.takeAssign_acts (s : State) (n : Nat) (ts : List NumField) : Acts s (s.takeAssign n ts) := by
  refine s.lineRequest_acts _ n _ fun l hd => ?_
  split
  · exact s.refuse_acts _ _
  · split
    · exact s.refuse_acts _ _
    · next ns _ =>
      split
      · exact s.refuse_acts _ _
      · next hns =>
        split
        · exact s.refuse_acts _ _
        · next e =>
          refine Acts.take (s.assignAll_acts l _ ?_) _ _
          simp only [not_or] at hns
          have := s.assignRefusals_room l 0 ns e hns.1
          have := List.length_filterMap_le tankOf ns
          unfold tanksOf
          omega

theorem State.releaseTank_acts (s : State) (k : TankId) : Acts s (s.releaseTank k) := by
  unfold State.releaseTank
  split
  · exact .refl
  · split
    · exact .of (s.shiftTank_free k _ trivial fun _ _ => trivial) (s.shiftTank_lawful k _)
    all_goals exact .of (s.listTank_free k _ trivial trivial fun _ _ => trivial) (s.listTank_lawful k _)

theorem State.releaseTanks_acts (s : State) (ks : List TankId) (hd : List String) : Acts s (s.releaseTanks ks hd) :=
  Acts.take (Acts.foldl _ (fun t k _ => t.releaseTank_acts k) s) _ _

theorem State.takeRelease_acts (s : State) (n : Nat) (ts : TankWords) : Acts s (s.takeRelease n ts) := by
  refine s.lineRequest_acts _ n _ fun l hd => ?_
  split
  · exact s.refuse_acts _ _
  · split
    · exact s.releaseTanks_acts _ _
    · split
      · exact s.refuse_acts _ _
      · split
        · exact s.refuse_acts _ _
        · split
          · exact s.refuse_acts _ _
          · exact s.releaseTanks_acts _ _

theorem State.fillTank_acts (s : State) (k : TankId) (r : Tank) (n : Nat) : Acts s (s.fillTank k r n) := by
  have a : Acts s (s.modTankNoticed k fun r => { r with fl := n }) :=
    .of (s.modTankNoticed_free k _ trivial) (s.modTankNoticed_lawful k _)
  unfold State.fillTank
  simp only []
  split
  · exact (a.writes (State.startFilling_free _ k trivial fun _ _ => trivial) (State.startFilling_lawful _ k)).writes
      (State.evaluate_free _ k trivial trivial fun _ _ => trivial) (State.evaluate_lawful _ k)
  · exact a

theorem State.takeFill_acts (s : State) (n : Nat) (v : NumField) : Acts s (s.takeFill n v) := by
  refine s.afterStartup_acts _ _ (s.onTank_acts _ n _ fun k r _ => ?_)
  split
  · exact s.refuse_acts _ _
  · exact (s.fillTank_acts k r _).take _ _

theorem State.soundTank_acts (s : State) (k : TankId) (v : Nat) (w : ValveWord) : Acts s (s.soundTank k v w) :=
  .of (s.levelReport_free _ trivial trivial trivial fun _ _ => trivial) (s.levelReport_lawful _)

theorem State.takeSound_acts (s : State) (n : Nat) (v : NumField) (w : Option ValveWord) : Acts s (s.takeSound n v w) := by
  refine s.afterStartup_acts _ _ ?_
  split
  · exact s.refuse_acts _ _
  · refine s.onTank_acts _ n _ fun k r _ => ?_
    split
    · exact (s.soundTank_acts k _ _).take _ _
    · exact s.refuse_acts _ _

theorem State.clearTank_acts (s : State) (k : TankId) : Acts s (s.clearTank k) :=
  .of ((s.listTank_free k _ trivial trivial fun _ _ => trivial).overfills _ trivial)
    ((s.listTank_lawful k _).overfills _)

theorem State.takeClearTank_acts (s : State) (n : Nat) : Acts s (s.takeClearTank n) := by
  refine s.afterStartup_acts _ _ (s.onTank_acts _ n _ fun k r _ => ?_)
  simp only []
  split
  · exact s.refuse_acts _ _
  · split
    · exact s.refuse_acts _ _
    · exact (s.clearTank_acts k).take _ _

/-! ### Requests of the link and the trip unit -/

theorem State.takeLinkstart_acts (s : State) : Acts s s.takeLinkstart := by
  refine s.afterStartup_acts _ _ ?_
  split
  · exact s.refuse_acts _ _
  · exact (Acts.of (s.beginAcquisition_free trivial) s.beginAcquisition_lawful).take _ _

theorem State.takeGaugingManual_acts (s : State) : Acts s s.takeGaugingManual := by
  refine s.afterStartup_acts _ _ ?_
  split
  · exact (Acts.of (s.toManual_free (fun _ => trivial) trivial) s.toManual_lawful).take _ _
  · exact s.take_acts _ _

theorem State.takeGaugingLinked_acts (s : State) : Acts s s.takeGaugingLinked := by
  refine s.afterStartup_acts _ _ ?_
  split
  · split
    · exact (Acts.of (s.toLinked_free (fun _ => trivial) trivial) s.toLinked_lawful).take _ _
    · exact s.take_acts _ _
  · exact s.refuse_acts _ _

theorem State.takeEsd_acts (s : State) : Acts s s.takeEsd :=
  s.afterStartup_acts _ _ ((Acts.of (s.deviceTrip_free _ trivial) (s.deviceTrip_lawful _)).take _ _)

theorem State.emptyDevice_acts (s : State) : Acts s s.emptyDevice := by
  have a : Acts s ((({ s with device := [] }).notify .trip).setContact .closed) :=
    .of (((Free.refl.device [] trivial).notify .trip).trans (State.setContact_free _ _ trivial))
      (((Lawful.refl.device []).notify .trip).trans (State.setContact_lawful _ _))
  refine a.trans (Acts.foldl _ (fun t d _ => ?_) _)
  cases d with
  | esdIn => exact .refl
  | stretchTrip l => exact (t.stretchTripGone_soft l).acts
  | _ => exact Acts.refl.gone _ _

theorem State.takeClearAll_acts (s : State) : Acts s s.takeClearAll := by
  refine s.afterStartup_acts _ _ ?_
  split
  · exact s.refuse_acts _ _
  · have e : ∀ t : State, Acts t (t.eachLine State.clearIfFit) := fun t =>
      .of (t.eachLine_free _ fun u l => (u.clearIfFit_own l).free trivial)
        (t.eachLine_lawful _ fun u l => u.clearIfFit_lawful l)
    have k : Acts s ((if s.device = [] then s else s.emptyDevice).eachLine State.clearIfFit) := by
      split
      · exact e s
      · exact s.emptyDevice_acts.trans (e _)
    generalize (if s.device = [] then s else s.emptyDevice).eachLine State.clearIfFit = u at k
    simp only []
    split
    · exact k.take _ _
    · exact s.refuse_acts _ _

theorem State.acknowledge_acts (s : State) (f : Alarm → Bool) (hf : ∀ a, f { a with acked := true } = f a) :
    Acts s (s.acknowledge f) :=
  (Acts.refl.acked f hf).trans (Acts.foldl _ (fun _ _ _ => Acts.refl.notify _) _)

theorem State.takeAck_acts (s : State) (os : Option (List ObjectWord)) (ks : Option (List (Option AlarmKind))) :
    Acts s (s.takeAck os ks) := by
  refine s.afterStartup_acts _ _ ?_
  split
  · exact s.refuse_acts _ _
  · split
    · exact s.refuse_acts _ _
    · exact (s.acknowledge_acts _ fun a => rfl).take _ _

/-! ### Settings, mask, store -/

theorem SettingName.store_in_range (n : SettingName) (v : Nat) (x : Settings) (h : x.InRange) :
    (n.store (n.used v) x).InRange := by
  have c : ∀ lo hi w, lo ≤ hi → lo ≤ clamp lo hi w ∧ clamp lo hi w ≤ hi := by
    intro lo hi w hlh
    unfold clamp
    omega
  obtain ⟨h1, h2, h3, h4, h5, h6, h7, h8, h9, h10⟩ := h
  cases n
  case ttop => exact ⟨c 600 18000 v (by decide), h2, h3, h4, h5, h6, h7, h8, h9, h10⟩
  case treact => exact ⟨h1, (c 0 100 v (by decide)).2, h3, h4, h5, h6, h7, h8, h9, h10⟩
  case stalel => exact ⟨h1, h2, c 50 600 v (by decide), h4, h5, h6, h7, h8, h9, h10⟩
  case stalem => exact ⟨h1, h2, h3, c 600 6000 v (by decide), h5, h6, h7, h8, h9, h10⟩
  case window => exact ⟨h1, h2, h3, h4, (c 0 3 v (by decide)).2, h6, h7, h8, h9, h10⟩
  case estw =>
    refine ⟨h1, h2, h3, h4, h5, ?_, h7, h8, h9, h10⟩
    simp only [SettingName.store, SettingName.used]
    split
    · exact .inl rfl
    · exact .inr rfl
  case changeover => exact ⟨h1, h2, h3, h4, h5, h6, c 300 6000 v (by decide), h8, h9, h10⟩
  case linkloss => exact ⟨h1, h2, h3, h4, h5, h6, h7, c 3 30 v (by decide), h9, h10⟩
  case band => exact ⟨h1, h2, h3, h4, h5, h6, h7, h8, c 20 200 v (by decide), h10⟩
  case steadyn => exact ⟨h1, h2, h3, h4, h5, h6, h7, h8, h9, c 5 250 v (by decide)⟩

theorem State.setOne_acts (s : State) (n : SettingName) (v : Nat) : Acts s (s.setOne (n, n.used v)) := by
  have a : Acts s { s with settings := n.store (n.used v) s.settings } :=
    Acts.refl.settings _ (n.store_in_range v s.settings)
  unfold State.setOne
  simp only []
  split
  · exact a.trans (Acts.foldl _ (fun t k _ => .of (t.modTank_free k _ trivial) (t.modTank_lawful k _)) _)
  · exact a.trans (Acts.foldl _ (fun t k _ => .of (t.judgeChange_free k trivial) (t.judgeChange_lawful k)) _)
  all_goals exact a

theorem State.setAll_acts (s : State) (ps : List (SettingName × Nat)) :
    Acts s ((ps.map fun p => (p.1, p.1.used p.2)).foldl State.setOne s) := by
  induction ps generalizing s with
  | nil => exact .refl
  | cons p ps ih => exact (s.setOne_acts p.1 p.2).trans (ih _)

theorem State.takeSet_acts (s : State) (fs : List Field) : Acts s (s.takeSet fs) := by
  refine s.afterStartup_acts _ _ ?_
  split
  · exact s.refuse_acts _ _
  · next ps _ =>
    split
    · exact s.refuse_acts _ _
    · exact (s.setAll_acts ps).take _ _

theorem State.setMask_acts (s : State) (m : List NoticeKind) : Acts s (s.setMask m) := Acts.refl.mask m

theorem State.takeMask_acts (s : State) (ws : List String) : Acts s (s.takeMask ws) := by
  refine s.afterStartup_acts _ _ ?_
  simp only []
  split
  · exact s.refuse_acts _ _
  · split
    · exact (s.setMask_acts _).take _ _
    · exact s.refuse_acts _ _

theorem State.takeLimits_acts (s : State) (n : Nat) (vs : List NumField) : Acts s (s.takeLimits n vs) := by
  refine s.lineRequest_acts _ n _ fun l hd => ?_
  split
  · exact s.refuse_acts _ _
  · split
    · exact s.refuse_acts _ _
    · split
      · exact s.refuse_acts _ _
      · split
        · exact s.refuse_acts _ _
        · exact (Acts.refl.store _).take _ _

theorem State.takeLock_acts (s : State) : Acts s s.takeLock := by
  refine s.afterStartup_acts _ _ ?_
  split
  · exact s.take_acts _ _
  · exact (Acts.refl.store _).take _ _

theorem State.takeUnlock_acts (s : State) : Acts s s.takeUnlock := by
  refine s.afterStartup_acts _ _ ?_
  split
  · split
    · exact (Acts.refl.store _).take _ _
    · exact s.take_acts _ _
  · exact s.refuse_acts _ _

/-! ### Resets -/

theorem State.farAtReset_acts (s : State) : Acts s s.farAtReset := by
  unfold State.farAtReset
  split
  · exact (Acts.of (s.joinDevice_free _ trivial) (s.joinDevice_lawful _)).raise _ _
  · exact .refl

theorem State.hardReset_acts (s : State) (l f : Contact) : Acts s (s.hardReset l f) :=
  (Acts.reset (s := s) (t := s) { s with
      store := s.store.afterReset
      esd := { contact := .opened, loop := l, far := f }
      port := Port.initial } rfl .refl).trans (State.farAtReset_acts _)

theorem State.restart_acts (s : State) : Acts s s.restart :=
  (Acts.reset (s := s) (t := s) { s with port := { s.port with waiting := none, out := some (written ["=", "RESTART"]) } } rfl .refl).trans
    (State.farAtReset_acts _)

theorem State.takeRestart_acts (s : State) : Acts s s.takeRestart := by
  refine s.afterStartup_acts _ _ ?_
  split
  · exact s.refuse_acts _ _
  · exact s.refuse_acts _ _
  · exact s.restart_acts

/-! ### READ requests -/

theorem State.takeReadLine_acts (s : State) (n : Nat) : Acts s (s.takeReadLine n) :=
  s.onLine_acts _ n _ fun _ => s.take_acts _ _

theorem State.takeReadTank_acts (s : State) (n : Nat) : Acts s (s.takeReadTank n) := by
  unfold State.takeReadTank
  split
  · exact s.take_acts _ _
  · exact s.refuse_acts _ _

theorem State.takeReadTanks_acts (s : State) : Acts s s.takeReadTanks := s.take_acts _ _

theorem State.takeReadStatus_acts (s : State) : Acts s s.takeReadStatus := s.take_acts _ _

theorem State.takeReadSet_acts (s : State) : Acts s s.takeReadSet := s.take_acts _ _

theorem State.takeReadLimits_acts (s : State) (n : Nat) : Acts s (s.takeReadLimits n) :=
  s.onLine_acts _ n _ fun _ => s.take_acts _ _

/-! ### Console lines -/

theorem State.unknownWord_acts (s : State) (w : String) : Acts s (s.unknownWord w) := s.answer_acts _

theorem State.malformed_acts (s : State) (name args : List String) : Acts s (s.malformed name args) :=
  s.afterStartup_acts _ _ (s.refuse_acts _ _)

theorem State.malformedRead_acts (s : State) (name args : List String) : Acts s (s.malformedRead name args) :=
  s.refuse_acts _ _

theorem State.oneNumber_acts (s : State) (name args : List String) (take : Nat → State) (h : ∀ n, Acts s (take n)) :
    Acts s (s.oneNumber name args take) := by
  unfold State.oneNumber
  split
  · split
    · exact h _
    · exact s.malformed_acts _ _
  · exact s.malformed_acts _ _

theorem State.noFields_acts (s : State) (name args : List String) (t : State) (h : Acts s t) :
    Acts s (s.noFields name args t) := by
  unfold State.noFields
  split
  · exact h
  · exact s.malformed_acts _ _

theorem State.numberFirst_acts (s : State) (name args : List String) (take : Nat → List String → State)
    (h : ∀ n r, Acts s (take n r)) : Acts s (s.numberFirst name args take) := by
  unfold State.numberFirst
  split
  · split
    · exact h _ _
    · exact s.malformed_acts _ _
  · exact s.malformed_acts _ _

theorem lastField_acts (s : State) (name args rest : List String) (take : NumField → State)
    (h : ∀ n, Acts s (take n)) : Acts s (lastField s name args rest take) := by
  unfold lastField
  split
  · exact h _
  · exact h _
  · exact s.malformed_acts _ _

theorem elim_acts (s : State) (o : Option Nat) (d : State) (f : Nat → State) (hd : Acts s d) (hf : ∀ n, Acts s (f n)) :
    Acts s (o.elim d f) := by
  cases o with
  | none => exact hd
  | some n => exact hf n

theorem State.lineFields_acts (s : State) (kw : String) (args : List String) (t : State)
    (h : s.lineFields kw args = some t) : Acts s t := by
  unfold State.lineFields at h
  split at h
  all_goals cases h
  · exact s.numberFirst_acts _ _ _ fun n r => by
      split
      · exact elim_acts s _ _ _ (s.malformed_acts _ _) (s.takeConnect_acts n)
      · exact s.malformed_acts _ _
  · exact s.oneNumber_acts _ _ _ s.takeDisconnect_acts
  · exact s.oneNumber_acts _ _ _ s.takeStroke_acts
  · exact s.numberFirst_acts _ _ _ fun n r => by
      split
      · exact s.takeStrokeset_acts _ _
      · exact elim_acts s _ _ _ (s.malformed_acts _ _) fun t => s.takeStrokeset_acts _ _
      · exact s.malformed_acts _ _
  · exact s.numberFirst_acts _ _ _ fun n r => by
      split
      · exact s.takePermitQuery_acts _
      · exact s.takePermitConfirm_acts _
      · exact s.malformed_acts _ _
  · exact s.numberFirst_acts _ _ _ fun n r => lastField_acts s _ _ _ _ (s.takeStart_acts n)
  · exact s.numberFirst_acts _ _ _ fun n r => lastField_acts s _ _ _ _ (s.takeRate_acts n)
  · exact s.numberFirst_acts _ _ _ fun n r => s.takeLoop_acts _ _
  · exact s.oneNumber_acts _ _ _ s.takeHold_acts
  · exact s.oneNumber_acts _ _ _ s.takeResume_acts
  · exact s.oneNumber_acts _ _ _ s.takeFinish_acts

theorem State.tankFields_acts (s : State) (kw : String) (args : List String) (t : State)
    (h : s.tankFields kw args = some t) : Acts s t := by
  unfold State.tankFields at h
  split at h
  all_goals cases h
  · exact s.numberFirst_acts _ _ _ fun n r => s.takeAssign_acts _ _
  · exact s.numberFirst_acts _ _ _ fun n r => by
      split
      · exact s.takeRelease_acts _ _
      · exact s.takeRelease_acts _ _
  · exact s.numberFirst_acts _ _ _ fun n r => lastField_acts s _ _ _ _ (s.takeFill_acts n)
  · exact s.numberFirst_acts _ _ _ fun n r => by
      split
      iterate 3 exact s.takeSound_acts _ _ _
      exact s.malformed_acts _ _
  · exact s.numberFirst_acts _ _ _ fun n r => s.takeLimits_acts _ _
  · exact s.noFields_acts _ _ _ s.takeLock_acts
  · exact s.noFields_acts _ _ _ s.takeUnlock_acts

theorem State.readFields_acts (s : State) (ws : List String) : Acts s (s.readFields ws) := by
  unfold State.readFields
  split
  · split <;> [exact s.takeReadStatus_acts; exact s.malformedRead_acts _ _]
  · split <;> [exact s.takeReadTanks_acts; exact s.malformedRead_acts _ _]
  · split <;> [exact s.takeReadSet_acts; exact s.malformedRead_acts _ _]
  · split
    · exact elim_acts s _ _ _ (s.malformedRead_acts _ _) s.takeReadLine_acts
    · exact s.malformedRead_acts _ _
  · split
    · exact elim_acts s _ _ _ (s.malformedRead_acts _ _) s.takeReadTank_acts
    · exact s.malformedRead_acts _ _
  · split
    · exact elim_acts s _ _ _ (s.malformedRead_acts _ _) s.takeReadLimits_acts
    · exact s.malformedRead_acts _ _
  · exact s.unknownWord_acts _

theorem State.clearFields_acts (s : State) (ws : List String) : Acts s (s.clearFields ws) := by
  unfold State.clearFields
  split
  · exact s.malformed_acts _ _
  · exact s.noFields_acts _ _ _ s.takeClearAll_acts
  · exact s.oneNumber_acts _ _ _ s.takeClearTank_acts
  · split
    · split <;> [exact s.takeClear_acts _; exact s.malformed_acts _ _]
    · exact s.unknownWord_acts _

theorem State.systemFields_acts (s : State) (kw : String) (args : List String) (t : State)
    (h : s.systemFields kw args = some t) : Acts s t := by
  unfold State.systemFields at h
  split at h
  all_goals cases h
  · exact s.readFields_acts _
  · exact s.noFields_acts _ _ _ s.takeLinkstart_acts
  · split
    · exact s.takeGaugingManual_acts
    · exact s.takeGaugingLinked_acts
    · exact s.malformed_acts _ _
  · exact s.noFields_acts _ _ _ s.takeEsd_acts
  · exact s.clearFields_acts _
  · exact s.takeAck_acts _ _
  · exact s.takeSet_acts _
  · exact s.takeMask_acts _
  · exact s.noFields_acts _ _ _ s.takeRestart_acts

theorem State.takeFields_acts (s : State) (ws : List String) : Acts s (s.takeFields ws) := by
  unfold State.takeFields
  split
  · exact s.unknownWord_acts _
  · split
    · next h _ _ => exact s.lineFields_acts _ _ _ (by assumption)
    · exact s.tankFields_acts _ _ _ (by assumption)
    · exact s.systemFields_acts _ _ _ (by assumption)
    · exact s.unknownWord_acts _

theorem State.answerLine_acts (s : State) (e : EndedLine) : Acts s (s.answerLine e) := by
  unfold State.answerLine
  split
  · exact s.answer_acts _
  · split
    · exact s.answer_acts _
    · exact s.takeFields_acts _

theorem State.lineFeed_acts (s : State) (chars : String) : Acts s (s.lineFeed chars) := by
  have a : Acts s { s with port := { s.port with rx := "" } } := Acts.refl.port _ rfl
  unfold State.lineFeed
  simp only []
  split
  · exact a
  · split
    · exact a.trans (State.answerLine_acts _ _)
    · exact Acts.refl.port _ rfl
    · exact a

theorem State.sendWaiting_acts (s : State) : Acts s s.sendWaiting := by
  unfold State.sendWaiting
  split
  · exact Acts.refl.port _ rfl
  · exact .refl

theorem State.replyGone_acts (s : State) : Acts s s.replyGone := by
  unfold State.replyGone
  split
  · exact .refl
  · simp only []
    split
    · exact s.sendWaiting_acts
    · exact (s.sendWaiting_acts.port { s.sendWaiting.port with held := none } rfl).trans (State.answerLine_acts _ _)

theorem State.drained_acts (s : State) : Acts s s.drained := s.replyGone_acts.trans (State.replyGone_acts _)

theorem State.noticeGone_acts (s : State) (n : Notice) : Acts s (s.noticeGone n) := by
  cases n with
  | loop l => exact (Soft.refl.rate (fun r => { r with mark := none }) : Soft l s _).acts
  | link => exact Acts.refl.result false
  | _ => exact .refl

theorem State.sendNotice_acts (s : State) : Acts s s.sendNotice := by
  unfold State.sendNotice
  split
  · next n rest _ h =>
    have b : Acts s { s with notices := rest } := Acts.refl.sent rest (by rw [h]; exact List.sublist_cons_self _ _)
    have a : Acts s { s with notices := rest, port := { s.port with out := some (written ("!" :: s.noticeText n)) } } :=
      Acts.port (t := { s with notices := rest }) { s.port with out := some (written ("!" :: s.noticeText n)) } rfl b
    exact a.trans (State.noticeGone_acts _ n)
  · exact .refl
  · exact .refl

/-! ### Field and time events -/

theorem State.setLoopReading_acts (s : State) (x : Contact) : Acts s (s.setLoopReading x) := by
  unfold State.setLoopReading
  split
  · exact .refl
  · simp only []
    split
    · exact (Acts.refl.loop _).writes (State.eachLine_free _ _ fun t l => (t.addTrip_own l _).free trivial)
        (State.eachLine_lawful _ _ fun t l => t.addTrip_lawful l _)
    · exact Acts.refl.loop _

theorem State.setFarReading_acts (s : State) (x : Contact) : Acts s (s.setFarReading x) := by
  unfold State.setFarReading
  split
  · exact .refl
  · have a := (Acts.refl.far (t := s) x).notify .trip
    simp only []
    split
    · exact (a.writes (State.joinDevice_free _ _ trivial) (State.joinDevice_lawful _ _)).raise _ _
    · exact (a.writes (State.leaveDevice_free _ _ trivial) (State.leaveDevice_lawful _ _)).gone _ _

theorem State.endWrite_acts (s : State) (w : Write) : Acts s (s.endWrite w) := by
  have a : Acts s (s.foldTotal w.line w.record.f) := by
    unfold State.foldTotal
    split
    · split
      · exact .refl
      · exact Acts.refl.meas _ _
    · exact .refl
  have b : ∀ t : State, Acts t (t.lowerTarget w.line w.record.qMax) := by
    intro t
    unfold State.lowerTarget
    split
    · exact ((Soft.refl.rate _).notify _ : Soft w.line t _).acts
    · exact .refl
  unfold State.endWrite
  simp only []
  exact ((a.store { ((s.foldTotal w.line w.record.f).setRecord w.line (soundRecord w.record)).store with
    write := none }).trans (b _)).notify _

theorem State.endStartup_acts (s : State) : Acts s s.endStartup :=
  ((Acts.of (s.setContact_free .closed trivial) (s.setContact_lawful .closed)).phase .running).notify .ready

theorem State.judgeStartup_acts (s : State) : Acts s s.judgeStartup := by
  unfold State.judgeStartup
  split
  · split
    · exact s.endStartup_acts
    · exact .refl
  · exact .refl

theorem State.judgeWrite_acts (s : State) : Acts s s.judgeWrite := by
  unfold State.judgeWrite
  split
  · split
    · exact s.endWrite_acts _
    · exact .refl
  · exact .refl

theorem State.judgeChange_acts (s : State) (k : TankId) : Acts s (s.judgeChange k) :=
  .of (s.judgeChange_free k trivial) (s.judgeChange_lawful k)

theorem State.nextDs_acts (s : State) : Acts s s.nextDs := Acts.refl.clock _

theorem State.tick_acts (s : State) : Acts s s.tick :=
  ((s.nextDs_acts.trans (State.judgeStartup_acts _)).trans (State.judgeWrite_acts _)).trans
    (Acts.foldl _ (fun t k _ => t.judgeChange_acts k) _)

theorem State.ticks_acts (s : State) (n : Nat) : Acts s (s.ticks n) := by
  induction n with
  | zero => exact .refl
  | succ n ih => rw [State.ticks]; exact ih.trans (State.tick_acts _)

theorem State.passTo_acts (s : State) (moment : Nat) : Acts s (s.passTo moment) := s.ticks_acts _

theorem State.changeLate_acts (s : State) (k : TankId) : Acts s (s.changeLate k) := by
  unfold State.changeLate
  split
  · exact (s.passTo_acts _).trans (State.judgeChange_acts _ k)
  · exact .refl

theorem State.writeDone_acts (s : State) : Acts s s.writeDone := by
  unfold State.writeDone
  split
  · exact (s.passTo_acts _).trans (State.judgeWrite_acts _)
  · exact .refl

theorem State.startupDone_acts (s : State) : Acts s s.startupDone := by
  unfold State.startupDone
  split
  · exact (s.passTo_acts _).trans (State.judgeStartup_acts _)
  · exact .refl

/-! ### Every command -/

/-- Every command does what `Acts` allows. -/
theorem exec_acts (c : Instr) (s t : State) (h : exec c s = .next t) : Acts s t := by
  have d := s.drained_acts
  cases c <;> cases h
  case sampleEvent l x => exact .of (s.sampleEvent_free l x) (s.sampleEvent_lawful l x)
  case sensorFault l => exact (s.judgeSensorFault_own l).acts_of (s.judgeSensorFault_lawful l)
  case overpressure l => exact (s.judgeOverpressure_own l).acts_of (s.judgeOverpressure_lawful l)
  case stretchWarnClear l => exact (s.judgeStretchClear_own l).acts_of (s.judgeStretchClear_lawful l)
  case stretchTrip l => exact .of (s.judgeStretchTrip_free l trivial trivial) (s.judgeStretchTrip_lawful l)
  case enterSteady l => exact (s.judgeSteady_soft l).acts
  case flowUnsteady l => exact (s.judgeUnsteady_soft l).acts
  case trackingCheckFail l => exact (s.judgeTracking_own l).acts_of (s.judgeTracking_lawful l)
  case openTimeout l => exact (s.judgeOpenTimeout_own l).acts_of (s.judgeOpenTimeout_lawful l)
  case settleEnd l => exact (s.judgeSettleEnd_soft l).acts
  case closeTimeout l => exact (s.judgeCloseTimeout_own l).acts_of (s.judgeCloseTimeout_lawful l)
  case takeover l => exact (s.judgeTakeover_soft l).acts
  case connect n g => exact d.trans (State.takeConnect_acts _ n g)
  case disconnect n => exact d.trans (State.takeDisconnect_acts _ n)
  case stroke n => exact d.trans (State.takeStroke_acts _ n)
  case strokeset n x => exact d.trans (State.takeStrokeset_acts _ n x)
  case permit n => exact d.trans (State.takePermitQuery_acts _ n)
  case permitConfirm n => exact d.trans (State.takePermitConfirm_acts _ n)
  case start n r => exact d.trans (State.takeStart_acts _ n r)
  case rate n r => exact d.trans (State.takeRate_acts _ n r)
  case loop n m => exact d.trans (State.takeLoop_acts _ n m)
  case hold n => exact d.trans (State.takeHold_acts _ n)
  case resume n => exact d.trans (State.takeResume_acts _ n)
  case finish n => exact d.trans (State.takeFinish_acts _ n)
  case assign n ts => exact d.trans (State.takeAssign_acts _ n ts)
  case release n ts => exact d.trans (State.takeRelease_acts _ n ts)
  case fill n v => exact d.trans (State.takeFill_acts _ n v)
  case sound n v w => exact d.trans (State.takeSound_acts _ n v w)
  case linkstart => exact d.trans (State.takeLinkstart_acts _)
  case gaugingManual => exact d.trans (State.takeGaugingManual_acts _)
  case gaugingLinked => exact d.trans (State.takeGaugingLinked_acts _)
  case esd => exact d.trans (State.takeEsd_acts _)
  case clear n => exact d.trans (State.takeClear_acts _ n)
  case clearAll => exact d.trans (State.takeClearAll_acts _)
  case clearTank n => exact d.trans (State.takeClearTank_acts _ n)
  case ack os ks => exact d.trans (State.takeAck_acts _ os ks)
  case set fs => exact d.trans (State.takeSet_acts _ fs)
  case limits n vs => exact d.trans (State.takeLimits_acts _ n vs)
  case lock => exact d.trans (State.takeLock_acts _)
  case unlock => exact d.trans (State.takeUnlock_acts _)
  case mask ws => exact d.trans (State.takeMask_acts _ ws)
  case restart => exact d.trans (State.takeRestart_acts _)
  case readStatus => exact d.trans (State.takeReadStatus_acts _)
  case readLine n => exact d.trans (State.takeReadLine_acts _ n)
  case readTank n => exact d.trans (State.takeReadTank_acts _ n)
  case readTanks => exact d.trans (State.takeReadTanks_acts _)
  case readSet => exact d.trans (State.takeReadSet_acts _)
  case readLimits n => exact d.trans (State.takeReadLimits_acts _ n)
  case recordRejected cs => exact s.lineFeed_acts cs
  case replySent => exact s.replyGone_acts
  case noticeSent => exact s.sendNotice_acts
  case headerReply b => exact .of (s.takeReply_free _ _ b) (s.takeReply_lawful _ _ b)
  case entryReply b => exact .of (s.takeReply_free _ _ b) (s.takeReply_lawful _ _ b)
  case entryReplyMore b => exact .of (s.takeReply_free _ _ b) (s.takeReply_lawful _ _ b)
  case continuation b => exact .of (s.takeContinuation_free b) (s.takeContinuation_lawful b)
  case continuationTimeout => exact .of (s.continuationLate_free (fun _ => trivial) trivial) s.continuationLate_lawful
  case levelReply b => exact .of (s.takeReply_free _ _ b) (s.takeReply_lawful _ _ b)
  case permitReply b => exact .of (s.takeReply_free _ _ b) (s.takeReply_lawful _ _ b)
  case adviceReply b => exact .of (s.takeReply_free _ _ b) (s.takeReply_lawful _ _ b)
  case aliveReply b => exact .of (s.takeReply_free _ _ b) (s.takeReply_lawful _ _ b)
  case replyWindowExpired => exact .of (s.windowOut_free (fun _ => trivial) trivial) s.windowOut_lawful
  case linkLost => exact .of (s.judgeLost_free (fun _ => trivial) trivial) s.judgeLost_lawful
  case linkRecovered => exact .of (s.judgeRecovered_free (fun _ => trivial) trivial) s.judgeRecovered_lawful
  case loopReadingChange x => exact s.setLoopReading_acts x
  case farLoopReadingChange x => exact s.setFarReading_acts x
  case keyInputChange b => exact Acts.refl.key b
  case changeoverLate k => exact s.changeLate_acts k
  case limitsWriteEnd => exact s.writeDone_acts
  case powerOn l f => exact s.hardReset_acts l f
  case resetInput l f => exact s.hardReset_acts l f
  case startupEnd => exact s.startupDone_acts
  case heldLine cs => exact s.lineFeed_acts cs

end Sys2Proof.Machine
end

