-- ==== Sys2Proof/Laws/Levels.lean ====
section
/-! SUPPORT. What the rate estimator leaves of a record (R115 to R118), what a pending entry leaves of it (R86), and what the
pick from the poll queue leaves of the queue (R138, R139), each in the terms of Safety.lean; and what the check of a limits record
says (R175). -/

namespace Sys2Proof.Machine

/-! ### The rate estimator -/

/-- R116: the ring and anchor of a lined-up record with a volume. -/
theorem Tank.estimate_eq {r : Tank} {l : LineId} {v m : Nat} (hl : r.line = some l) (hv : r.vRep = some v)
    (hm : r.mTime = some m) (steady : Bool) (epoch w : Nat) :
    Tank.estimate steady epoch w v m r =
      { r with ring := (estimated steady epoch w false r).1, anchor := (estimated steady epoch w false r).2 } := by
  unfold Tank.estimate estimated pushRate
  rw [hl, hv, hm]
  simp only [Bool.false_eq_true, if_false]
  split
  · rfl
  · cases ha : r.anchor with
    | none => rfl
    | some a =>
      simp only []
      split
      · rfl
      · split
        · rw [← ha, ← hl, ← hv, ← hm]
        · rfl

/-- R116: the record after the report's volume is handed to the estimator. -/
theorem State.estimate_tank {s : State} {k : TankId} {r : Tank} (h : s.tank k = some r) :
    let e := estimated (r.line.any fun l => (s.meas l).steady) ((r.line.map fun l => (s.meas l).epoch).getD 0)
      s.settings.estw false r
    (s.estimate k).tank k = some { r with ring := e.1, anchor := e.2 } := by
  unfold State.estimate
  rw [h]
  simp only []
  split
  · rename_i hl hv hm
    simp [h, Tank.estimate_eq hl hv hm, hl]
  · rw [State.modTank_tank, if_pos rfl, h]
    unfold estimated
    simp only [Bool.false_eq_true, if_false, Option.map_some]

/-- R116: no other record, and nothing else, is touched. -/
theorem State.estimate_eq (s : State) (k : TankId) : s.estimate k = { s with tanks := (s.estimate k).tanks } := by
  unfold State.estimate
  split
  · rfl
  · split <;> (unfold State.modTank; split <;> rfl)

/-! ### Pending entries -/

/-- R86: the record of a tank after its pending entry is applied. -/
theorem State.applyPending_tank (s : State) (k : TankId) : (s.applyPending k).tank k = (s.tank k).bind pendingApplied := by
  unfold State.applyPending pendingApplied
  cases h : s.tank k with
  | none => simp [h]
  | some r =>
    cases hp : r.pendingEntry with
    | none => simp [h, hp]
    | some e => cases e <;> simp [h, hp, State.removeTank, State.forgetTank]

/-- R93: a record that becomes RELEASING. -/
theorem Tank.moved_releasing (now : Nat) (r : Tank) : r.moved .releasing now = releasedAt now r := by
  obtain ⟨_, _, _, _, _, _, _, _, _, _, _, _, _, _, _, st, _, _, _⟩ := r
  unfold Tank.moved releasedAt
  cases st <;> simp

/-! ### The poll queue -/

/-- R138: a record created joins the poll queue, which keeps following the records. -/
theorem PollFollows.created {s : State} (h : PollFollows s) (k : TankId) (r : Tank) :
    PollFollows ((s.setTank k (some r)).joinPoll k) := by
  intro x
  unfold State.joinPoll
  by_cases e : x = k <;> split <;> simp_all

/-- R85, R138: a record removed leaves the poll queue. -/
theorem PollFollows.removed {s : State} (h : PollFollows s) (k : TankId) : PollFollows (s.removeTank k) := by
  intro x
  by_cases e : x = k <;> simp [State.removeTank, State.forgetTank, mem_setErase, e, h x]

/-- R138: a record written where one stands leaves the poll queue as it should be. -/
theorem PollFollows.written {s : State} (h : PollFollows s) (k : TankId) (f : Tank → Tank) : PollFollows (s.modTank k f) := by
  intro x
  unfold State.modTank
  split
  · rename_i r hr
    by_cases e : x = k
    · simpa [e, hr] using h k
    · simpa [e] using h x
  · exact h x

/-- R139: a poll changes the order of the queue, not its members. -/
theorem State.pollTank_mem {s : State} {k : TankId} (h : k ∈ s.link.poll) (x : TankId) :
    x ∈ (s.pollTank k).link.poll ↔ x ∈ s.link.poll := by
  have back : x = k ∨ x ∈ s.link.poll ∧ x ≠ k ↔ x ∈ s.link.poll := by
    by_cases e : x = k <;> simp [e, h]
  unfold State.pollTank State.sendQuery
  cases s.isWatched k <;> cases (s.tankState k).any TankState.nearStop <;>
    simp [mem_insertBehind, mem_setErase, back, or_comm]

/-- R139: a tank near its stop re-enters behind the first watched tank, at the tail when there is none. -/
theorem insertBehind_eq (p : TankId → Bool) (k : TankId) (ks : List TankId) :
    insertBehind p k ks = match ks.dropWhile fun x => !p x with
      | [] => ks ++ [k]
      | first :: behind => (ks.takeWhile fun x => !p x) ++ first :: k :: behind := by
  induction ks with
  | nil => rfl
  | cons x xs ih =>
    unfold insertBehind
    cases hp : p x
    · simp only [Bool.false_eq_true, if_false, ih, List.dropWhile_cons, List.takeWhile_cons, hp, Bool.not_false, if_true]
      split <;> simp
    · simp [hp]

/-- R139: the tank picked from a poll queue. -/
theorem pickTank_eq_some {watched : TankId → Bool} {polls : Nat} {poll : List TankId} {k : TankId}
    (h : pickTank watched polls poll = some k) :
    if (8 ≤ polls ∧ poll.any (fun x => !watched x) = true) ∨ poll.any watched = false
    then poll.find? (fun x => !watched x) = some k else poll.find? watched = some k := by
  have none_of (p : TankId → Bool) (hn : poll.find? p = none) : poll.any p = false := by
    simpa using List.find?_eq_none.mp hn
  have some_of (p : TankId → Bool) (x : TankId) (hs : poll.find? p = some x) : poll.any p = true :=
    List.any_eq_true.mpr ⟨x, List.mem_of_find?_eq_some hs, List.find?_some hs⟩
  unfold pickTank at h
  cases hw : poll.find? watched <;> cases hu : poll.find? (fun x => !watched x) <;> rw [hw, hu] at h <;> simp only [] at h
  · cases h
  · rw [if_pos (.inr (none_of _ hw))]; exact h
  · rw [if_neg (by simp [none_of _ hu, some_of _ _ hw])]; exact h
  · split at h
    · rw [if_pos (.inl ⟨‹_›, some_of _ _ hu⟩)]; exact h
    · rw [if_neg (by simp [some_of _ _ hw, ‹¬ 8 ≤ polls›])]; exact h

/-! ### The check of a record (R175) -/

theorem limitsOutOfRange_isNone (x : Limits) : (limitsOutOfRange x).isNone = true ↔ ∀ f ∈ limitFields x, FieldWithin f := by
  simp [limitsOutOfRange, limitFields, limitNames, limitValues, limitRanges, FieldWithin, List.find?_eq_none]

theorem limitsBroken_isNone (x : Limits) : (limitsBroken x).isNone = true ↔ ∀ p ∈ limitPairs x, p.1 = true := by
  simp [limitsBroken, limitPairs, limitRelations, List.find?_eq_none]

/-- R175: the check of a record says that every range and relation is obeyed. -/
theorem limitsObey_iff (x : Limits) : limitsObey x = true ↔ LimitsSound x := by
  rw [limitsObey, Bool.and_eq_true, limitsOutOfRange_isNone, limitsBroken_isNone]

end Sys2Proof.Machine
end

