-- ==== Sys2Proof/Laws/Requests.lean ====
section
/-! SUPPORT. What the pieces of a request are as whole states: numbers that name lines and tanks, a port that is ready,
replies, one write of a sequence state and of target_eff with the notice it brings. -/

namespace Sys2Proof.Machine

theorem lineOf_lineNumber (l : LineId) : lineOf (lineNumber l) = some l := by revert l; decide

theorem tankOf_tankNumber (l : TankId) : tankOf (tankNumber l) = some l := by revert l; decide

theorem lineOf_out (n : Nat) (h : n = 0 ∨ 4 < n) : lineOf n = none := by
  unfold lineOf
  rw [List.find?_eq_none]
  intro l hl
  have := l.2
  have : lineNumber l ≠ n := by unfold lineNumber; omega
  simpa using this

theorem lineOf_some (n : Nat) (l : LineId) (h : lineOf n = some l) : n = lineNumber l := by
  have := List.find?_some h
  simpa [eq_comm] using this

theorem State.lineRequest_ready {s : State} (h : s.phase = .running) (kw : String) (l : LineId) (body) :
    s.lineRequest kw (lineNumber l) body = body s l [kw, numText (lineNumber l)] := by
  simp [State.lineRequest, State.afterStartup, h, State.onLine, lineOf_lineNumber]

theorem State.drained_ready {s : State} (h : Ready s) : s.drained = s := s.drained_of_none h.2

theorem vset_vset {α : Type} {n : Nat} (v : Vector α n) (i : Fin n) (x y : α) : vset (vset v i x) i y = vset v i y := by
  unfold vset; ext k hk; simp [Vector.getElem_set]

theorem noticesWith_twice (s : State) (n : Notice) (t : State) (h : t.notices = noticesWith s n)
    (hm : t.port.mask = s.port.mask) :
    noticesWith t n = noticesWith s n := by
  unfold noticesWith at *
  rw [h, hm]
  by_cases a : n ∈ s.notices <;> by_cases b : n.allowed s.port.mask = true <;> simp_all

theorem State.take_eq (s : State) (a b : List String) : s.take a b = { s with port := replied s ("=" :: a ++ b) } := rfl

theorem State.refuse_eq (s : State) (a b : List String) : s.refuse a b = { s with port := replied s ("?" :: a ++ b) } := rfl

theorem State.answer_eq (s : State) (a : List String) : s.answer a = { s with port := replied s a } := rfl

theorem State.modSeq_eq (s : State) (l : LineId) (f : Seq → Seq) :
    s.modSeq l f = { s with
      seqs := vset s.seqs l { f (s.seq l) with pump := pumpPermit (f (s.seq l)) s.esd.loop }
      notices := if ({ f (s.seq l) with pump := pumpPermit (f (s.seq l)) s.esd.loop } : Seq) = s.seq l then
        s.notices else noticesWith s (.line l) } := by
  unfold State.modSeq
  simp only []
  split
  · next h => simp [h]
  · next h => simp only [State.notify_eq]; rfl

theorem State.setTarget_eq (s : State) (l : LineId) (t) (h : (s.seq l).state ≠ .delivering) :
    s.setTarget l t = { s with
      rates := vset s.rates l { s.rate l with eff := t.map (·.1), governing := t.map (·.2) }
      notices := if (s.rate l).governing = t.map (·.2) then s.notices else noticesWith s (.line l) } := by
  unfold State.setTarget
  have : ¬ ((s.seq l).state = .delivering ∧ (s.rate l).eff ≠ t.map (·.1)) := fun a => h a.1
  simp only [this, if_false]
  split
  · rfl
  · rw [State.notify_eq]; rfl

end Sys2Proof.Machine
end

