-- ==== Sys2Proof/Laws/Time.lean ====
section
/-! SUPPORT. What the passing of time does to the part clock, and what a drive step does to the tracking timer. -/

namespace Sys2Proof.Machine

/-! ### The part clock (R184) -/

@[simp] theorem State.judgeStartup_clock (s : State) : s.judgeStartup.clock = s.clock := by
  unfold State.judgeStartup
  split <;> (try split) <;> simp [State.endStartup]

@[simp] theorem State.foldTotal_clock (s : State) (l : LineId) (f : Nat) : (s.foldTotal l f).clock = s.clock := by
  unfold State.foldTotal
  split <;> (try split) <;> rfl

@[simp] theorem State.lowerTarget_clock (s : State) (l : LineId) (q : Nat) : (s.lowerTarget l q).clock = s.clock := by
  unfold State.lowerTarget
  split <;> simp

@[simp] theorem State.endWrite_clock (s : State) (w : Write) : (s.endWrite w).clock = s.clock := by
  simp [State.endWrite]

@[simp] theorem State.judgeWrite_clock (s : State) : s.judgeWrite.clock = s.clock := by
  unfold State.judgeWrite
  split <;> (try split) <;> simp

@[simp] theorem State.judgeChange_clock (s : State) (k : TankId) : (s.judgeChange k).clock = s.clock := by
  unfold State.judgeChange State.expireChange
  split <;> (try split) <;> (try split) <;> (try split) <;> simp

theorem State.judgeChanges_clock (s : State) (ks : List TankId) : (ks.foldl State.judgeChange s).clock = s.clock := by
  induction ks generalizing s with
  | nil => rfl
  | cons k ks ih => rw [List.foldl_cons, ih, State.judgeChange_clock]

@[simp] theorem State.tick_clock (s : State) : s.tick.clock = s.clock + 1 := by
  simp [State.tick, State.judgeChanges_clock]

@[simp] theorem State.ticks_clock (s : State) (n : Nat) : (s.ticks n).clock = s.clock + n := by
  induction n with
  | zero => rfl
  | succ n ih => simp [State.ticks, ih, Nat.add_assoc]

/-- Time passes up to a moment, and not at all to one that is past. -/
@[simp] theorem State.passTo_clock (s : State) (moment : Nat) : (s.passTo moment).clock = max s.clock moment := by
  simp only [State.passTo, State.ticks_clock]
  omega

/-! ### The tracking timer (R28) -/

theorem Drive.onTrack_iff (d : Drive) (pos : Option Nat) :
    d.onTrack pos = true ↔ ∃ p, pos = some p ∧ (absDiff p d.setpoint ≤ 50
      ∨ ∃ y, d.lastPos = some y ∧ (y < d.setpoint ∧ y + d.progress ≤ p ∨ d.setpoint < y ∧ p + d.progress ≤ y)) := by
  cases pos with
  | none => simp [Drive.onTrack]
  | some p =>
    cases h : d.lastPos with
    | none => simp [Drive.onTrack, Drive.progressed, h]
    | some y => simp [Drive.onTrack, Drive.progressed, h]

/-- The tracking timer that a drive step leaves is the one R28 gives. -/
theorem Drive.trackStep_tracks (d : Drive) (pos : Option Nat) : TracksTo d d.setpoint pos (d.trackStep pos).track := by
  unfold TracksTo Drive.trackStep
  by_cases h : d.onTrack pos = true
  · exact .inl ⟨(d.onTrack_iff pos).mp h, by simp [h]⟩
  · exact .inr ⟨fun h' => h ((d.onTrack_iff pos).mpr h'), by simp [h]⟩

/-- R28 gives one tracking timer. -/
theorem TracksTo.unique {d : Drive} {sp : Nat} {pos : Option Nat} {m n : Nat} (hm : TracksTo d sp pos m)
    (hn : TracksTo d sp pos n) : m = n := by
  rcases hm with ⟨a, rfl⟩ | ⟨a, rfl⟩ <;> rcases hn with ⟨b, rfl⟩ | ⟨b, rfl⟩ <;> first | rfl | exact absurd a b | exact absurd b a

end Sys2Proof.Machine
end

