-- ==== Sys2Proof/Laws/Trips.lean ====
section
/-! SUPPORT. What a trip does to the drive, rate-control and measurement state of its line (R34, R55, R56, R76), in the terms of
Safety.lean. -/

namespace Sys2Proof.Machine

/-- R64, R14: a target_eff that is set outside DELIVERING changes the line's rate-control state alone. -/
theorem State.setTarget_line (s : State) (l : LineId) (t : Option (Nat × Governing)) (h : (s.seq l).state ≠ .delivering) :
    (s.setTarget l t).drive l = s.drive l ∧ (s.setTarget l t).meas l = s.meas l
      ∧ (s.setTarget l t).rate l = { s.rate l with eff := t.map (·.1), governing := t.map (·.2) } := by
  unfold State.setTarget
  simp only [h, false_and, if_false]
  split <;> simp

/-- R76, R14: what leaving DELIVERING does to a line. -/
theorem State.leaveDelivering_line (s : State) (l : LineId) :
    (s.leaveDelivering l).drive l = s.drive l
      ∧ (s.leaveDelivering l).meas l = (if (s.seq l).state = .delivering then
          { s.meas l with steady := false, inRun := 0, outRun := 0 } else s.meas l)
      ∧ (s.leaveDelivering l).rate l =
          (if (s.seq l).state = .delivering then { s.rate l with surgeRun := 0, maxRun := 0 } else s.rate l) := by
  unfold State.leaveDelivering State.endSteady
  by_cases h : (s.seq l).state = .delivering <;> by_cases g : (s.meas l).steady = true <;> simp [h, g]

/-- R34: what abandoning a stroke test does to a line. -/
theorem State.abandonStroke_line (s : State) (l : LineId) :
    (s.abandonStroke l).meas l = s.meas l ∧ (s.abandonStroke l).rate l = s.rate l
      ∧ (s.abandonStroke l).drive l =
        (if (s.seq l).state = .stroking then (s.drive l).endStroke .abandoned else s.drive l) := by
  unfold State.abandonStroke
  by_cases h : (s.seq l).state = .stroking <;> simp [h]

/-- R55, R56: the drive, rate-control and measurement state of a line that a trip cause takes into TRIPPING. -/
theorem State.addTrip_line (s : State) (l : LineId) (c : TripCause) (h : (s.seq l).state.trips = true)
    (hc : c ∉ (s.seq l).trips) :
    (s.addTrip l c).drive l = cutDrive (s.seq l).state (s.drive l) (s.drive l).lastPos
      ∧ (s.addTrip l c).rate l = trippedRate (s.seq l).state (s.rate l)
      ∧ (s.addTrip l c).meas l = (if (s.seq l).state = .delivering then
          { s.meas l with steady := false, inRun := 0, outRun := 0 } else s.meas l) := by
  have hd : (s.seq l).state ≠ .disconnected := fun e => by rw [e] at h; cases h
  simp only [State.addTrip, hd, hc, or_self, if_false, h, if_true]
  unfold State.enterTripping State.dropTarget
  have e : ∀ t : State, (t.abandonStroke l).seq = t.seq := fun t => by
    funext k; unfold State.abandonStroke; split <;> simp
  generalize hs : (s.modSeq l _).raiseAlarm _ _ = t
  have q : (t.seq l).state = (s.seq l).state := by rw [← hs]; simp
  obtain ⟨d, m, r⟩ := State.setTarget_line ((((t.abandonStroke l).leaveDelivering l).modSeq l fun q =>
    { q with state := .tripping, permit := false, holds := [] }).modDrive l Drive.cut) l none (by simp)
  obtain ⟨d', m', r'⟩ := State.leaveDelivering_line (t.abandonStroke l) l
  obtain ⟨m'', r'', d''⟩ := State.abandonStroke_line t l
  simp only [State.modRate_drive, State.modRate_rate, State.modRate_meas, d, m, r, State.modDrive_drive, State.modDrive_rate,
    State.modDrive_meas, State.modSeq_drive, State.modSeq_rate, State.modSeq_meas, d', m', r', d'', m'', r'', e, q]
  have f : t.drive l = s.drive l ∧ t.rate l = s.rate l ∧ t.meas l = s.meas l := by rw [← hs]; simp
  rw [f.1, f.2.1, f.2.2]
  cases (s.seq l).state <;> simp [cutDrive, trippedRate, Drive.cut, Drive.endStroke]

end Sys2Proof.Machine
end

