-- ==== Sys2Proof/WellFormed.lean ====
section
/-! DEFINITION. Which commands can come from the connections of the part: number fields of 1 to 9 digits (R159), readings
within the ranges the transmitters are scaled to (00_scope.md, Units and numbers), telegrams no longer than a length byte
can say (R174), characters of 8-bit codes (R160). No meaning depends on the check: every meaning is total. -/

namespace Sys2Proof

/-- A number of 1 to 9 digits (R159). -/
def numOk (n : Nat) : Bool := n < 1000000000

/-- A number field whose number, if any, has 1 to 9 digits. -/
def numFieldOk : NumField → Bool
  | none => true
  | some n => numOk n

/-- A reading within its scaled range, or out of range altogether. -/
def readingOk (limit : Nat) : Option Nat → Bool
  | none => true
  | some n => n ≤ limit

/-- The ranges of a sample event: pressure 0 to 2,500 kPa, stretch 0 to 3,000 mm, position 0 to 1000 permille. -/
def Sample.ok (s : Sample) : Bool :=
  readingOk 2500 s.pressure && readingOk 3000 s.stretch && readingOk 1000 s.position

/-- Text of 8-bit characters without a line feed. -/
def textOk (t : String) : Bool := t.toList.all fun c => c.toNat < 256 && c != '\n'

/-- A telegram whose length a length byte can give (R174). -/
def telegramOk (t : List Byte) : Bool := t.length < 256

def Field.ok : Field → Bool
  | .num n => numOk n
  | .word w => textOk w

def ObjectWord.ok : ObjectWord → Bool
  | .line n => numOk n
  | .tank n => numOk n
  | .link | .loop | .part | .other => true

/-- The check of one command's operands. -/
def Instr.ok : Instr → Bool
  | .sampleEvent _ s => s.ok
  | .sensorFault _ | .overpressure _ | .stretchWarnClear _ | .stretchTrip _ | .enterSteady _ | .flowUnsteady _
  | .trackingCheckFail _ | .openTimeout _ | .settleEnd _ | .closeTimeout _ | .takeover _ => true
  | .connect l g => numOk l && numOk g
  | .disconnect l | .stroke l | .permit l | .permitConfirm l | .hold l | .resume l | .finish l | .clear l
  | .clearTank l | .readLine l | .readTank l | .readLimits l => numOk l
  | .strokeset l t => numOk l && numFieldOk t
  | .start l r => numOk l && numFieldOk r
  | .rate l r => numOk l && numFieldOk r
  | .loop l m => numOk l && (match m with | some (.set o) => numOk o | _ => true)
  | .assign l ts => numOk l && ts.all numFieldOk
  | .release l ts => numOk l && (match ts with | .list xs => xs.all numFieldOk | .all => true)
  | .fill t f => numOk t && numFieldOk f
  | .sound t v _ => numOk t && numFieldOk v
  | .ack os _ => (os.getD []).all ObjectWord.ok
  | .set fs => fs.all Field.ok
  | .limits l vs => numOk l && vs.all numFieldOk
  | .mask ws => ws.all textOk
  | .recordRejected t | .heldLine t => textOk t
  | .headerReply t | .entryReply t | .entryReplyMore t | .continuation t | .levelReply t | .permitReply t
  | .adviceReply t | .aliveReply t => telegramOk t
  | .linkstart | .gaugingManual | .gaugingLinked | .esd | .clearAll | .lock | .unlock | .restart | .readStatus
  | .readTanks | .readSet | .replySent | .noticeSent | .continuationTimeout | .replyWindowExpired | .linkLost
  | .linkRecovered | .loopReadingChange _ | .farLoopReadingChange _ | .keyInputChange _ | .changeoverLate _
  | .limitsWriteEnd | .powerOn _ _ | .resetInput _ _ | .startupEnd => true

/-- A command that can come from the connections of the part. -/
abbrev Instr.WellFormed (i : Instr) : Prop := i.ok = true

end Sys2Proof
end

