-- ==== Sys2Proof/Tests/Slice0.lean ====
section
/-! SUPPORT. The model's own tests: ill-formed commands that the check refuses, the worked figures of the manual, one or two
tests for each command, and for each statement with hypotheses a state and operands that meet them together. -/

namespace Sys2Proof.Tests

open Sys2Proof Sys2Proof.Machine

/-! ### Ill-formed commands -/

/-- A telegram longer than a length byte can say. -/
def longTelegram : List Byte := List.replicate 256 0x00#8

theorem test_ok_accepts : (Instr.start 1 (some 999999999)).ok = true := by decide
theorem test_ok_sample : (Instr.sampleEvent 0 { pulses := 0, pressure := some 2501, stretch := none, position := none }).ok = false := by decide
theorem test_ok_stretch : (Instr.sampleEvent 0 { pulses := 0, pressure := none, stretch := some 3001, position := none }).ok = false := by decide
theorem test_ok_position : (Instr.sampleEvent 0 { pulses := 0, pressure := none, stretch := none, position := some 1001 }).ok = false := by decide
theorem test_ok_number : (Instr.connect 1000000000 1).ok = false ∧ (Instr.connect 1 1000000000).ok = false := by decide
theorem test_ok_one_number : (Instr.hold 1000000000).ok = false := by decide
theorem test_ok_strokeset : (Instr.strokeset 1 (some 1000000000)).ok = false := by decide
theorem test_ok_start : (Instr.start 1 (some 1000000000)).ok = false := by decide
theorem test_ok_rate : (Instr.rate 1 (some 1000000000)).ok = false := by decide
theorem test_ok_loop : (Instr.loop 1 (some (.set 1000000000))).ok = false := by decide
theorem test_ok_assign : (Instr.assign 1 [some 1000000000]).ok = false := by decide
theorem test_ok_release : (Instr.release 1 (.list [some 1000000000])).ok = false := by decide
theorem test_ok_fill : (Instr.fill 1 (some 1000000000)).ok = false := by decide
theorem test_ok_sound : (Instr.sound 1 (some 1000000000) none).ok = false := by decide
theorem test_ok_ack : (Instr.ack (some [.line 1000000000]) none).ok = false := by decide
theorem test_ok_set : (Instr.set [.num 1000000000]).ok = false := by decide
theorem test_ok_limits : (Instr.limits 1 [some 1000000000]).ok = false := by decide
theorem test_ok_mask : (Instr.mask ["\n"]).ok = false := by decide
theorem test_ok_text : (Instr.recordRejected "\n").ok = false := by decide
set_option maxRecDepth 100000 in
theorem test_ok_telegram : (Instr.headerReply longTelegram).ok = false := by decide

/-! ### States -/

/-- Line 1 of the manual's worked figures (01_hose_lines_and_their_measurements.md, Worked figures: closure). -/
def record1 : Limits :=
  { pRated := 1500, qMax := 9000, k := 1500, vd := 400, f := 250, warnRun := 600, warnSettle := 900, tripLimit := 1400,
    tMin := 80, tMax := 600, startOpening := 200, loopStep := 5, qTop := 2000, qCap := 3000 }

/-- A part that runs, with line 1's record SOUND and both loops closed. -/
def part : State :=
  { State.reset with
    clock := 1000, phase := .running
    esd := { contact := .closed, loop := .closed, far := .closed }
    store := { State.reset.store with
      records := vset State.reset.store.records 0 { fields := some record1, crc := 0, status := .sound } } }

def withSeq (f : Seq → Seq) (s : State) : State := { s with seqs := vset s.seqs 0 (f (s.seq 0)) }
def withRate (f : Rate → Rate) (s : State) : State := { s with rates := vset s.rates 0 (f (s.rate 0)) }
def withMeas (f : Meas → Meas) (s : State) : State := { s with meass := vset s.meass 0 (f (s.meas 0)) }
def withDrive (f : Drive → Drive) (s : State) : State := { s with drives := vset s.drives 0 (f (s.drive 0)) }
def withTank (t : TankId) (r : Tank) (s : State) : State := { s with tanks := vset s.tanks t (some r) }
def withLink (f : Link → Link) (s : State) : State := { s with link := f s.link }
def withPort (f : Port → Port) (s : State) : State := { s with port := f s.port }

/-- Line 1 in a state, grade 2, its drive on, its record in force. -/
def lineAt (st : LineState) : State :=
  withDrive (fun d => { d with enabled := true }) (withSeq (fun q => { q with state := st, grade := some 2 }) part)

/-- Tank 5 of the worked evaluation (06_overflow_watch.md), not lined up. -/
def tank5 : Tank :=
  { name := none, grade := 2, cap := 850000, hh := 950, fl := 900, vRep := some 741200, mTime := some 970,
    valve := .opened, fault := some false, line := none, timer := none, pendingEntry := none, ring := [2400],
    anchor := none, results := none, state := .listed, topped := false, stale := false, conflict := false }

/-- Tanks 5 and 7 FILLING on line 1. -/
def outlets (s : State) : State :=
  let r := { tank5 with state := .filling, line := some 0 }
  { withTank 4 r (withTank 6 r s) with lineups := vset s.lineups 0 [4, 6] }

/-- Line 1 delivering 6,000 L/min at 600 kPa and 625 permille into tanks 5 and 7 (06_overflow_watch.md). -/
def delivering : State :=
  outlets (withLink (fun k => { k with state := .good, rev := some 5, poll := [4, 6] })
    (withDrive (fun d => { d with setpoint := 625, tMeas := some 240 })
      (withRate (fun r => { r with target := 6000, eff := some 6000, governing := some .console })
        (withMeas (fun m => { m with
            window := [50, 50, 50, 50, 50], q := some 6000, pressure := some 600, stretch := some 100, position := some 625,
            tClose := some 150, qSurge := some 36000, tC := some 150, watchQ := some 6000, allowed := 44 })
          (withSeq (fun q => { q with permit := true, pump := true }) (lineAt .delivering))))))

/-- `delivering` in another line state. -/
def paused (st : LineState) (holds : List HoldCause) : State :=
  withSeq (fun q => { q with state := st, holds := holds, pump := decide (st = .holding) }) delivering

/-- Line 1 CONNECTED and ready to start. -/
def startable : State :=
  withDrive (fun d => { d with setpoint := 0 }) (withRate (fun r => { r with eff := none, governing := none })
    (withSeq (fun q => { q with state := .connected, pump := false }) delivering))

/-- Line 1 in a stroke test. -/
def stroking (stage : Stage) (stageTimer : Nat) (strokeTimer : Option Nat) : State :=
  withDrive (fun d => { d with stage := some stage, stageTimer := some stageTimer, strokeTimer := strokeTimer })
    (lineAt .stroking)

/-- An exchange in flight. -/
def asking (q : Query) (s : State) : State :=
  withLink (fun k => { k with exchange := some { query := q, refresh := false, window := 1, part := none } }) s

/-- A link that acquires, with an exchange in flight. -/
def acquiring (q : Query) (a : Acquisition) : State :=
  withLink (fun k => { k with state := .acquiring, acq := some a }) (asking q part)

/-- The one entry of a directory of one, as read. -/
def entry5 : DirEntry := { number := 5, grade := 2, cap := 850000, hh := 950, name := none }

/-- An ENTRY reply that awaits its continuation. -/
def partReply : Exchange := { query := .entry 1, refresh := false, window := 1, part := some { stop := false, entry := entry5 } }

/-- An acquisition of one entry whose reply awaits its continuation. -/
def continuing : State :=
  withLink (fun k => { k with exchange := some partReply })
    (acquiring (.entry 1) { header := some { count := 1, revision := 5 }, next := 1, attempts := 0, entries := [] })

/-- Line 1 TRIPPED with its conditions gone. -/
def tripped : State :=
  withMeas (fun m => { m with pressure := some 100, stretch := some 100, position := some 20 })
    (withSeq (fun q => { q with trips := [.overpressure] }) (lineAt .tripped))

/-- Tank 1 in OVERFILL, its volume back below V_hh. -/
def overfilled : State :=
  { withTank 0 { tank5 with state := .overfill, vRep := some 807499 } part with
    overfills := [0], device := [.overfill 0], esd := { part.esd with contact := .opened } }

/-- A part whose console reply waits. -/
def waiting : State := withPort (fun p => { p with waiting := some ["=", "LOCK", "LOCK", "SET"] }) part

/-- The part with the key ON and the lock CLEAR. -/
def unlocked : State := { part with key := true, store := { part.store with lock := false } }

/-- A line-limits write in flight for line 1 with another meter factor and a lower max flow. -/
def writing : State :=
  { unlocked with store := { unlocked.store with write := some { line := 0, record := { record1 with f := 200, qMax := 5000 }, since := 998 } } }

/-- The next state of a command. -/
def after (c : Instr) (s : State) : State :=
  match exec c s with
  | .next t => t
  | .fault _ | .refused _ => s

/-- The reply a command leaves waiting. -/
def reply (c : Instr) (s : State) : Option (List String) := (after c s).port.waiting

/-- A sample of line 1's worked figures. -/
def sample (pulses position : Nat) : Sample :=
  { pulses := pulses, pressure := some 600, stretch := some 100, position := some position }

/-! ### Worked figures -/

set_option maxRecDepth 100000 in
/-- R160: "The nine characters `123456789` give the check 29B1." -/
theorem test_crc : crc16 (charBytes "123456789".toList) = 0x29B1#16 := by decide

/-- R159: every record ends in a carriage return and a line feed. -/
theorem test_record_end : (written ["!", "READY"]).toList.reverse.take 2 = ['\n', '\r'] := by decide +kernel

/-- 01, Worked figures: flow and total. -/
theorem test_flow : flowOf [50, 50, 50, 52, 49] 250 = 6024 ∧ flowOf [50, 52, 49, 0, 0] 250 = 3624 := by decide

/-- 01, Worked figures: steady. -/
theorem test_band : steadyBand 6000 50 = 300 ∧ steadyBand 2000 50 = 100 ∧ steadyBand 800 50 = 50 := by decide

/-- 01, Worked figures: closure, at 600 and at 1,350 kPa. -/
theorem test_closure :
    (delivering.meas 0).tCloseNow record1 (some 240) = 150 ∧ (delivering.meas 0).qSurgeNow record1 = 36000
      ∧ ({ delivering.meas 0 with pressure := some 1350 } : Meas).tCloseNow record1 (some 240) = 600
      ∧ ({ delivering.meas 0 with pressure := some 1350 } : Meas).qSurgeNow record1 = 6000 := by decide

/-- 02, Worked figures: ramps. -/
theorem test_ramps :
    halfSpeedTime 240 0 200 = 96 ∧ (Drive.initial.rampTo 200 96).ramp = some { target := 200, step := 5 }
      ∧ ((delivering.drive 0).rampTo 0 150).ramp = some { target := 0, step := 9 } := by decide

/-- 02, Worked figures: a sticking valve, and 11: A 44 ds, p 4 permille. -/
theorem test_tracking : (delivering.drive 0).allowance = 44 ∧ (delivering.drive 0).progress = 4 := by decide

/-- 04, Worked figures: the loop to its target. -/
theorem test_auto_step :
    autoStep 6000 5930 5 620 = 625 ∧ autoStep 6000 5960 5 625 = 625 ∧ autoStep 2000 6000 5 625 = 620
      ∧ autoStep 6000 6400 5 700 = 695 := by decide

/-- R67: "clamped to 50..1000": a fall from under 50 ends at 50, and a setpoint at an end of the range is left there. -/
theorem test_auto_clamp : autoStep 2000 6000 5 30 = 50 ∧ autoStep 2000 6000 5 50 = 50 ∧ autoStep 6000 5000 5 1000 = 1000 := by decide

/-- 06, Worked evaluation: tank 5 on line 1. -/
theorem test_evaluation :
    ((delivering.evaluate 4).tank 4).bind (·.results) = some
      { rm := 3000, age := 30, vNow := 741350, room := 23650, stop := 875, margin := 22775, endVol := 742225,
        tau := some 4555, time := 1000 } := by decide

/-- 06, Worked figures: filling the ring, report i. -/
theorem test_ring :
    (Tank.estimate true 13 4 705935 2500
        { tank5 with ring := [2400, 2460, 2340, 2430], anchor := some { volume := 705100, time := 2300, epoch := 13 } }).rEst
      = some 2433 := by decide

/-- 10, Worked sequence: the first LIMITS after UNLOCK is refused RANGE QTOP. -/
theorem test_limits_range :
    reply (.limits 3 (([1200, 6000, 2000, 300, 400, 500, 800, 1200, 60, 500, 150, 4, 7000, 2500] : List Nat).map some)) unlocked
      = some ["?", "LIMITS", "3", "RANGE", "QTOP"] := by decide

/-- R162, R163: SYNTAX names the line or tank number of a request that has one, and no other field. -/
theorem test_syntax_number :
    (part.takeFields ["LINKSTART", "5"]).port.waiting = some ["?", "LINKSTART", "SYNTAX"]
      ∧ (part.takeFields ["READ", "SET", "5"]).port.waiting = some ["?", "READ", "SET", "SYNTAX"]
      ∧ (part.takeFields ["HOLD", "1", "2"]).port.waiting = some ["?", "HOLD", "1", "SYNTAX"] := by decide

/-- The model's choice (log 25): CLEAR with a field of ten digits names no form; the ninth digit is the last of a number. -/
theorem test_clear_form :
    (part.takeFields ["CLEAR", "1234567890"]).port.waiting = some ["?", "CLEAR", "UNKNOWN"]
      ∧ (part.takeFields ["CLEAR", "123456789"]).port.waiting = some ["?", "CLEAR", "123456789", "RANGE"] := by decide

/-! ### Sample events and what comes about in them -/

/-- 01, Worked figures: flow and closure. -/
theorem test_sample_event :
    let t := after (.sampleEvent 0 (sample 50 625)) delivering;
    (t.meas 0).q = some 6000 ∧ (t.meas 0).tC = some 150 ∧ (t.meas 0).pTot = 50 ∧ (t.drive 0).setpoint = 625 := by decide

/-- 02, Worked sequence: a stroke test, sample 256. -/
theorem test_stroke_passes :
    let t := after (.sampleEvent 0 (sample 0 16)) (stroking .closeMove 244 (some 238));
    (t.seq 0).state = .connected ∧ (t.drive 0).tMeas = some 250 ∧ t.notices = [.doneStroke 0, .line 0] := by decide

theorem test_sensor_fault :
    ((after (.sensorFault 0) (withMeas (fun m => { m with stretchOut := 5 }) delivering)).seq 0).trips = [.sensorFault] := by decide

theorem test_overpressure :
    ((after (.overpressure 0) (withMeas (fun m => { m with overRun := 3 }) delivering)).seq 0).state = .tripping := by decide

theorem test_stretch_warn_clear :
    let s := withMeas (fun m => { m with warn := true, clearRun := 50 }) (paused .held [.operator, .stretch]);
    ((after (.stretchWarnClear 0) s).seq 0).holds = [.operator] := by decide

theorem test_stretch_trip :
    let t := after (.stretchTrip 0) (withMeas (fun m => { m with tripRun := 2 }) delivering)
    t.esd.contact = .opened ∧ t.device = [.stretchTrip 0] ∧ (t.seq 0).trips = [.stretchTrip] := by decide

/-- 01, Worked figures: steady; the epoch goes from 6 to 7. -/
theorem test_enter_steady :
    let t := after (.enterSteady 0) (withMeas (fun m => { m with inRun := 25, epoch := 6 }) delivering);
    (t.meas 0).steady = true ∧ (t.meas 0).epoch = 7 ∧ (t.meas 0).band = .running := by decide

/-- R15: a SET of the steady count takes effect at the next sample event. -/
theorem test_enter_steady_waits :
    let s := after (.set [.word "STEADYN", .num 20]) (withMeas (fun m => { m with inRun := 22 }) delivering);
    s.settings.steadyn = 20 ∧ after (.enterSteady 0) s = s
      ∧ ((after (.sampleEvent 0 (sample 50 625)) s).meas 0).steady = true := by decide

theorem test_flow_unsteady :
    let t := after (.flowUnsteady 0) (withMeas (fun m => { m with steady := true, outRun := 3 }) delivering);
    (t.meas 0).steady = false ∧ t.alarms.map (·.kind) = [.flowUnsteady] ∧ t.horn = true := by decide

/-- 02, Worked figures: a sticking valve; 46 ds fail the check. -/
theorem test_tracking_check_fail :
    let t := after (.trackingCheckFail 0) (withDrive (fun d => { d with track := 46 }) (paused .holding [.operator]));
    (t.seq 0).state = .tripping ∧ (t.seq 0).trips = [.valveTravel] ∧ (t.seq 0).holds = [] := by decide

theorem test_tracking_check_holds :
    ((after (.trackingCheckFail 0) (withDrive (fun d => { d with track := 44 }) (paused .holding [.operator]))).seq 0).state
      = .holding := by decide

/-- R28, R34: STROKESET lowers the allowance for the drive steps that follow, not for the one already checked. -/
theorem test_tracking_check_waits :
    let s := after (.strokeset 1 (some 60)) (withDrive (fun d => { d with track := 30, tMeas := some 60, tOvr := some 1800 })
      (withMeas (fun m => { m with allowed := 200 }) (paused .holding [])));
    (s.drive 0).allowance < 30 ∧ after (.trackingCheckFail 0) s = s := by decide

theorem test_open_timeout :
    ((after (.openTimeout 0) (stroking .openMove 1800 none)).drive 0).lastStroke = some (.failed .openTimeout) := by decide

theorem test_settle_end :
    ((after (.settleEnd 0) (stroking .settle 20 none)).drive 0).stage = some .closeMove := by decide

theorem test_close_timeout :
    ((after (.closeTimeout 0) (stroking .closeMove 1800 (some 1700))).seq 0).state = .connected := by decide

/-- 04, Worked figures: a pressure limit and a takeover. -/
theorem test_takeover :
    let t := after (.takeover 0) (withRate (fun r => { r with mode := .freeze, surgeRun := 5 }) delivering);
    (t.rate 0).mode = .auto ∧ (t.rate 0).mark = some .surge ∧ (t.rate 0).surgeRun = 0 := by decide

/-! ### Requests of a line -/

theorem test_connect : reply (.connect 1 2) part = some ["=", "CONNECT", "1", "CONNECTED", "2"] := by decide
theorem test_connect_blank : reply (.connect 2 2) part = some ["?", "CONNECT", "2", "BLANK"] := by decide

theorem test_disconnect :
    let t := after (.disconnect 1) startable;
    (t.seq 0).state = .disconnected ∧ t.lineup 0 = [] ∧ t.tankState 4 = some .listed := by decide

/-- 02, Worked sequence: a stroke test. -/
theorem test_stroke : reply (.stroke 1) (lineAt .connected) = some ["=", "STROKE", "1", "STROKING"] := by decide
theorem test_stroke_busy : reply (.stroke 1) (stroking .settle 4 none) = some ["?", "STROKE", "1", "BUSY"] := by decide

theorem test_strokeset : (after (.strokeset 1 (some 5)) delivering).port.waiting
    = some ["=", "STROKESET", "1", "20", "240", "CLAMPED", "HELD_TO_MEASURED"] := by decide

theorem test_permit : reply (.permit 1) startable = some ["=", "PERMIT", "1", "QUERIED"] := by decide
theorem test_permit_confirm : reply (.permitConfirm 1) startable = some ["?", "PERMIT", "1", "LINK"] := by decide

/-- 03 and 11: START of line 1 at 6,000; the opening ramp has step 5. -/
theorem test_start :
    let t := after (.start 1 (some 6000)) startable
    t.port.waiting = some ["=", "START", "1", "OPENING", "6000"] ∧ (t.drive 0).ramp = some { target := 200, step := 5 }
      ∧ (t.seq 0).pump = true := by decide

theorem test_start_unchecked : reply (.start 1 (some 6000)) (withDrive (fun d => { d with tMeas := none }) startable)
    = some ["?", "START", "1", "UNCHECKED"] := by decide

theorem test_rate : reply (.rate 1 (some 9500)) delivering
    = some ["=", "RATE", "1", "DELIVERING", "9000", "9000", "CONSOLE", "CLAMPED"] := by decide

/-- 04: LOOP 1 FREEZE. -/
theorem test_loop : reply (.loop 1 (some .freeze)) delivering = some ["=", "LOOP", "1", "FREEZE"] := by decide

/-- R70: the mode that LOOP sets acts from the next drive step, so that TAKEOVER before it changes nothing. -/
theorem test_takeover_waits :
    let s := after (.loop 1 (some .freeze)) (withRate (fun r => { r with throttle := true }) delivering);
    (s.rate 0).mode = .freeze ∧ after (.takeover 0) s = s
      ∧ ((after (.sampleEvent 0 (sample 50 625)) s).rate 0).mode = .auto := by decide

/-- 02: the closure ramp from 625 over 150 ds has step 9. -/
theorem test_hold :
    let t := after (.hold 1) delivering
    t.port.waiting = some ["=", "HOLD", "1", "HOLDING", "OPERATOR"] ∧ (t.drive 0).ramp = some { target := 0, step := 9 } := by decide

theorem test_resume : reply (.resume 1) (paused .held [.operator]) = some ["=", "RESUME", "1", "OPENING"] := by decide
theorem test_resume_causes : reply (.resume 1) (paused .held [.operator, .tankFull])
    = some ["?", "RESUME", "1", "CAUSES", "TANK_FULL"] := by decide

theorem test_finish : reply (.finish 1) delivering = some ["=", "FINISH", "1", "FINISHING"] := by decide

theorem test_finish_held :
    let t := after (.finish 1) (paused .held [.operator]);
    (t.seq 0).state = .connected ∧ t.tankState 4 = some .releasing ∧ (t.seq 0).permit = false := by decide

theorem test_clear : reply (.clear 1) tripped = some ["=", "CLEAR", "1", "CONNECTED"] := by decide

/-! ### Requests of a tank -/

theorem test_assign : reply (.assign 1 [some 5]) (withTank 4 { tank5 with valve := .closed } (lineAt .connected))
    = some ["=", "ASSIGN", "1", "5", "ASSIGNED"] := by decide

theorem test_release : (after (.release 1 .all) startable).lineup 0 = [4, 6] := by decide

/-- 05: the fill limit is clamped to hh - 20. -/
theorem test_fill : reply (.fill 5 (some 940)) delivering = some ["=", "FILL", "5", "930", "790500", "CLAMPED"] := by decide

theorem test_sound_overfill :
    let t := after (.sound 5 (some 807500) (some .opened)) (withLink (fun k => { k with gauging := .manual }) delivering)
    t.tankState 4 = some .overfill ∧ t.esd.contact = .opened ∧ t.lineup 0 = [6] := by decide

theorem test_clear_tank :
    let t := after (.clearTank 1) overfilled
    t.tankState 0 = some .listed ∧ t.overfills = [] ∧ t.device = [.overfill 0] ∧ t.esd.contact = .opened := by decide

/-! ### Requests of the link, the trip unit, the settings, the store and the port -/

theorem test_linkstart :
    (after .linkstart part).link.exchange = some { query := .header, refresh := false, window := 1, part := none } := by decide

theorem test_gauging_manual : ((after .gaugingManual delivering).rate 0).eff = some 3000 := by decide
theorem test_gauging_linked : reply .gaugingLinked part = some ["?", "GAUGING", "LINK", "DOWN"] := by decide
theorem test_esd : reply .esd part = some ["=", "ESD", "OPEN", "CONSOLE_ESD"] := by decide
theorem test_clear_all : reply .clearAll overfilled = some ["?", "CLEAR", "ALL", "TRIP", "OVERFILL", "1"] := by decide
theorem test_ack : reply (.ack none none) (after .esd part |> withPort fun p => { p with waiting := none })
    = some ["=", "ACK", "1", "0", "OFF"] := by decide
theorem test_set : reply (.set [.word "ESTW", .num 7]) part = some ["=", "SET", "ESTW", "8", "CLAMPED"] := by decide
theorem test_limits :
    reply (.limits 3 (([1200, 6000, 2000, 300, 400, 500, 800, 1200, 60, 500, 150, 4, 1500, 2500] : List Nat).map some)) unlocked
      = some ["=", "LIMITS", "3", "WRITING"] := by decide
theorem test_lock : reply .lock part = some ["=", "LOCK", "LOCK", "SET"] := by decide
theorem test_unlock : reply .unlock part = some ["?", "UNLOCK", "LOCKED"] := by decide
theorem test_mask : (after (.mask ["NONE", "/", "ALARM", "DONE"]) part).port.mask
    = [.line, .tank, .link, .trip, .directory, .loop] := by decide
theorem test_restart : reply .restart delivering = some ["?", "RESTART", "STATE", "1"] := by decide

/-! ### READ -/

theorem test_read_status : ((reply .readStatus part).getD []).take 4 = ["=", "READ", "STATUS", "STARTUP=RUNNING"] := by decide
theorem test_read_line : ((reply (.readLine 1) delivering).getD []).take 6
    = ["=", "READ", "LINE", "1", "STATE=DELIVERING", "GRADE=2"] := by decide
theorem test_read_tank : reply (.readTank 16) part = some ["=", "READ", "TANK", "16", "STATE=ABSENT"] := by decide
theorem test_read_tanks : reply .readTanks part = some ["=", "READ", "TANKS", "-"] := by decide
theorem test_read_set : ((reply .readSet part).getD []).take 4 = ["=", "READ", "SET", "TTOP=3000"] := by decide
theorem test_read_limits : reply (.readLimits 2) part = some ["=", "READ", "LIMITS", "2", "BLANK"] := by decide

/-! ### The console port -/

set_option maxRecDepth 100000 in
theorem test_record_rejected : reply (.recordRejected "CONNECT 1 2 #0000") part = some ["?", "*", "CHECK"] := by decide
theorem test_reply_sent : (after .replySent waiting).port.waiting = none := by decide
theorem test_notice_sent : (after .noticeSent { part with notices := [.line 0, .trip] }).notices = [.trip] := by decide
theorem test_held_line : (after (.heldLine "LOCK #0000") waiting).port.held = some { text := "LOCK #0000", long := false } := by decide

/-! ### The ship link -/

set_option maxRecDepth 100000 in
theorem test_header_reply :
    (after (.headerReply (telegram [0x01, 0x00, 0x00, 0x10, 0x05])) (acquiring .header
      { header := none, next := 0, attempts := 2, entries := [] })).link.acq
      = some { header := some { count := 16, revision := 5 }, next := 1, attempts := 0, entries := [] } := by decide

set_option maxRecDepth 100000 in
/-- The one entry of a directory: tank 5, grade 2, 850,000 L, 950 permille. -/
theorem test_entry_reply :
    let t := after (.entryReply (telegram [0x02, 0x01, 0x00, 0x05, 0x02, 0x00, 0x0C, 0xF8, 0x50, 0x03, 0xB6])) (acquiring (.entry 1)
      { header := some { count := 1, revision := 5 }, next := 1, attempts := 0, entries := [] })
    t.link.state = .good ∧ t.link.rev = some 5 ∧ (t.tank 4).map (·.cap) = some 850000 ∧ t.link.poll = [4] := by decide

set_option maxRecDepth 100000 in
theorem test_continuation :
    ((after (.continuation (telegram [0x07, 0x01, 0x02, 0x34, 0x50])) continuing).tank 4).bind (·.name) = some "4P" := by decide

set_option maxRecDepth 100000 in
theorem test_entry_reply_more :
    ((after (.entryReplyMore (telegram [0x02, 0x01, 0x02, 0x05, 0x02, 0x00, 0x0C, 0xF8, 0x50, 0x03, 0xB6]))
        (asking (.entry 1) part)).link.exchange.bind (·.part)).map (·.entry.hh) = some 950 := by decide

theorem test_continuation_timeout :
    (after .continuationTimeout continuing).link.acq.map (·.attempts) = some 1 := by decide

set_option maxRecDepth 100000 in
/-- 06 and 11: the report of 757,900 L at age 20 ds puts tank 5 into TOPPING and line 1 under the topping rate. -/
theorem test_level_reply :
    let t := after (.levelReply (telegram [0x03, 0x05, 0x00, 0x00, 0x0B, 0x90, 0x8C, 0x01, 0x00, 0x14, 0x05])) (asking (.level 4) delivering)
    t.tankState 4 = some .topping ∧ (t.rate 0).eff = some 2000 ∧ (t.rate 0).governing = some .topping := by decide

set_option maxRecDepth 100000 in
theorem test_permit_reply :
    let t := after (.permitReply (telegram [0x04, 0x21, 0x00, 0x01])) (asking (.permit 0)
      (withLink (fun k => { k with state := .good }) (lineAt .connected)))
    (t.seq 0).permit = true ∧ vget t.link.outcomes 0 = some .granted := by decide

set_option maxRecDepth 100000 in
theorem test_advice_reply :
    (after (.adviceReply (telegram [0x05, 0x05, 0x01, 0x02])) (asking (.advice 4 .full) delivering)).link.stop = some true := by decide

set_option maxRecDepth 100000 in
theorem test_alive_reply :
    ((after (.aliveReply (telegram [0x06, 0x00, 0x01])) (asking .alive delivering)).seq 0).holds = [.ship] := by decide

theorem test_reply_window_expired : (after .replyWindowExpired (asking .alive delivering)).link.failRun = 1 := by decide

theorem test_link_lost :
    let t := after .linkLost (withLink (fun k => { k with failRun := 10 }) delivering)
    t.link.state = .lost ∧ (t.seq 0).state = .holding ∧ (t.seq 0).holds = [.link] := by decide

set_option maxRecDepth 100000 in
/-- R128: after SET LINKLOSS 5 a run of six is no loss until an exchange is counted: a failed one loses the link, a good
one resets the run. -/
theorem test_link_lost_waits :
    let s := after (.set [.word "LINKLOSS", .num 5]) (asking .alive (withLink (fun k => { k with failRun := 6 }) delivering));
    s.settings.linkloss = 5 ∧ after .linkLost s = s ∧ (after .replyWindowExpired s).link.state = .lost
      ∧ (after (.aliveReply (telegram [0x06, 0x00, 0x00])) s).link.failRun = 0
      ∧ (after (.aliveReply (telegram [0x06, 0x00, 0x00])) s).link.state = .good := by decide

theorem test_link_recovered :
    let s := withLink (fun k => { k with state := .lost, succRun := 3 }) (paused .held [.link]);
    (after .linkRecovered s).link.state = .good ∧ ((after .linkRecovered s).seq 0).holds = [] := by decide

/-! ### The field lines and time -/

theorem test_loop_reading :
    let t := after (.loopReadingChange .opened) delivering;
    (t.seq 0).state = .tripping ∧ (t.seq 0).trips = [.esdIn] ∧ (t.seq 1).trips = [] := by decide

theorem test_far_loop_reading : (after (.farLoopReadingChange .opened) part).device = [.esdIn] := by decide
theorem test_key : (after (.keyInputChange true) part).key = true := by decide

set_option maxRecDepth 100000 in
/-- A write that falls due on the way to tank 5's timeout ends on the way, and tank 7's timer expires at its own moment. -/
theorem test_changeover_late :
    let timed (since : Nat) (r : Tank) : Tank := { r with state := .releasing, timer := some { since, expired := none } }
    let s := { withTank 4 (timed 500 tank5) (withTank 6 (timed 499 tank5) writing) with clock := 1698 }
    let t := after (.changeoverLate 4) { s with store := { s.store with write := s.store.write.map fun w => { w with since := 1695 } } }
    t.clock = 1700 ∧ t.store.write = none ∧ t.alarms.map (·.kind) = [.changeoverLate, .changeoverLate]
      ∧ (t.tank 6).bind (·.timer) = some { since := 499, expired := some 1200 } := by decide

set_option maxRecDepth 100000 in
theorem test_limits_write_end :
    (after .limitsWriteEnd writing).limits 0 = some { record1 with f := 200, qMax := 5000 }
      ∧ (after .limitsWriteEnd writing).notices = [.doneLimits 0] := by decide

theorem test_power_on :
    (after (.powerOn .opened .opened) delivering).device = [.esdIn] ∧ (after (.powerOn .opened .opened) delivering).horn = true := by decide

theorem test_reset_input : (after (.resetInput .closed .closed) delivering).esd.contact = .opened := by decide

set_option maxRecDepth 100000 in
theorem test_startup_end :
    (after .startupEnd State.reset).esd.contact = .closed ∧ (after .startupEnd State.reset).notices = [.trip, .ready] := by decide

/-! ### Witnesses: states and operands that meet the hypotheses of each statement together -/

/-- A delivering line with a command waiting and an alarm entry, for the invariants. -/
def alive : State :=
  { delivering with
    pending := [.hold 1, .lock], notices := [.line 0], horn := true
    alarms := [{ kind := .strokeFailed, object := .line 0, acked := false, present := true, time := 7 }] }

theorem witness_StepRunsTheFrontCommand : alive.pending = [.hold 1, .lock] ∧ delivering.pending = [] := by decide

/-- `alive` takes a step to `t`. -/
theorem witness_step : ∃ t, step alive = .next t := ⟨_, rfl⟩
theorem witness_PumpPermitFollows : PumpsFollow alive := by decide
theorem witness_HornFollowsTheAlarms : HornFollows alive := by decide
theorem witness_AlarmSetStaysSound : AlarmsDistinct alive ∧ AlarmsLive alive := by decide
theorem witness_PendingNoticesStaySound : NoticesSound alive := by decide
theorem witness_CausesAndPermitsStayPlaced : HoldsPlaced alive ∧ TripsPlaced alive ∧ PermitsPlaced alive := by decide
theorem witness_DriveEnableFollowsTheState : DrivesEnabled alive := by decide
theorem witness_SettingsStayInRange : SettingsInRange alive := by decide
theorem witness_LinkCountsStayBounded : LinkBounded alive ∧ PollFollows alive := by decide

theorem delivering_lineups : LineupsSound delivering := by
  refine ⟨by decide, fun k r h => ?_, by decide⟩
  revert r; revert k; decide

theorem witness_LineupsStaySound : LineupsSound alive ∧ LineupsBounded alive := ⟨delivering_lineups, by decide⟩

theorem witness_LineupsStaySound_grade : LineupsClosed alive ∧ LineupsGraded alive ∧ (alive.seq 0).grade = some tank5.grade := by decide

theorem witness_SettingsStayInRange_lineups : LineupsSound alive := delivering_lineups

theorem witness_OverfillKeepsTheContactOpen : OverfillGuarded overfilled ∧ overfilled.tankState 0 = some .overfill :=
  ⟨⟨by decide, by decide, by decide, by decide⟩, by decide⟩

theorem witness_OverfillKeepsTheContactOpen_start : OverfillGuarded State.reset :=
  ⟨by decide, by decide, by decide, fun _ => ⟨by decide, by decide, by decide, by decide, by decide⟩⟩

theorem witness_TotalNeverFalls :
    delivering.port.held = none ∧ (delivering.seq 0).state ≠ .disconnected
      ∧ ((after (.sampleEvent 0 (sample 50 625)) delivering).seq 0).state ≠ .disconnected := by decide

theorem witness_TotalNeverFalls_step : ∃ t, exec (.sampleEvent 0 (sample 50 625)) delivering = .next t := ⟨_, rfl⟩

theorem witness_RefusalChangesOnlyTheReply :
    isRequest (.connect 2 2) = true ∧ part.port.waiting = none
      ∧ reply (.connect 2 2) part = some ("?" :: ["CONNECT", "2", "BLANK"]) := by decide

theorem witness_StartupRefusesRequests :
    isRequest .lock = true ∧ State.reset.phase = .starting ∧ State.reset.port.waiting = none := by decide

theorem witness_LineRequestsRefused :
    Ready part ∧ lineOpening (.hold 0) = some ("HOLD", 0) ∧ lineOpening (.hold 5) = some ("HOLD", 5)
      ∧ lineOpening (.hold 4) = some ("HOLD", lineNumber 3) ∧ refusedInState (.hold 4) (part.seq 3).state = true := by decide

/-- STROKE in a test, LIMITS of a HELD line with the key ON and the lock CLEAR, RESTART with a FINISHING line, and with none
but a write in flight. -/
theorem witness_LineRequestsRefused_rows :
    (Ready (stroking .settle 16 none) ∧ ((stroking .settle 16 none).seq 0).state = .stroking)
    ∧ (let s := { paused .held [] with key := true, store := { delivering.store with lock := false } };
      Ready s ∧ s.key = true ∧ s.store.lock = false ∧ (s.seq 0).state ∉ [.disconnected, .connected])
    ∧ (Ready (paused .finishing []) ∧ ((paused .finishing []).seq 0).state = .finishing)
    ∧ Ready writing ∧ (∀ l, (writing.seq l).state ∉ [.stroking, .opening, .delivering, .holding, .finishing])
    ∧ writing.store.write.isSome = true := by decide

theorem witness_ReadAnswersFromTheState :
    part.port.waiting = none ∧ State.reset.port.waiting = none ∧ ∀ k, part.tank k = none := by decide

theorem witness_WaitingReplyGoesFirst :
    isRequest .lock = true ∧ isRead .readSet = true ∧ waiting.port.waiting = some ["=", "LOCK", "LOCK", "SET"]
      ∧ waiting.port.held = none := by decide

theorem witness_SampleEventMeasures : LineupsSound delivering ∧ (delivering.seq 0).state ≠ .disconnected
    ∧ delivering.limits 0 = some record1 ∧ (part.seq 0).state = .disconnected :=
  ⟨delivering_lineups, by decide, by decide, by decide⟩

/-- What the measurement stage leaves of a part. -/
def measured (s : State) (pressure stretch : Nat) : State :=
  s.measureStage 0 { pulses := 50, pressure := some pressure, stretch := some stretch, position := some 625 }

/-- The runs of the measurement stage at and just past each figure: P_rated 1,500 kPa, W 900 in SETTLING, W - 50, the stretch
trip limit 1,400. -/
theorem witness_SampleEventMeasures_runs :
    AlarmsDistinct delivering ∧ (delivering.seq 0).state = .delivering ∧ delivering.limits 0 = some record1
      ∧ (let s := withMeas (fun m => { m with overRun := 2 }) delivering;
        ((measured s 1501 100).seq 0).trips = [.overpressure] ∧ ((measured s 1500 100).meas 0).overRun = 0)
      ∧ ((measured delivering 600 901).seq 0).holds = [.stretch] ∧ ((measured delivering 600 900).seq 0).state = .delivering
      ∧ (let s := withMeas (fun m => { m with warn := true, clearRun := 49 }) delivering;
        ((measured s 600 849).meas 0).warn = false ∧ ((measured s 600 850).meas 0).warn = true)
      ∧ (let s := withMeas (fun m => { m with tripRun := 1 }) delivering;
        ((measured s 600 1401).seq 0).state = .tripping ∧ ((measured s 600 1400).meas 0).tripRun = 0) := by decide

/-- The steady detector at Q_L 6,000: B from target_eff and one past it, 2B and one past it, the runs at their ends. -/
theorem witness_SampleEventMeasures_steady :
    let meas (e : Nat) (f : Meas → Meas) : Meas :=
      (measured (withRate (fun r => { r with eff := some e }) (withMeas f delivering)) 600 100).meas 0
    (meas 6315 fun m => { m with inRun := 24 }).steady = true ∧ (meas 6315 fun m => { m with inRun := 23 }).inRun = 24
      ∧ (meas 6316 fun m => { m with inRun := 24 }).inRun = 0
      ∧ (meas 6667 fun m => { m with steady := true, outRun := 2 }).steady = false
      ∧ (meas 6667 fun m => { m with steady := true, outRun := 1 }).outRun = 2
      ∧ (meas 6666 fun m => { m with steady := true, outRun := 2 }).outRun = 0 := by decide

/-- The drive step in DELIVERING forms target_eff afresh, and ends steady where it changes. -/
theorem witness_SampleEventMeasures_steadyEnds :
    let s (target : Nat) : State := withMeas (fun m => { m with steady := true, outRun := 1 })
      (withRate (fun r => { r with target := target }) delivering);
    (((s 5000).driveStage 0 (some 625)).rate 0).eff = some 5000 ∧ (((s 5000).driveStage 0 (some 625)).meas 0).steady = false
      ∧ ((s 6000).driveStage 0 (some 625)).meas 0 = (s 6000).meas 0 := by decide

/-- A line that ramps or closes, its setpoint reached, with a tracking timer. -/
def driven (st : LineState) (setpoint track : Nat) : State :=
  withDrive (fun d => { d with setpoint := setpoint, track := track }) (paused st [])

theorem driven_lineups : LineupsSound (driven .finishing 0 0) := by
  refine ⟨by decide, fun k r h => ?_, by decide⟩
  revert r; revert k; decide

/-- The five states in which the valve rests, a stroke test that closes it, and lines that are not in DELIVERING. -/
theorem witness_CausesAndPermitsStayPlaced_rest :
    ∀ s ∈ [alive, driven .held 0 0, driven .tripping 0 0, stroking .closeMove 16 none],
      RestDrives s ∧ QuietOutsideDelivering s := by decide

/-- `delivering` with a target, a target_eff and its governing term; one tank in TOPPING takes the throttle with it. -/
def targeted (target eff : Nat) (topping : Bool) : State :=
  withTank 4 { tank5 with state := if topping then .topping else .filling, line := some 0 }
    (withRate (fun r => { r with target := target, eff := some eff, throttle := topping }) delivering)

/-- The invariants about options, in the form that can be evaluated. -/
theorem targeted_bounds {s : State}
    (h : (∀ l, (∀ x ∈ s.limits l, LimitsSound x) ∧ (∀ p ∈ (s.rate l).pendingTarget, 100 ≤ p)
        ∧ (∀ q ∈ (s.meas l).qSurge, 25 ≤ q)
        ∧ ((s.seq l).state ∉ [.opening, .delivering, .holding, .held, .finishing] →
            (s.rate l).eff = none ∧ (s.rate l).governing = none)
        ∧ ((s.seq l).state ∈ [.opening, .delivering, .holding, .held, .finishing] → 100 ≤ (s.rate l).target)
        ∧ ∀ e ∈ (s.rate l).eff, ∃ lim ∈ s.limits l, 25 ≤ e ∧ e ≤ (s.rate l).target ∧ e ≤ lim.qMax
          ∧ (∀ q ∈ (s.meas l).qSurge, e ≤ q) ∧ ((s.rate l).throttle = true → e ≤ lim.qTop)
          ∧ (s.link.gauging = .manual → e ≤ lim.qCap))
      ∧ (∀ w ∈ s.store.write, LimitsSound w.record ∧
          (s.seq w.line).state ∉ [.opening, .delivering, .holding, .held, .finishing])) :
    RecordsObey s ∧ WritesAtRest s ∧ TargetsBounded s :=
  ⟨⟨fun l => (h.1 l).1, fun w e => (h.2 w e).1⟩, fun w e => (h.2 w e).2, fun l => (h.1 l).2.2.2.1,
    fun l => (h.1 l).2.2.2.2.1, fun l => (h.1 l).2.1, fun l => (h.1 l).2.2.1, fun l => (h.1 l).2.2.2.2.2⟩

/-- target_eff at each of its bounds: the console rate target, the max flow, the topping rate. -/
theorem witness_SettingsStayInRange_targets :
    ∀ s ∈ [alive, targeted 9000 9000 false, targeted 9000 2000 true, targeted 100 25 false, writing],
      (RecordsObey s ∧ WritesAtRest s ∧ TargetsBounded s) ∧ ThrottleFollows s := by
  intro s h
  have hs : ThrottleFollows s := by revert s; decide
  exact ⟨targeted_bounds (by revert s; decide), hs⟩

/-- A position within 50 of the setpoint is on track. -/
theorem tracks_near {d : Drive} {sp p : Nat} (h : absDiff p sp ≤ 50) : TracksTo d sp (some p) 0 :=
  .inl ⟨⟨p, rfl, .inl h⟩, rfl⟩

/-- A sample out of range is not on track. -/
theorem tracks_none (d : Drive) (sp : Nat) : TracksTo d sp none (d.track + 2) := .inr ⟨(nomatch ·.choose_spec.1), rfl⟩

/-- The drive step of a line that ramps or closes: 20 and 21 permille from its end, and a check at the allowance of 44 ds and
past it. -/
theorem witness_SampleEventMeasures_moves :
    (∀ p ∈ [220, 221], TracksTo ((driven .opening 200 0).drive 0) 200 (some p) 0)
      ∧ (driven .opening 200 0).limits 0 = some record1 ∧ absDiff 220 record1.startOpening = 20
      ∧ absDiff 221 record1.startOpening = 21
      ∧ (∀ st ∈ [LineState.holding, .finishing, .tripping], ((driven st 0 0).seq 0).state = st
          ∧ ((driven st 0 0).drive 0).ramp = none ∧ TripCause.valveTravel ∉ ((driven st 0 0).seq 0).trips)
      ∧ (∀ p ∈ [20, 21], TracksTo ((driven .holding 0 0).drive 0) 0 (some p) 0)
      ∧ TracksTo ((driven .holding 0 42).drive 0) 0 none 44 ∧ TracksTo ((driven .holding 0 44).drive 0) 0 none 46
      ∧ 20 + ceilDiv (((driven .holding 0 44).drive 0).tStroke.getD 1800) 10 = 44 ∧ LineupsSound (driven .finishing 0 0) := by
  refine ⟨fun p h => tracks_near ?_, by decide, by decide, by decide, by decide, fun p h => tracks_near ?_,
    tracks_none _ _, tracks_none _ _, by decide, driven_lineups⟩
  · revert p; decide
  · revert p; decide

/-- A cause that joins in a stroke test, in TRIPPING and in TRIPPED, and a STRETCH hold that finds its line HELD. -/
theorem witness_SampleEventMeasures_joins :
    (∀ st ∈ [LineState.stroking, .tripping, .tripped],
      let s := withMeas (fun m => { m with overRun := 2 })
        (withDrive (fun d => { d with stage := if st = .stroking then some .settle else none }) (paused st []))
      AlarmsDistinct s ∧ (s.seq 0).state = st ∧ s.limits 0 = some record1
        ∧ ((measured s 1501 100).seq 0).trips = [.overpressure]
        ∧ ((measured s 1501 100).seq 0).state = (if st = .tripped then .tripped else .tripping))
    ∧ ((measured (paused .held []) 600 901).seq 0).state = .held
    ∧ ((measured (paused .held []) 600 901).seq 0).holds = [.stretch] := by decide

/-- target_eff at the drive step of a line that is not in DELIVERING: the line stays, reaches its opening, or closes. -/
theorem witness_SampleEventMeasures_target :
    (∀ st ∈ [LineState.opening, .holding, .held, .finishing],
      ((driven st 0 0).seq 0).state = st ∧ (driven st 0 0).limits 0 = some record1 ∧ ((driven st 0 0).meas 0).qSurge = some 36000
        ∧ leastTerm (targetTerms ((driven st 0 0).rate 0) record1 36000 (driven st 0 0).link.gauging) = some (6000, .console))
    ∧ ∀ p ∈ [(LineState.opening, 200, 221, LineState.opening), (.opening, 200, 220, .delivering), (.holding, 0, 20, .held),
        (.finishing, 0, 20, .connected)],
      (((driven p.1 p.2.1 0).driveStage 0 (some p.2.2.1)).seq 0).state = p.2.2.2 := by decide

/-- Tanks of a line that finishes: one reported OPEN, and one reported CLOSED whose record has vanished from the directory. -/
def emptying : State :=
  withTank 6 { tank5 with state := .filling, line := some 0, valve := .closed, pendingEntry := some .vanished }
    (driven .finishing 0 0)

theorem emptying_lineups : LineupsSound emptying := by
  refine ⟨by decide, fun k r h => ?_, by decide⟩
  revert r; revert k; decide

theorem witness_SampleEventMeasures_finishes :
    (emptying.seq 0).state = .finishing ∧ LineupsSound emptying ∧ emptying.lineup 0 = [4, 6]
      ∧ TracksTo (emptying.drive 0) 0 (some 20) 0 ∧ (emptying.driveStage 0 (some 20)).lineup 0 = [4]
      ∧ (emptying.driveStage 0 (some 20)).tankState 4 = some .releasing ∧ (emptying.driveStage 0 (some 20)).tank 6 = none :=
  ⟨by decide, emptying_lineups, by decide, tracks_near (by decide), by decide, by decide, by decide⟩

/-- The drive step in DELIVERING, with the check passed and with the check failed. -/
theorem witness_SampleEventMeasures_delivers :
    (delivering.seq 0).state = .delivering ∧ delivering.limits 0 = some record1 ∧ (delivering.meas 0).q = some 6000
      ∧ (delivering.meas 0).qSurge = some 36000
      ∧ leastTerm (targetTerms (delivering.rate 0) record1 36000 delivering.link.gauging) = some (6000, .console)
      ∧ TracksTo (delivering.drive 0) 625 (some 625) 0 ∧ TripCause.valveTravel ∉ (delivering.seq 0).trips
      ∧ TracksTo ((driven .delivering 625 44).drive 0) 625 none 46 :=
  ⟨by decide, by decide, by decide, by decide, by decide, tracks_near (by decide), by decide, tracks_none _ _⟩

/-- The stages of a stroke test: 2 ds before each end and at it, and a stroke one short of the least that passes. -/
theorem witness_SampleEventMeasures_strokes :
    (∀ stage ∈ [Stage.openMove, .settle, .closeMove], ∀ n ∈ [16, 18, 1796, 1798],
        ((stroking stage n none).seq 0).state = .stroking ∧ ((stroking stage n none).drive 0).stage = some stage
          ∧ ((stroking stage n none).drive 0).stageTimer = some n ∧ AlarmsDistinct (stroking stage n none))
      ∧ (∀ p ∈ [980, 979], TracksTo ((withDrive (fun d => { d with setpoint := 1000 }) (stroking .openMove 16 none)).drive 0)
          1000 (some p) 0)
      ∧ TracksTo ((stroking .closeMove 16 none).drive 0) 0 (some 20) 0
      ∧ ceilDiv (19 * 1000) 960 = 20 ∧ ceilDiv (18 * 1000) 960 = 19 := by
  refine ⟨by decide, fun p h => tracks_near ?_, tracks_near (by decide), by decide, by decide⟩
  revert p; decide

/-- A stroke test whose check stands at the allowance of 200 ds after the sample, and past it. -/
theorem witness_SampleEventMeasures_travel :
    let s (track : Nat) : State := withDrive (fun d => { d with setpoint := 1000, track := track }) (stroking .openMove 16 none)
    (∀ n ∈ [198, 200], ((s n).seq 0).state = .stroking ∧ ((s n).drive 0).stage = some .openMove
        ∧ ((s n).drive 0).stageTimer = some 16)
      ∧ TracksTo ((s 198).drive 0) 1000 none 200 ∧ TracksTo ((s 200).drive 0) 1000 none 202
      ∧ 20 + ceilDiv (((s 200).drive 0).tStroke.getD 1800) 10 = 200 :=
  ⟨by decide, tracks_none _ _, tracks_none _ _, by decide⟩

theorem witness_SensorAndPressureTrips :
    (let s := withMeas (fun m => { m with positionOut := 5 }) delivering;
      (s.seq 0).state ∈ [.opening, .delivering, .holding, .held, .finishing] ∧ 5 ≤ (s.meas 0).positionOut
        ∧ TripCause.sensorFault ∉ (s.seq 0).trips)
    ∧ (let s := withMeas (fun m => { m with overRun := 3 }) (lineAt .connected);
      (s.seq 0).state ∉ [.disconnected, .tripping, .tripped] ∧ 3 ≤ (s.meas 0).overRun
        ∧ TripCause.overpressure ∉ (s.seq 0).trips) := by decide

theorem witness_StretchTripOpensTheContact :
    let s := withMeas (fun m => { m with tripRun := 2 }) (lineAt .connected);
    (s.seq 0).state ∉ [.disconnected, .tripping, .tripped] ∧ 2 ≤ (s.meas 0).tripRun
      ∧ TripCause.stretchTrip ∉ (s.seq 0).trips := by decide

theorem witness_TrackingCheckFails :
    ∀ st ∈ [LineState.opening, .delivering, .holding, .finishing, .tripping, .stroking],
      let s := withDrive (fun d => { d with track := 45 }) (paused st [])
      (s.meas 0).allowed < (s.drive 0).track ∧ (s.drive 0).allowance = (s.meas 0).allowed ∧ (s.seq 0).state = st
        ∧ TripCause.valveTravel ∉ (s.seq 0).trips := by decide

/-- The sticking valve found the second time (R29). -/
theorem witness_TrackingCheckFails_again :
    let s := withSeq (fun q => { q with trips := [.valveTravel] }) (driven .tripping 0 45)
    (s.meas 0).allowed < (s.drive 0).track ∧ (s.seq 0).state = .tripping
      ∧ TripCause.valveTravel ∈ (s.seq 0).trips := by decide

theorem witness_StrokeStagesEnd :
    (stroking .openMove 1800 none).drive 0 = { (stroking .openMove 1800 none).drive 0 with stage := some .openMove, stageTimer := some 1800 }
      ∧ ((stroking .settle 20 none).drive 0).stageTimer = some 20 ∧ ((stroking .closeMove 1800 none).drive 0).stage = some .closeMove
      ∧ ((stroking .settle 20 none).seq 0).state = .stroking := by decide

theorem witness_TakeoverSwitchesToAuto :
    ∀ r ∈ [((true, 0, 0) : Bool × Nat × Nat), (false, 5, 0), (false, 4, 5)],
      let s := withRate (fun x => { x with mode := .freeze, throttle := r.1, surgeRun := r.2.1, maxRun := r.2.2 }) delivering;
      (s.seq 0).state = .delivering ∧ (s.rate 0).mode ≠ .auto ∧ (s.rate 0).loopWaits = false
        ∧ ((s.rate 0).throttle = true ∨ 5 ≤ (s.rate 0).surgeRun ∨ (s.rate 0).surgeRun < 5 ∧ 5 ≤ (s.rate 0).maxRun) := by decide

theorem witness_DetectorsAct :
    (let s := withMeas (fun m => { m with inRun := 25 }) delivering;
      (s.seq 0).state = .delivering ∧ (s.meas 0).steady = false ∧ (s.meas 0).steadyN ≤ (s.meas 0).inRun ∧ AlarmsDistinct s)
    ∧ (let s := withMeas (fun m => { m with steady := true, outRun := 3 }) delivering;
      (s.seq 0).state = .delivering ∧ (s.meas 0).steady = true ∧ 3 ≤ (s.meas 0).outRun)
    ∧ (let s := withMeas (fun m => { m with warn := true, clearRun := 50 }) delivering;
      (s.meas 0).warn = true ∧ 50 ≤ (s.meas 0).clearRun ∧ AlarmsDistinct s) := by decide

theorem witness_ConnectTaken :
    Ready part ∧ (part.seq 0).state = .disconnected ∧ part.limits 0 ≠ none ∧ part.writing 0 = false := by decide

/-- CONNECT with the grades at and past each end, and with a record that is none and one that is being written. -/
theorem witness_ConnectTaken_refused :
    Ready part ∧ Ready writing ∧ (part.seq 1).state = .disconnected ∧ part.limits 1 = none
      ∧ (writing.seq 0).state = .disconnected ∧ writing.writing 0 = true
      ∧ reply (.connect 1 0) part = some ["?", "CONNECT", "1", "RANGE"]
      ∧ reply (.connect 1 5) part = some ["?", "CONNECT", "1", "RANGE"]
      ∧ reply (.connect 1 4) part = some ["=", "CONNECT", "1", "CONNECTED", "4"]
      ∧ reply (.connect 1 1) writing = some ["?", "CONNECT", "1", "BLANK"] := by decide

theorem startable_lineups : LineupsSound startable := by
  refine ⟨by decide, fun k r h => ?_, by decide⟩
  revert r; revert k; decide

theorem witness_DisconnectTaken :
    Ready startable ∧ (startable.seq 0).state = .connected ∧ LineupsSound startable ∧ AlarmsDistinct startable :=
  ⟨by decide, by decide, startable_lineups, by decide⟩

theorem witness_StrokeAndStrokesetTaken :
    Ready (lineAt .connected) ∧ ((lineAt .connected).seq 0).state = .connected ∧ ((lineAt .connected).seq 0).permit = false
      ∧ Ready part ∧ (part.seq 0).state ∈ [.disconnected, .connected] := by decide

theorem witness_StrokeAndStrokesetTaken_permit :
    Ready startable ∧ (startable.seq 0).state = .connected ∧ (startable.seq 0).permit = true := by decide

theorem witness_PermitTaken :
    (Ready startable ∧ (startable.seq 0).state ∈ [.connected, .held] ∧ startable.link.gauging = .linked
      ∧ startable.link.state ∈ [.good, .poor])
    ∧ (let s := withLink (fun k => { k with gauging := .manual }) (paused .held []);
      Ready s ∧ (s.seq 0).state ∈ [.connected, .held] ∧ s.link.gauging = .manual) := by decide

/-- PERMIT in MANUAL gauging and while the link is DOWN, PERMIT CONFIRM in LINKED gauging. -/
theorem witness_PermitTaken_link :
    (let s := withLink (fun k => { k with gauging := .manual }) startable;
      Ready s ∧ (s.seq 0).state = .connected ∧ reply (.permit 1) s = some ["?", "PERMIT", "1", "LINK"])
    ∧ Ready (lineAt .connected) ∧ ((lineAt .connected).seq 0).state = .connected ∧ (lineAt .connected).link.state ∉ [.good, .poor]
    ∧ (lineAt .connected).link.gauging = .linked := by decide

theorem witness_StartTaken :
    Ready startable ∧ (startable.seq 0).state = .connected ∧ startable.limits 0 = some record1 ∧ startable.writing 0 = false
      ∧ startable.esd.loop = .closed ∧ startable.pressureHigh 0 = false ∧ startable.stretchHigh 0 = false
      ∧ startable.device = [] ∧ (startable.meas 0).pressureOut < 5 ∧ (startable.meas 0).stretchOut < 5
      ∧ (startable.meas 0).positionOut < 5 ∧ (startable.seq 0).permit = true ∧ (startable.drive 0).tStroke ≠ none
      ∧ 0 < startable.countIn 0 .filling ∧ (∀ k ∈ startable.lineup 0, startable.tankState k ≠ some .full)
      ∧ (startable.seq 0).trips = [] := by
  refine ⟨by decide, by decide, by decide, by decide, by decide, by decide, by decide, by decide, by decide, by decide, ?_⟩
  refine ⟨by decide, by decide, by decide, by decide, by decide, by decide⟩

/-- START stopped by each of the rows 3 to 9, the rows before it passed, and with the device set alone against it. The case of
NO_OUTLET has a FULL tank in the lineup (log 55). -/
theorem witness_StartTaken_rows :
    (∀ p ∈ ([
      ({ startable with store := { startable.store with write := some { line := 0, record := record1, since := 998 } } }, ["BUSY"]),
      ({ withMeas (fun m => { m with pressure := some 1501, stretch := some 1401 }) startable with
          esd := { startable.esd with loop := .opened }, device := [.esdIn, .stretchTrip 1, .overfill 4] },
        ["TRIP", "ESD_IN", "OVERPRESSURE", "STRETCH_TRIP", "STRETCH_TRIP", "2", "OVERFILL", "5"]),
      ({ startable with device := [.consoleEsd] }, ["TRIP", "CONSOLE_ESD"]),
      (withMeas (fun m => { m with pressureOut := 5, positionOut := 5 }) startable, ["SENSOR", "PRESSURE", "POSITION"]),
      (withSeq (fun q => { q with permit := false }) startable, ["PERMIT"]),
      (withDrive (fun d => { d with tMeas := none }) startable, ["UNCHECKED"]),
      (withTank 4 { tank5 with state := .full, line := some 0 } (withTank 6 { tank5 with state := .topping, line := some 0 } startable),
        ["NO_OUTLET"]),
      (withTank 6 { tank5 with state := .full, line := some 0 } startable, ["FULL", "7"])] : List (State × List String)),
      Ready p.1 ∧ (p.1.seq 0).state = .connected
        ∧ reply (.start 1 (some 6000)) p.1 = some (["?", "START", "1"] ++ p.2))
    ∧ Ready startable ∧ reply (.start 1 none) startable = some ["?", "START", "1", "SYNTAX"]
    ∧ (withMeas (fun m => { m with pressure := some 1500, stretch := some 1400, pressureOut := 4 }) startable |>
        reply (.start 1 (some 6000))) = some ["=", "START", "1", "OPENING", "6000"] := by decide

theorem witness_RateTaken :
    ∀ st ∈ [LineState.opening, .delivering, .holding, .held],
      Ready (paused st []) ∧ (paused st []).limits 0 = some record1 ∧ ((paused st []).seq 0).state = st := by decide

/-- A rate target change and an equal target, in the states of both forms. -/
theorem witness_RateTaken_equal :
    ∀ st ∈ [LineState.opening, .delivering, .holding, .held],
      ((paused st []).rate 0).target = max 100 (min record1.qMax 6000)
        ∧ ((paused st []).rate 0).pendingTarget.getD ((paused st []).rate 0).target = max 100 (min record1.qMax 6000)
        ∧ ((paused st []).rate 0).target ≠ max 100 (min record1.qMax 6001) := by decide

theorem witness_LoopTaken : Ready (lineAt .connected) ∧ ((lineAt .connected).seq 0).state ≠ .disconnected := by decide

theorem witness_HoldTaken :
    (∀ st ∈ [LineState.opening, .delivering], Ready (paused st []) ∧ ((paused st []).seq 0).state = st
      ∧ ((paused st []).seq 0).holds = [])
    ∧ ∀ st ∈ [LineState.holding, .held], Ready (paused st [.tankFull]) ∧ ((paused st [.tankFull]).seq 0).state = st := by decide

/-- A steady line that leaves DELIVERING, for HOLD and FINISH. -/
theorem witness_HoldTaken_steady :
    let s := withMeas (fun m => { m with steady := true }) delivering
    Ready s ∧ (s.seq 0).state = .delivering ∧ (s.seq 0).holds = [] ∧ AlarmsDistinct s ∧ NoticeKind.line ∈ s.port.mask
      ∧ Notice.line 0 ∈ (after (.hold 1) s).notices := by decide

theorem witness_HoldTaken_operator :
    (Ready (paused .opening [.stretch]) ∧ HoldCause.operator ∉ ((paused .opening [.stretch]).seq 0).holds)
    ∧ reply (.hold 1) (paused .opening [.stretch]) = some ["=", "HOLD", "1", "HOLDING", "OPERATOR", "STRETCH"]
    ∧ Ready (paused .delivering [.operator]) ∧ HoldCause.operator ∈ ((paused .delivering [.operator]).seq 0).holds := by decide

theorem witness_ResumeTaken :
    let s := paused .held [.operator]
    Ready s ∧ (s.seq 0).state ∈ [.holding, .held] ∧ (∀ c ∈ (s.seq 0).holds, c = .operator) ∧ (s.seq 0).permit = true
      ∧ 0 < s.countIn 0 .filling ∧ s.limits 0 = some record1 := by decide

/-- RESUME with another cause, without the permit, and without an outlet. -/
theorem witness_ResumeTaken_refused :
    ∀ p ∈ ([
      (paused .holding [.stretch, .operator], ["CAUSES", "STRETCH"]),
      (withSeq (fun q => { q with permit := false }) (paused .held [.operator]), ["PERMIT"]),
      (withTank 4 { tank5 with state := .topping, line := some 0 } (withTank 6 { tank5 with state := .full, line := some 0 }
        (paused .held [.operator])), ["NO_OUTLET"])] : List (State × List String)),
      Ready p.1 ∧ (p.1.seq 0).state ∈ [.holding, .held] ∧ reply (.resume 1) p.1 = some (["?", "RESUME", "1"] ++ p.2) := by decide

theorem witness_FinishTaken : ∀ st ∈ [LineState.opening, .delivering, .holding],
    Ready (paused st []) ∧ ((paused st []).seq 0).state = st := by decide

theorem witness_FinishTaken_held :
    Ready (paused .held []) ∧ ((paused .held []).seq 0).state = .held ∧ LineupsSound (paused .held []) := by
  refine ⟨by decide, by decide, by decide, fun k r h => ?_, by decide⟩
  revert r; revert k; decide

/-- FINISH of a HELD line: a tank that vanished, and one in TOPPING that becomes RELEASING and takes the throttle with it. -/
theorem witness_FinishTaken_tanks :
    let s := withRate (fun r => { r with throttle := true })
      (withTank 4 { tank5 with state := .topping, line := some 0 } (withSeq (fun q => { q with state := .held }) emptying))
    Ready s ∧ (s.seq 0).state = .held ∧ s.lineup 0 = [4, 6] ∧ 0 < s.countIn 0 .topping
      ∧ ((after (.finish 1) s).tank 4).bind (·.timer) = some { since := 1000, expired := none }
      ∧ (after (.finish 1) s).tank 6 = none ∧ ((after (.finish 1) s).rate 0).throttle = false := by decide

theorem witness_ClearTaken :
    Ready tripped ∧ (tripped.seq 0).state = .tripped ∧ tripped.device = [] ∧ tripped.esd.far = .closed
      ∧ tripped.pressureHigh 0 = false ∧ tripped.stretchHigh 0 = false ∧ (tripped.meas 0).pressureOut = 0
      ∧ (tripped.meas 0).stretchOut = 0 ∧ (tripped.meas 0).positionOut = 0 ∧ (tripped.meas 0).position = some 20
      ∧ AlarmsDistinct tripped := by decide

/-- CLEAR against each cause that persists, and against the device set alone. -/
theorem witness_ClearTaken_refused :
    (∀ p ∈ ([
      ({ tripped with esd := { tripped.esd with far := .opened }, device := [.esdIn, .consoleEsd] }, ["ESD_IN", "CONSOLE_ESD"]),
      (withMeas (fun m => { m with pressure := some 1501, stretch := some 1401, pressureOut := 1 }) tripped,
        ["OVERPRESSURE", "STRETCH_TRIP", "SENSOR_FAULT"]),
      (withMeas (fun m => { m with position := some 21 }) tripped, ["VALVE_TRAVEL"]),
      ({ tripped with device := [.overfill 0] }, ["OVERFILL", "1"])] : List (State × List String)),
      Ready p.1 ∧ (p.1.seq 0).state = .tripped ∧ reply (.clear 1) p.1 = some (["?", "CLEAR", "1", "TRIP"] ++ p.2))
    ∧ [TripCause.overpressure, .stretchTrip, .sensorFault] = TripCause.all.filter
        (fun c => decide (c ∈ [TripCause.overpressure, .stretchTrip, .sensorFault])) := by decide

/-- Line 1 CONNECTED, with tank 5 LISTED beside it. -/
def assignable : State := withTank 4 tank5 (lineAt .connected)

theorem witness_AssignTaken :
    Ready assignable ∧ (assignable.seq 0).state ≠ .disconnected ∧ (assignable.seq 0).state ≠ .tripped
      ∧ (assignable.lineup 0).length + [(4 : TankId)].length ≤ 6
      ∧ ∀ k ∈ [(4 : TankId)], ∃ r, assignable.tank k = some r ∧ r.line = none ∧ r.state = .listed ∧ r.conflict = false
        ∧ (assignable.seq 0).grade = some r.grade := by
  refine ⟨by decide, by decide, by decide, by decide, fun k h => ?_⟩
  cases List.mem_singleton.mp h
  exact ⟨tank5, by decide, by decide, by decide, by decide, by decide⟩

def refusable : State :=
  withTank 0 { tank5 with grade := 3 } (withTank 1 { tank5 with conflict := true } (withTank 2 { tank5 with state := .overfill }
    (withTank 3 { tank5 with line := some 1, state := .assigned } { assignable with lineups := vset assignable.lineups 1 [3] })))

theorem witness_AssignTaken_refused :
    Ready refusable ∧ (refusable.seq 0).state ≠ .disconnected ∧ (refusable.seq 0).state ≠ .tripped
      ∧ (∀ p ∈ [([some 5, some 0], ["RANGE", "0"]), ([some 17], ["RANGE", "17"]), ([some 6], ["RANGE", "6"]),
          ([some 4], ["TAKEN", "4"]), ([some 2, some 4], ["STATE", "2"]), ([some 3], ["STATE", "3"]), ([some 1], ["GRADE", "1"]),
          ([], ["SYNTAX"]), ([none], ["SYNTAX"]), ([some 5, some 5], ["SYNTAX"]),
          ((List.range 7).map some, ["SYNTAX"])],
        reply (.assign 1 p.1) refusable = some (["?", "ASSIGN", "1"] ++ p.2))
      ∧ reply (.assign 1 [some 5]) { assignable with lineups := vset assignable.lineups 0 [0, 1, 2, 3, 6, 7] }
        = some ["?", "ASSIGN", "1", "FULLLINE", "5"]
      ∧ ((after (.assign 1 [some 5]) (withTank 4 { tank5 with vRep := none } assignable)).tankState 4) = some .assigned := by
  decide

theorem witness_AssignTaken_fault :
    AssignFault refusable 0 1 0 "RANGE" ∧ AssignFault refusable 0 0 4 "TAKEN" ∧ AssignFault refusable 0 0 1 "GRADE"
      ∧ ∀ w, ¬ AssignFault refusable 0 0 5 w := by
  have free : ∀ {o : Option LineId}, o = none → ¬ ∃ j, o = some j ∧ j ≠ 0 := fun h ⟨j, hj, _⟩ => by rw [h] at hj; cases hj
  refine ⟨.inl ⟨by decide, rfl⟩, .inr ⟨3, _, by decide, rfl, .inl ⟨⟨1, by decide, by decide⟩, rfl⟩⟩,
    .inr ⟨0, _, by decide, rfl, .inr (.inr (.inl ⟨free rfl, by decide, by decide, rfl⟩))⟩, ?_⟩
  have four : ∀ k, 5 = tankNumber k → k = 4 := by decide
  rintro w (⟨h, _⟩ | ⟨k, r, hk, hr, h⟩)
  · exact absurd (h 4 (by decide)) (by decide)
  · cases four k hk
    cases hr
    rcases h with ⟨h, _⟩ | ⟨_, h, _⟩ | ⟨_, _, h, _⟩ | ⟨_, _, _, h, _⟩
    · exact free rfl h
    all_goals revert h; decide

theorem witness_ReleaseTaken :
    Ready startable ∧ (startable.seq 0).state ≠ .disconnected ∧ LineupsSound startable ∧ (startable.lineup 0).Nodup
      ∧ startable.lineup 0 = [4, 6] ∧ ∀ k ∈ [(4 : TankId)], k ∈ startable.lineup 0 :=
  ⟨by decide, by decide, startable_lineups, by decide, by decide, by decide⟩

/-- A tank in RELEASING with its timer, and a tank with its valve CLOSED and its record vanished from the directory. -/
def releasable : State :=
  withTank 4 { tank5 with state := .releasing, line := some 0, timer := some { since := 500, expired := none } }
    (withTank 6 { tank5 with state := .filling, line := some 0, valve := .closed, pendingEntry := some .vanished } startable)

theorem releasable_lineups : LineupsSound releasable := by
  refine ⟨by decide, fun k r h => ?_, by decide⟩
  revert r; revert k; decide

theorem witness_ReleaseTaken_forms :
    Ready releasable ∧ (releasable.seq 0).state ≠ .disconnected ∧ LineupsSound releasable ∧ releasable.lineup 0 = [4, 6]
      ∧ (after (.release 1 .all) releasable).tank 4 = releasable.tank 4 ∧ (after (.release 1 .all) releasable).tank 6 = none :=
  ⟨by decide, by decide, releasable_lineups, by decide, by decide, by decide⟩

/-- Line 1 HELD for a FULL tank reported CLOSED, beside a RELEASING one reported CLOSED too late. -/
def leaving : State :=
  { withTank 4 { tank5 with state := .releasing, line := some 0, valve := .closed, timer := some { since := 0, expired := some 900 } }
      (withTank 6 { tank5 with state := .full, line := some 0, valve := .closed } (paused .held [.tankFull])) with
    alarms := [{ kind := .changeoverLate, object := .tank 4, acked := false, present := true, time := 900 }], horn := true }

/-- `delivering` at the topping rate for a TOPPING tank. -/
def topped : State :=
  withTank 4 { tank5 with state := .topping, line := some 0 }
    (withRate (fun r => { r with throttle := true, eff := some 2000, governing := some .topping })
      (withMeas (fun m => { m with steady := true }) delivering))

theorem leaving_lineups : LineupsSound leaving ∧ LineupsSound topped := by
  refine ⟨⟨by decide, fun k r h => ?_, by decide⟩, by decide, fun k r h => ?_, by decide⟩ <;>
  (revert r; revert k; decide)

/-- What the line is told of a released FULL tank and of a TOPPING one, and the end of CHANGEOVER_LATE. -/
theorem witness_ReleaseTaken_told :
    Ready leaving ∧ (leaving.seq 0).state ≠ .disconnected ∧ AlarmsDistinct leaving
      ∧ (let t := after (.release 1 .all) leaving
        t.lineup 0 = [] ∧ (t.seq 0).holds = [] ∧ t.alarms.map (·.present) = [false])
      ∧ Ready topped ∧ topped.limits 0 = some record1
      ∧ (let t := after (.release 1 (.list [some 5])) topped
        t.tankState 4 = some .releasing ∧ (t.rate 0).throttle = false ∧ (t.rate 0).eff = some 6000 ∧ (t.meas 0).steady = false) := by
  decide

/-- The refusals of RELEASE: a list that does not read, the tank numbers past each end, a tank of no lineup. -/
theorem witness_ReleaseTaken_refused :
    Ready startable ∧ (startable.seq 0).state ≠ .disconnected ∧ (4 : TankId) ∈ startable.lineup 0
      ∧ ∀ p ∈ [([], ["SYNTAX"]), ([none], ["SYNTAX"]), ([some 5, some 5], ["SYNTAX"]), ([some 5, some 0], ["RANGE", "0"]),
          ([some 17], ["RANGE", "17"]), ([some 5, some 1], ["STATE", "1"])],
        reply (.release 1 (.list p.1)) startable = some (["?", "RELEASE", "1"] ++ p.2) := by decide

theorem witness_FillTaken :
    (delivering.tank 4).map (·.state) = some .filling ∧ Ready delivering
      ∧ (let s := withTank 4 { tank5 with state := .topping, line := some 0 } delivering;
        Ready s ∧ s.tank 4 = some { tank5 with state := .topping, line := some 0 } ∧ tank5.fl < max 500 (min (min 980 (tank5.hh - 20)) 901)) := by decide

/-- A raised limit, and the numbers that name no tank; an evaluation at once that sends the tank back, and one that does
not. -/
theorem witness_FillTaken_forms :
    (delivering.tank 0 = none ∧ delivering.tank 4 ≠ none ∧ Ready delivering
      ∧ reply (.fill 0 (some 900)) delivering = some ["?", "FILL", "0", "RANGE"]
      ∧ reply (.fill 17 (some 900)) delivering = some ["?", "FILL", "17", "RANGE"])
    ∧ ∀ p ∈ [(741200, TankState.filling), (757000, .topping)],
      (after (.fill 5 (some 901)) (withTank 4 { tank5 with state := .topping, line := some 0, vRep := some p.1 } delivering)).tankState 4
        = some p.2 := by decide

theorem witness_SoundTaken :
    let s := withLink (fun k => { k with gauging := .manual }) delivering
    Ready s ∧ s.link.gauging = .manual ∧ s.tank 4 = some { tank5 with state := .filling, line := some 0 }
      ∧ tank5.mTime.getD 0 ≤ s.clock ∧ tank5.pendingEntry = none ∧ tank5.cap * tank5.hh / 1000 = 807500 := by decide

/-- SOUND in LINKED gauging, for a number past each end and an ABSENT tank, and without its volume or its valve word. -/
theorem witness_SoundTaken_refused :
    let s := withLink (fun k => { k with gauging := .manual }) delivering
    Ready s ∧ Ready delivering ∧ delivering.link.gauging = .linked
      ∧ reply (.sound 5 (some 1) (some .opened)) delivering = some ["?", "SOUND", "5", "LINK"]
      ∧ (∀ n ∈ [0, 1, 17], reply (.sound n (some 1) (some .opened)) s = some ["?", "SOUND", numText n, "RANGE"])
      ∧ reply (.sound 5 none (some .opened)) s = some ["?", "SOUND", "5", "SYNTAX"]
      ∧ reply (.sound 5 (some 1) none) s = some ["?", "SOUND", "5", "SYNTAX"] := by decide

theorem manual_lineups : LineupsSound (withLink (fun k => { k with gauging := .manual }) delivering) := delivering_lineups

/-- The transitions of a report, one tank each (R86, R88). -/
theorem witness_SoundTaken_transitions :
    transited { tank5 with state := .assigned, line := some 0 } = some { tank5 with state := .filling, line := some 0 }
      ∧ (∀ st ∈ [TankState.filling, .topping],
          (transited { tank5 with state := st, valve := .closed, line := some 0 }).map (·.state) = some .assigned)
      ∧ (transited { tank5 with state := .full, valve := .closed, line := some 0 }).map (·.topped) = some true
      ∧ (transited { tank5 with state := .releasing, valve := .closed, line := some 0 }).map (·.line) = some none
      ∧ transited { tank5 with state := .releasing, valve := .closed, line := some 0, pendingEntry := some .vanished } = none := by
  decide

/-- 06, Worked figures: filling the ring; a report 19 ds and 20 ds after the anchor, one of another epoch, one with a faulted
gauge. -/
theorem witness_SoundTaken_ring :
    let r (time : Nat) : Tank := { tank5 with
      state := .filling, line := some 0, vRep := some 705935, mTime := some time
      anchor := some { volume := 705100, time := 2300, epoch := 13 } }
    estimated true 13 4 false (r 2319) = ([2400], some { volume := 705100, time := 2300, epoch := 13 })
      ∧ estimated true 13 4 false (r 2320) = ([2400, 25050], some { volume := 705935, time := 2320, epoch := 13 })
      ∧ estimated true 14 4 false (r 2500) = ([2400], some { volume := 705935, time := 2500, epoch := 14 })
      ∧ estimated false 13 4 false (r 2500) = ([2400], none)
      ∧ estimated true 13 4 true (r 2500) = ([2400], some { volume := 705100, time := 2300, epoch := 13 }) := by decide

/-- The last OPEN valve of a delivering line closes (R97), at a volume under V_hh and at it. -/
theorem witness_SoundTaken_outlets :
    let s := withLink (fun k => { k with gauging := .manual })
      (withTank 6 { tank5 with state := .assigned, line := some 0, valve := .closed } delivering)
    openOutlets s 0 = [4] ∧ (s.seq 0).state = .delivering
      ∧ (∀ v ∈ [807499, 807500], ((after (.sound 5 (some v) (some .closed)) s).seq 0).holds = [.noOutlet])
      ∧ ((after (.sound 5 (some 807500) (some .opened)) s).tankState 4) = some .overfill := by decide

/-- OVERFILL of a TOPPING and of a FULL tank, the only open outlet and not: what its line is told, and NO_OUTLET. -/
theorem witness_SoundTaken_overfill :
    let s (lst : LineState) (st : TankState) (other : ShipValve) : State :=
      withRate (fun r => { r with throttle := decide (st = .topping), eff := some 2000 })
        (withTank 4 { tank5 with state := st, line := some 0 }
          (withTank 6 { tank5 with state := .assigned, line := some 0, valve := other }
            (withLink (fun k => { k with gauging := .manual }) (paused lst [.tankFull]))));
    let t (lst : LineState) (st : TankState) (other : ShipValve) : State :=
      after (.sound 5 (some 807500) (some .opened)) (s lst st other);
    openOutlets (s .delivering .topping .closed) 0 = [4]
      ∧ ((t .delivering .topping .closed).seq 0).state = .holding ∧ ((t .delivering .topping .closed).rate 0).eff = some 3000
      ∧ ((t .delivering .topping .opened).seq 0).state = .delivering
      ∧ ((t .holding .full .opened).seq 0).holds = [] ∧ ((t .holding .topping .opened).seq 0).holds = [.tankFull] := by
  decide

theorem witness_ClearTankTaken :
    Ready overfilled ∧ overfilled.tank 0 = some { tank5 with state := .overfill, vRep := some 807499 }
      ∧ 807499 < tank5.cap * tank5.hh / 1000 ∧ tank5.line = none ∧ tank5.pendingEntry = none := by decide

/-- The forms of R86 and the refusals of R108: a vanished record, V_rep at V_hh, another state, an ABSENT tank. -/
theorem witness_ClearTankTaken_forms :
    (let r := { tank5 with state := .overfill, vRep := some 807499, pendingEntry := some .vanished };
      Ready (withTank 0 r overfilled) ∧ (withTank 0 r overfilled).tank 0 = some r
        ∧ pendingApplied { r with state := .listed, timer := none } = none
        ∧ reply (.clearTank 1) (withTank 0 r overfilled) = some ["=", "CLEAR", "TANK", "1", "ABSENT"])
    ∧ (let r := { tank5 with state := .overfill, vRep := some 807499, pendingEntry := some (.entry { entry5 with cap := 400000 }) };
      (pendingApplied { r with state := .listed, timer := none }).map (·.cap) = some 400000)
    ∧ (let r := { tank5 with state := .overfill, vRep := some 807500 };
      reply (.clearTank 1) (withTank 0 r overfilled) = some ["?", "CLEAR", "TANK", "1", "TRIP", "807500", "807500"])
    ∧ tank5.state ≠ .overfill ∧ overfilled.tank 1 = none := by decide

/-- Tank 5 FILLING on the delivering line with a volume reported. -/
def fillingAt (v : Nat) : State := withTank 4 { tank5 with state := .filling, line := some 0, vRep := some v } delivering

/-- Each clause of the statement at the edge of its range: E at V_hh, M at 0, tau at T_top, tau just above it. -/
theorem witness_EvaluationActs :
    (fillingAt 0).tank 4 = some { tank5 with state := .filling, line := some 0, vRep := some 0 }
      ∧ ((fillingAt 0).seq 0).state = .delivering ∧ ((fillingAt 0).seq 0).trips = [] ∧ ((fillingAt 0).seq 0).holds = []
      ∧ (let r := { tank5 with state := .filling, line := some 0 };
        ((fillingAt 806475).evaluation 0 r 806475).endVol = 807500 ∧ ((fillingAt 763975).evaluation 0 r 763975).margin = 0
          ∧ ((fillingAt 748975).evaluation 0 r 748975).tau = some 3000
          ∧ ((fillingAt 748970).evaluation 0 r 748970).tau = some 3001) := by decide

/-- The figures: a report at the stale limit and one ds past it, and a tank that is only ASSIGNED. -/
theorem witness_EvaluationActs_figures :
    delivering.limits 0 = some record1 ∧ (delivering.seq 0).state ∉ [.connected, .held]
      ∧ delivering.settings.stalel = 150
      ∧ (delivering.evaluation 0 { tank5 with state := .filling, mTime := some 850 } 0).age = 150
      ∧ (delivering.evaluation 0 { tank5 with state := .filling, mTime := some 849 } 0).age = 151
      ∧ ({ tank5 with state := .assigned } : Tank).state = .assigned := by decide

/-- When no evaluation is made: no line, no volume, the state of the tank, the state of the line; and where one is made. -/
theorem witness_EvaluationActs_made :
    tank5.line = none ∧ ({ tank5 with vRep := none } : Tank).vRep = none
      ∧ ((stroking .settle 16 none).seq 0).state ∈ [.disconnected, .stroking, .tripping, .tripped]
      ∧ ((fillingAt 741200).judgeStale 4).tank 4 = some { tank5 with state := .filling, line := some 0 }
      ∧ (fillingAt 741200).tank 4 = some { tank5 with state := .filling, line := some 0 }
      ∧ ((fillingAt 741200).seq 0).state ∈ [.connected, .opening, .delivering, .holding, .held, .finishing] := by decide

/-- The actions in other states: TOPPING, RELEASING and FULL at M 0 and below it, OVERRUN in HOLDING at V_hh, and a CONNECTED
line, where M alone acts. -/
theorem witness_EvaluationActs_states :
    let s (lst : LineState) (st : TankState) (v : Nat) : State :=
      withTank 4 { tank5 with state := st, line := some 0, vRep := some v } (paused lst [])
    (∀ p ∈ [(LineState.delivering, TankState.topping, 763975, TankState.full), (.delivering, .releasing, 763975, .full),
        (.delivering, .full, 763975, .full), (.holding, .full, 763975, .full), (.connected, .filling, 764600, .full),
        (.connected, .filling, 764599, .filling), (.held, .releasing, 764600, .full)],
      ((s p.1 p.2.1 p.2.2.1).evaluate 4).tankState 4 = some p.2.2.2
        ∧ TripCause.overrun ∉ (((s p.1 p.2.1 p.2.2.1).evaluate 4).seq 0).trips)
    ∧ (∀ lst ∈ [LineState.opening, .holding, .finishing], (((s lst .full 806500).evaluate 4).seq 0).trips = [.overrun])
    ∧ (((s .held .full 806500).evaluate 4).seq 0).holds = [.tankFull] := by decide

/-- What the line is told: a TOPPING tank that becomes FULL, and a FILLING one that enters TOPPING with the loop in FREEZE. -/
theorem witness_EvaluationActs_told :
    (let s := withMeas (fun m => { m with steady := true }) (withRate (fun r => { r with throttle := true, surgeRun := 3 })
        (withTank 4 { tank5 with state := .topping, line := some 0, vRep := some 763975 } delivering));
      let t := s.evaluate 4;
      (s.evaluation 0 { tank5 with state := .topping, line := some 0 } 763975).margin ≤ 0 ∧ (t.rate 0).throttle = false
        ∧ (t.rate 0).surgeRun = 0 ∧ (t.meas 0).steady = false ∧ (t.seq 0).state = .holding)
    ∧ (let t := (withRate (fun r => { r with mode := .freeze, maxRun := 2 }) (fillingAt 748975)).evaluate 4;
      (t.rate 0).throttle = true ∧ (t.rate 0).eff = some 2000 ∧ (t.rate 0).mark = some .topping ∧ (t.rate 0).maxRun = 0) := by
  decide

theorem witness_LinkstartTaken :
    Ready part ∧ part.link.state = .down
      ∧ (let s := withLink (fun k => { k with gauging := .manual }) delivering;
        Ready s ∧ s.link.state ∈ [.good, .poor] ∧ s.link.gauging = .manual) := by decide

theorem witness_LinkstartTaken_refused :
    (let s := acquiring .header { header := none, next := 0, attempts := 0, entries := [] };
      Ready s ∧ s.link.state = .acquiring ∧ reply .linkstart s = some ["?", "LINKSTART", "BUSY"])
    ∧ Ready delivering ∧ delivering.link.state ∈ [.good, .poor] ∧ delivering.link.gauging = .linked
    ∧ reply .linkstart delivering = some ["?", "LINKSTART", "STATE"] := by decide

theorem witness_GaugingTaken :
    (Ready delivering ∧ delivering.link.gauging = .linked ∧ delivering.link.state ∈ [.good, .poor])
    ∧ (let s := withLink (fun k => { k with gauging := .manual }) delivering;
      Ready s ∧ s.link.gauging = .manual ∧ s.link.state ∈ [.good, .poor] ∧ s.link.exchange = none
        ∧ (after .gaugingLinked s).link.exchange.map (·.query) = some (.level 4))
    ∧ Ready part ∧ part.link.state ∉ [.good, .poor] := by decide

/-- The cap of 3,000 L/min comes and goes with the mode, and ends steady in DELIVERING where it changes target_eff. -/
theorem witness_GaugingTaken_target :
    let s := withMeas (fun m => { m with steady := true }) delivering;
    let t := after .gaugingManual s;
    (t.rate 0).governing = some .manual ∧ (t.meas 0).steady = false
      ∧ ((after .gaugingManual (withRate (fun r => { r with target := 3000, eff := some 3000 }) s)).meas 0).steady = true
      ∧ ((after .gaugingLinked (withPort (fun p => { p with waiting := none }) t)).rate 0).eff = some 6000
      ∧ ((after .gaugingManual startable).rate 0) = startable.rate 0 := by decide

/-- The acquisition of a directory of two entries. -/
def twoEntries : Acquisition := { header := some { count := 2, revision := 5 }, next := 1, attempts := 0, entries := [] }

def entryBytes (flags : Byte) : List Byte := telegram [0x02, 0x01, flags, 0x05, 0x02, 0x00, 0x0C, 0xF8, 0x50, 0x03, 0xB6]

set_option maxRecDepth 100000 in
theorem witness_DirectoryReplies :
    (let s := acquiring .header { header := none, next := 0, attempts := 0, entries := [] };
      s.link.state = .acquiring ∧ s.link.exchange = some { query := .header, refresh := false, window := 1, part := none }
        ∧ readReply .header (telegram [0x01, 0x00, 0x00, 0x10, 0x05])
          = some { stop := false, more := false, body := .header { count := 16, revision := 5 } })
    ∧ (let s := acquiring (.entry 1) twoEntries;
      s.link.state = .acquiring ∧ s.link.acq = some twoEntries
        ∧ s.link.exchange = some { query := .entry 1, refresh := false, window := 1, part := none }
        ∧ readReply (.entry 1) (entryBytes 0x00) = some { stop := false, more := false, body := .entry entry5 }
        ∧ readReply (.entry 1) (entryBytes 0x02) = some { stop := false, more := true, body := .entry entry5 }) := by decide

set_option maxRecDepth 100000 in
theorem witness_DirectoryReplies_continuation :
    let s := withLink (fun k => { k with exchange := some partReply }) (acquiring (.entry 1) twoEntries)
    s.link.state = .acquiring ∧ s.link.exchange = some partReply ∧ partReply.refresh = false ∧ s.link.acq = some twoEntries
      ∧ partReply.part = some { stop := false, entry := entry5 }
      ∧ readContinuation 1 (telegram [0x07, 0x01, 0x02, 0x34, 0x50]) = some "4P" := by decide

/-- A refresh in flight beside a good link. -/
def refreshing (x : Exchange) (p : Refresh) : State :=
  withLink (fun k => { k with exchange := some { x with refresh := true }, refresh := some p }) delivering

set_option maxRecDepth 100000 in
/-- The refresh telegrams, the last entry of an acquisition and of a refresh, and a LEVEL reply with another revision. -/
theorem witness_DirectoryReplies_refresh :
    (let x : Exchange := { query := .header, refresh := true, window := 1, part := none };
      (refreshing x { header := none, next := 0, entries := [] }).link.exchange = some x)
    ∧ (let s := refreshing partReply { header := some { count := 1, revision := 6 }, next := 1, entries := [] };
      s.link.exchange = some { partReply with refresh := true }
        ∧ s.link.refresh = some { header := some { count := 1, revision := 6 }, next := 1, entries := [] })
    ∧ (continuing.link.state = .acquiring ∧ continuing.link.exchange = some partReply
        ∧ continuing.link.acq = some { header := some { count := 1, revision := 5 }, next := 1, attempts := 0, entries := [] })
    ∧ (let s := asking (.level 4) delivering;
      s.link.exchange = some { query := .level 4, refresh := false, window := 1, part := none } ∧ s.link.state ≠ .acquiring
        ∧ s.link.gauging = .linked ∧ s.link.refresh = none ∧ s.link.rev ≠ some 6
        ∧ readReply (.level 4) (telegram [0x03, 0x05, 0x00, 0x00, 0x0C, 0x52, 0x4C, 0x01, 0x00, 0x1E, 0x06])
          = some { stop := false, more := false, body := .level 807500 .opened false 30 6 }) := by decide +kernel

/-- The poll queue follows the records in those states, and a directory that creates tank 5 puts it at the tail. -/
theorem witness_DirectoryReplies_polls :
    PollFollows continuing
      ∧ (let x : Exchange := { query := .header, refresh := true, window := 1, part := none };
        PollFollows (refreshing x { header := none, next := 0, entries := [] }))
      ∧ (let s := withLink (fun k => { k with poll := [6] }) { (refreshing partReply
            { header := some { count := 1, revision := 6 }, next := 1, entries := [] }) with
            tanks := vset delivering.tanks 4 none, lineups := vset delivering.lineups 0 [6] };
        PollFollows s ∧ s.tank 4 = none
          ∧ (after (.continuation (telegram [0x07, 0x01, 0x02, 0x34, 0x50])) s).link.poll = [4, 6]
          ∧ (after (.continuation (telegram [0x07, 0x01, 0x02, 0x34, 0x50])) s).link.exchange.map (·.query)
            = some (.level 6)) := by decide +kernel

set_option maxRecDepth 100000 in
theorem witness_StopFlagTaken :
    (asking .alive delivering).link.exchange = some { query := .alive, refresh := false, window := 1, part := none }
      ∧ readReply .alive (telegram [0x06, 0x00, 0x01]) = some { stop := true, more := false, body := .alive }
      ∧ (asking (.advice 4 .full) delivering).link.exchange
        = some { query := .advice 4 .full, refresh := false, window := 1, part := none }
      ∧ readReply (.advice 4 .full) (telegram [0x05, 0x05, 0x00, 0x02])
        = some { stop := false, more := false, body := .advice } := by decide

/-- An acquisition that has read nothing. -/
def noEntries : Acquisition := { header := none, next := 0, attempts := 0, entries := [] }

set_option maxRecDepth 100000 in
/-- The STOP flag of a HEADER, a LEVEL and a PERMIT reply: every ship permit goes, SHIP joins; a clear flag takes it out. -/
theorem witness_StopTaken :
    (∀ p ∈ [(Query.header, Instr.headerReply, ([0x01, 0x00, 0x01, 0x10, 0x05] : List Byte)),
        (.level 4, .levelReply, [0x03, 0x05, 0x01, 0x00, 0x0B, 0x90, 0x8C, 0x01, 0x00, 0x14, 0x05]),
        (.permit 1, .permitReply, [0x04, 0x22, 0x01, 0x01])],
      let t := after (p.2.1 (telegram p.2.2)) (withLink (fun k => { k with acq := some noEntries, state := if p.1 = .header then .acquiring else .good })
        (asking p.1 delivering))
      t.link.stop = some true ∧ (t.seq 0).permit = false ∧ (t.seq 0).holds = [.ship] ∧ (t.seq 0).state = .holding)
    ∧ ((after (.aliveReply (telegram [0x06, 0x00, 0x00])) (asking .alive (paused .held [.ship]))).seq 0).holds = [] := by decide

/-- A link whose window holds `failures` failures and as many successes as fill it. -/
def judged (st : LinkState) (failures failRun succRun : Nat) : State :=
  withLink (fun k => { k with
    state := st, failRun := failRun, succRun := succRun
    window := List.replicate (31 - failures) false ++ List.replicate failures true }) (asking .alive delivering)

/-- The link state after an exchange that fails, at each edge of R128: the 8th failure of the window, the third, and the
failure run at the link-loss count. -/
theorem witness_ExchangeFails_judged :
    (∀ p ∈ [(LinkState.good, 7, 0, LinkState.poor), (.good, 6, 0, .good), (.poor, 1, 0, .good), (.poor, 2, 0, .poor),
        (.good, 6, 9, .lost), (.poor, 1, 9, .lost), (.good, 6, 8, .good)],
      (after .replyWindowExpired (judged p.1 p.2.1 p.2.2.1 0)).link.state = p.2.2.2)
    ∧ (judged .good 7 0 0).settings.linkloss = 10 := by decide

set_option maxRecDepth 100000 in
/-- The link state after a good exchange: two failures in the window and three, a success run of 3 in LOST and of 2. -/
theorem witness_StopFlagTaken_judged :
    ∀ p ∈ [(LinkState.poor, 2, 0, LinkState.good), (.poor, 3, 0, .poor), (.lost, 9, 2, .good), (.lost, 9, 1, .lost)],
      (after (.aliveReply (telegram [0x06, 0x00, 0x00])) (judged p.1 p.2.1 0 p.2.2.1)).link.state = p.2.2.2 := by decide

/-- A watched tank 5 and an unwatched tank 1 in the poll queue, after `polls` watched polls. -/
def polled (st : TankState) (polls : Nat) : State :=
  withTank 0 tank5 (withTank 4 { tank5 with state := st, line := some 0 }
    (withLink (fun k => { k with poll := [0, 4, 6], polls := polls }) (judged .good 0 0 0)))

/-- R139: the 8th watched poll in a row, then an unwatched one; a tank near its stop re-enters behind the first watched tank. -/
theorem witness_ExchangeFails_polls :
    let link (s : State) : Link := (after .replyWindowExpired s).link
    ((link (polled .filling 7)).exchange.map (·.query), (link (polled .filling 7)).poll, (link (polled .filling 7)).polls)
        = (some (.level 4), [0, 6, 4], 8)
      ∧ ((link (polled .filling 8)).exchange.map (·.query), (link (polled .filling 8)).poll, (link (polled .filling 8)).polls)
        = (some (.level 0), [4, 6, 0], 0)
      ∧ (link (polled .topping 0)).poll = [0, 6, 4] := by decide

def levelBytes (fault age : Byte) : List Byte :=
  telegram [0x03, 0x05, 0x00, 0x00, 0x0C, 0x52, 0x4C, 0x01, fault, age, 0x05]

/-- A report of 807,500 L, V_hh of tank 5, as old as the record's measurement, one ds older, and with a faulted gauge. -/
theorem levelBytes_read :
    ∀ p ∈ [(false, 0x00#8, 30, 0x1E#8), (false, 0x00#8, 31, 0x1F#8), (true, 0x01#8, 0, 0x00#8)],
      readReply (.level 4) (levelBytes p.2.1 p.2.2.2)
        = some { stop := false, more := false, body := .level 807500 .opened p.1 p.2.2.1 5 } := by decide +kernel

theorem witness_LevelReplyReports :
    (asking (.level 4) delivering).link.exchange = some { query := .level 4, refresh := false, window := 1, part := none }
      ∧ (asking (.level 4) delivering).tank 4 = some { tank5 with state := .filling, line := some 0 }
      ∧ (asking (.level 4) part).tank 4 = none ∧ delivering.clock - 30 = tank5.mTime.getD 0
      ∧ delivering.clock - 31 < tank5.mTime.getD 0 ∧ tank5.pendingEntry = none
      ∧ tank5.cap * tank5.hh / 1000 = min 807500 tank5.cap := by decide

set_option maxRecDepth 100000 in
theorem witness_PermitReplyTaken :
    (asking (.permit 0) startable).link.exchange = some { query := .permit 0, refresh := false, window := 1, part := none }
      ∧ readReply (.permit 0) (telegram [0x04, 0x21, 0x00, 0x01])
        = some { stop := false, more := false, body := .permit true }
      ∧ 0 < startable.settings.linkloss ∧ (startable.seq 0).state ∈ [.connected, .held]
      ∧ (delivering.seq 0).state ∉ [.connected, .held] := by decide

set_option maxRecDepth 100000 in
/-- The link state after a PERMIT reply, and the exchange that follows it. -/
theorem witness_PermitReplyTaken_judged :
    let t := after (.permitReply (telegram [0x04, 0x21, 0x00, 0x01])) (asking (.permit 0) (judged .poor 2 0 0))
    (judged .poor 2 0 0).settings.linkloss = 10 ∧ t.link.state = .good ∧ t.link.exchange.map (·.query) = some (.level 4) := by
  decide

theorem witness_ExchangeFails :
    (∃ x, (asking .alive delivering).link.exchange = some x ∧ x.part = none)
      ∧ (∃ x, continuing.link.exchange = some x ∧ x.part.isSome = true ∧ x.refresh = false ∧ x.query = .entry 1)
      ∧ continuing.link.state = .acquiring ∧ (continuing.link.acq.map (·.attempts)) = some 0
      ∧ delivering.link.state ∈ [.good, .poor] ∧ delivering.link.failRun + 1 < delivering.settings.linkloss :=
  ⟨⟨_, rfl, rfl⟩, ⟨_, rfl, rfl, rfl, rfl⟩, by decide, by decide, by decide, by decide⟩

theorem level_lineups : LineupsSound (asking (.level 4) delivering) := delivering_lineups

/-- A HEADER of an acquisition that fails the third and the fourth time, and a refresh HEADER. -/
theorem witness_ExchangeFails_header :
    (∀ n ∈ [2, 3], let s := acquiring .header { header := none, next := 0, attempts := n, entries := [] };
      s.link.state = .acquiring ∧ s.link.exchange = some { query := .header, refresh := false, window := 1, part := none }
        ∧ s.link.acq = some { header := none, next := 0, attempts := n, entries := [] })
    ∧ (let x : Exchange := { query := .header, refresh := true, window := 1, part := none };
      (refreshing x { header := none, next := 0, entries := [] }).link.exchange = some x) := by decide

/-- R134, R135: a due refresh telegram, one that waits for its spacing, and the alive check of an empty poll queue. -/
theorem witness_ExchangeFails_next :
    let query (spacing : Nat) (poll : List TankId) (p : Option Refresh) : Option Query :=
      (after .replyWindowExpired (withLink (fun k => { k with spacing := spacing, poll := poll, refresh := p })
        (judged .good 0 0 0))).link.exchange.map (·.query)
    let p : Refresh := { header := none, next := 0, entries := [] }
    query 14 [4] (some p) = some .header ∧ query 13 [4] (some p) = some (.level 4) ∧ query 13 [] (some p) = some .header
      ∧ query 13 [] none = some .alive := by decide

theorem witness_LinkLostAndRecovered :
    (let s := withLink (fun k => { k with failRun := 10 }) delivering;
      s.link.state ∈ [.good, .poor] ∧ s.link.lossCount ≤ s.link.failRun)
    ∧ (let s := withLink (fun k => { k with state := .lost, succRun := 3 }) (paused .held [.link]);
      s.link.state = .lost ∧ 3 ≤ s.link.succRun ∧ AlarmsDistinct s) := by decide

/-- The loss of the link closes a delivering line on its profile, out of steady, and in MANUAL gauging leaves it alone. -/
theorem witness_LinkLostAndRecovered_lines :
    let s := withMeas (fun m => { m with steady := true }) (withRate (fun r => { r with maxRun := 2 })
      (withLink (fun k => { k with failRun := 10 }) delivering));
    let t := after .linkLost s;
    (t.drive 0).ramp = some { target := 0, step := 9 } ∧ (t.meas 0).steady = false ∧ (t.rate 0).maxRun = 0
      ∧ (after .linkLost (withLink (fun k => { k with gauging := .manual }) s)).seqs = s.seqs
      ∧ ((after .linkLost (withLink (fun k => { k with failRun := 10 }) (paused .held [.link]))).seq 0).holds = [.link] := by
  decide

/-- The console ESD taken, its alarm standing, and its conditions met for CLEAR ALL. -/
def stopped : State := withPort (fun p => { p with waiting := none }) (after .esd part)

theorem witness_EsdTaken :
    State.reset.port.waiting = none ∧ State.reset.phase = .starting ∧ part.port.waiting = none ∧ part.phase = .running
      ∧ stopped.port.waiting = none ∧ DeviceTrip.consoleEsd ∈ stopped.device ∧ stopped.esd.contact = .opened
      ∧ AlarmsDistinct stopped := by decide

theorem witness_EsdTaken_alarm : AlarmPresent stopped .consoleEsd .part :=
  ⟨{ kind := .consoleEsd, object := .part, acked := false, present := true, time := 1000 }, by decide, rfl, rfl, rfl⟩

theorem witness_ClearAllTaken :
    Ready stopped ∧ stopped.device ≠ [] ∧ stopped.esd.far = .closed ∧ stopped.overfills = []
      ∧ ∀ l, DeviceTrip.stretchTrip l ∈ stopped.device → stopped.stretchHigh l = false := by decide

/-- A line that CLEAR ALL clears with the device set empty, none TRIPPED, one that stays, and the far loop open. -/
theorem witness_ClearAllTaken_forms :
    (Ready tripped ∧ tripped.device = [] ∧ (tripped.seq 0).state = .tripped ∧ tripped.persisting 0 = [] ∧ AlarmsDistinct tripped)
    ∧ (Ready part ∧ part.device = [] ∧ ∀ l, (part.seq l).state ≠ .tripped)
    ∧ (let s := withMeas (fun m => { m with pressure := some 1501 }) tripped;
      Ready s ∧ s.device = [] ∧ (s.seq 0).state = .tripped ∧ s.persisting 0 = [.overpressure]
        ∧ ∀ l, ¬ ((s.seq l).state = .tripped ∧ s.persisting l = []))
    ∧ (Ready overfilled ∧ overfilled.device ≠ [] ∧ overfilled.overfills ≠ [])
    ∧ ∀ d : DeviceTrip, d ∈ [.stretchTrip 0] →
      let s := { withMeas (fun m => { m with stretch := some 1401 }) tripped with device := [d] }
      Ready s ∧ s.device ≠ [] ∧ s.stretchHigh 0 = true := by decide

theorem witness_AckTaken :
    Ready stopped ∧ (none : Option (List AlarmObject)) ≠ some [] ∧ some [AlarmKind.consoleEsd] ≠ some [] := by decide

/-- ACK of line 5 and of tank 17, and with words that name nothing. -/
theorem witness_AckTaken_refused :
    (∀ os ∈ [[ObjectWord.line 0], [.line 5], [.other, .tank 17]], reply (.ack (some os) none) stopped = some ["?", "ACK", "RANGE"])
      ∧ reply (.ack (some [.line 4, .tank 16]) (some [some .consoleEsd])) stopped = some ["=", "ACK", "0", "1", "ON"]
      ∧ (∀ p ∈ [(some [], none), (none, some []), (some [ObjectWord.other], none), (none, some [none])],
        reply (.ack p.1 p.2) stopped = some ["?", "ACK", "SYNTAX"]) := by decide

theorem witness_LoopReadingsTaken :
    part.esd.loop = .closed ∧ State.reset.esd.loop = .opened ∧ part.esd.far = .closed ∧ AlarmsDistinct part
      ∧ (after (.farLoopReadingChange .opened) part).esd.far = .opened
      ∧ AlarmsDistinct (after (.farLoopReadingChange .opened) part) := by decide

/-- The loop opens on a line in each state: one that trips, and two that take the cause alone. -/
theorem witness_LoopReadingsTaken_lines :
    ∀ p ∈ [(delivering, LineState.tripping), (driven .tripping 0 0, .tripping), (tripped, .tripped)],
      let t := after (.loopReadingChange .opened) p.1
      p.1.esd.loop = .closed ∧ (t.seq 0).state = p.2 ∧ TripCause.esdIn ∉ (p.1.seq 0).trips
        ∧ TripCause.esdIn ∈ (t.seq 0).trips ∧ t.alarms.map (fun a => (a.kind, a.object)) = [(.esdIn, .line 0)] := by decide

theorem witness_SetAndMaskTaken :
    Ready part ∧ ([(SettingName.estw, 7), (.changeover, 299)].map (·.1)).Nodup
      ∧ maskList ["NONE"] = some [] ∧ maskList ["ALARM", "DONE"] = some [.alarm, .done] := by decide

/-- A change-over timer whose run is 600 ds, at the new timeout and one under it, and a ring of six rates. -/
theorem witness_SetAndMaskTaken_tanks :
    let s := withTank 4 { tank5 with
      state := .releasing, line := some 0, timer := some { since := 400, expired := none }
      ring := [1, 2, 3, 4, 5, 6] } delivering;
    let t (v : Nat) : State := after (.set [.word "CHANGEOVER", .num v]) s;
    Ready s ∧ ((t 600).tank 4).bind (·.timer) = some { since := 400, expired := some 600 }
      ∧ (t 600).alarms.map (·.kind) = [.changeoverLate] ∧ (t 601).tanks = s.tanks ∧ (t 601).alarms = []
      ∧ ((after (.set [.word "ESTW", .num 4]) s).tank 4).map (·.ring) = some [3, 4, 5, 6]
      ∧ (after (.set [.word "ESTW", .num 8]) s).tanks = s.tanks := by decide

/-- Lists that SET and MASK refuse SYNTAX. -/
theorem witness_SetAndMaskTaken_refused :
    (∀ fs ∈ [[], [Field.word "ESTW"], [.num 4, .word "ESTW"], [.word "ESTX", .num 4],
        [.word "ESTW", .num 4, .word "ESTW", .num 4]], reply (.set fs) part = some ["?", "SET", "SYNTAX"])
    ∧ (∀ ws ∈ [["ALARM"], ["/", "ALARM"], ["ALARM", "/"], ["ALARM", "/", "LINK", "/", "DONE"], ["ALARMS", "/", "NONE"]],
      reply (.mask ws) part = some ["?", "MASK", "SYNTAX"]) := by decide

theorem witness_StoreRequestsTaken :
    Ready part ∧ part.key = false ∧ Ready unlocked ∧ unlocked.key = true ∧ unlocked.store.lock = false
      ∧ (unlocked.seq 0).state ∈ [.disconnected, .connected] ∧ unlocked.store.write = none
      ∧ LimitsSound record1 := by decide

theorem witness_StoreRequestsTaken_fields :
    (limitFields { record1 with qCap := 9001 }).map (fun f => decide (FieldWithin f)) = List.replicate 13 true ++ [false]
      ∧ (limitPairs { record1 with tMax := 100, tMin := 101 }).map (·.1) = [true, true, false, true, true] := by decide

/-- The refusals of LIMITS, in the order of its checks, and fields at and past the ends of their ranges. -/
theorem witness_StoreRequestsTaken_refused :
    (∀ p ∈ [(part, ["LOCKED", "KEY", "LOCK"]), ({ part with key := true }, ["LOCKED", "LOCK"]), ({ unlocked with key := false }, ["LOCKED", "KEY"]),
        (writing, ["BUSY", "1"]), (unlocked, ["SYNTAX"])],
      Ready p.1 ∧ reply (.limits 2 [none]) p.1 = some (["?", "LIMITS", "2"] ++ p.2))
    ∧ (∀ p ∈ [({ record1 with pRated := 299, tMin := 601 }, ["RANGE", "PRATED"]), ({ record1 with qCap := 9001 }, ["RANGE", "QCAP"]),
        ({ record1 with warnRun := 900, tMax := 100, tMin := 101 }, ["RANGE", "WRUN", "WSETTLE"]),
        ({ record1 with tMax := 100, tMin := 101 }, ["RANGE", "TMIN", "TMAX"]), ({ record1 with pRated := 300, tMin := 600 }, ["WRITING"])],
      reply (.limits 2 ((limitValues p.1).map some)) unlocked
        = some ((if p.2 = ["WRITING"] then "=" else "?") :: "LIMITS" :: "2" :: p.2)) := by decide

theorem witness_TimedEventsEnd :
    writing.store.write = some { line := 0, record := { record1 with f := 200, qMax := 5000 }, since := 998 }
      ∧ writing.limits 0 = some record1 ∧ State.reset.phase = .starting
      ∧ (let r := { tank5 with state := .releasing, line := some 0, timer := some { since := 500, expired := none } };
        (withTank 4 r delivering).tank 4 = some r) := by decide

/-- The premises of the frames: nothing else falls due on the way. -/
theorem witness_TimedEventsEnd_alone :
    (NoStartupEnd writing 1002 ∧ ∀ j, NoTimerEnd writing 1002 j)
    ∧ (let s := withTank 4 { tank5 with state := .releasing, timer := some { since := 500, expired := none } } delivering;
      NoStartupEnd s 1700 ∧ NoWriteEnd s 1700 ∧ ∀ j, j ≠ 4 → NoTimerEnd s 1700 j)
    ∧ NoWriteEnd State.reset 20 ∧ ∀ j, NoTimerEnd State.reset 20 j := by
  have a : ∀ j, writing.runningTimer j = none := by decide
  have b : ∀ j, j ≠ 4 → (withTank 4 { tank5 with state := .releasing, timer := some { since := 500, expired := none } }
    delivering).runningTimer j = none := by decide
  have c : ∀ j, State.reset.runningTimer j = none := by decide
  have none_ends : ∀ {o : Option ChangeTimer} {P : ChangeTimer → Prop}, o = none → ∀ x, o = some x → P x :=
    fun h x h' => by rw [h] at h'; cases h'
  have none_in_flight : ∀ {o : Option Write} {P : Write → Prop}, o = none → ∀ x, o = some x → P x :=
    fun h x h' => by rw [h] at h'; cases h'
  exact ⟨⟨.inl rfl, fun j => none_ends (a j)⟩, ⟨.inl rfl, none_in_flight rfl, fun j hj => none_ends (b j hj)⟩,
    none_in_flight rfl, fun j => none_ends (c j)⟩

theorem witness_ResetsTaken :
    writing.store.write.isSome = true ∧ part.writing 0 = false ∧ Ready part ∧ part.store.write = none
      ∧ ∀ l, (part.seq l).state ∉ [.stroking, .opening, .delivering, .holding, .finishing] := by decide

/-- A line of 97 characters. -/
def longLine : String := String.ofList (List.replicate 97 'A')

/-- The clauses of the lock flag: a stored flag whose check is right, and none stored. -/
theorem witness_ResetsTaken_lock :
    (∃ s : State, s.store.storedLock = some (false, Config.lockCheck false)) ∧ part.store.storedLock = none :=
  ⟨⟨{ part with store := { part.store with storedLock := some (false, Config.lockCheck false) } }, rfl⟩, by decide⟩

theorem witness_ConsoleLineEvents :
    dropReturn ("".toList) = [] ∧ 96 < (dropReturn longLine.toList).length ∧ part.port.waiting = none
      ∧ waiting.port.waiting.isSome = true ∧ waiting.port.held = none
      ∧ (withPort (fun p => { p with held := some { text := "LOCK", long := false } }) waiting).port.held.isSome = true
      ∧ { part with notices := [.trip] }.notices = .trip :: [] := by decide

theorem witness_ConsoleLineEvents_checked :
    checkedFields "X #0000".toList = none ∧ checkedFields (checkedRecord ["HELLO", "1"]).toList = some ["HELLO", "1"] := by
  decide +kernel

/-- A record that names a request, short enough to be taken, and the same line held behind a reply. -/
theorem witness_ConsoleLineEvents_request :
    let rec_ := checkedRecord ["HOLD", "1"]
    let s := withPort (fun p => { p with held := some { text := rec_, long := false } }) waiting
    checkedFields rec_.toList = some ["HOLD", "1"] ∧ rec_.length ≤ 96 ∧ rec_.toList ≠ []
      ∧ requestOf ["HOLD", "1"] = some (.hold 1) ∧ s.port.waiting = some ["=", "LOCK", "LOCK", "SET"]
      ∧ s.port.held = some { text := rec_, long := false } := by decide +kernel

end Sys2Proof.Tests
end

section
namespace Sys2Proof.Machine

/-! ### Reset -/

@[simp] theorem State.reset_seq (l : LineId) : State.reset.seq l = Seq.initial := vget_replicate _ l
@[simp] theorem State.reset_rate (l : LineId) : State.reset.rate l = Rate.initial := vget_replicate _ l
@[simp] theorem State.reset_meas (l : LineId) : State.reset.meas l = Meas.initial none := vget_replicate _ l
@[simp] theorem State.reset_drive (l : LineId) : State.reset.drive l = Drive.initial := vget_replicate _ l
@[simp] theorem State.reset_lineup (l : LineId) : State.reset.lineup l = [] := vget_replicate _ l
@[simp] theorem State.reset_tank (k : TankId) : State.reset.tank k = none := vget_replicate _ k
@[simp] theorem State.reset_record (l : LineId) :
    State.reset.record l = { fields := none, crc := 0, status := .blank } := vget_replicate _ l

/-- Settles O2: each block of `State.reset` is one of the initial blocks. -/
theorem resetLeavesTheStatedValues : Obligations.ResetLeavesTheStatedValues := by
  refine ⟨rfl, rfl, rfl, fun l => ?_, fun l => ?_, fun l => ?_, fun l => ?_, State.reset_lineup, State.reset_tank, rfl, rfl,
    rfl, rfl, rfl, rfl, fun _ => rfl, rfl, rfl⟩
  · exact State.reset_seq l
  · rw [State.reset_rate]; rfl
  · rw [State.reset_drive]; rfl
  · rw [State.reset_meas, State.reset_record]; rfl

end Sys2Proof.Machine
end

section
/-! SUPPORT. Whole states from their frames, alarm entries that are present, pending notices that stay, and what a trip leaves. -/

namespace Sys2Proof.Machine

/-! ### Whole states -/

/-- What the operations of a line supervisor can have changed (`SameElsewhere`), as a record update. -/
theorem SameElsewhere.eq {s t : State} (h : SameElsewhere s t) :
    t = { s with seqs := t.seqs, rates := t.rates, meass := t.meass, drives := t.drives, alarms := t.alarms,
                 horn := t.horn, notices := t.notices } := by
  obtain ⟨h1, h2, h3, h4, h5, h6, h7, h8, h9, h10, h11, h12, h13, h14⟩ := h
  cases s; cases t
  simp only at h1 h2 h3 h4 h5 h6 h7 h8 h9 h10 h11 h12 h13 h14
  subst h1 h2 h3 h4 h5 h6 h7 h8 h9 h10 h11 h12 h13 h14
  rfl

/-! ### Alarm entries whose condition is present (R152 to R154) -/

theorem AlarmPresent.congr {s t : State} (h : t.alarms = s.alarms) (k : AlarmKind) (o : AlarmObject) :
    AlarmPresent t k o ↔ AlarmPresent s k o := by
  unfold AlarmPresent; rw [h]

theorem alarmPresent_iff (s : State) (k : AlarmKind) (o : AlarmObject) :
    AlarmPresent s k o ↔ ∃ a ∈ s.alarms, a.isFor k o = true ∧ a.present = true := by
  simp [AlarmPresent, Alarm.isFor, and_assoc]

theorem Alarm.isFor_other {k k' : AlarmKind} {o o' : AlarmObject} (h : (k', o') ≠ (k, o)) {a : Alarm}
    (ha : a.isFor k' o' = true) : a.isFor k o = false := by
  rw [Bool.eq_false_iff]
  intro hb
  exact h (((Alarm.isFor_iff k' o' a).mp ha).symm.trans ((Alarm.isFor_iff k o a).mp hb))

/-- A list whose entries of one key alone are rewritten, with their key kept, has the other present entries it had. -/
theorem present_map_other {k k' : AlarmKind} {o o' : AlarmObject} (h : (k', o') ≠ (k, o)) (as : List Alarm) (b : Bool) :
    (∃ a ∈ as.map fun a => if Alarm.isFor k o a then { a with present := b } else a,
        a.isFor k' o' = true ∧ a.present = true)
      ↔ ∃ a ∈ as, a.isFor k' o' = true ∧ a.present = true := by
  constructor
  · rintro ⟨_, ha, hk, hp⟩
    obtain ⟨a, hm, rfl⟩ := List.mem_map.mp ha
    by_cases g : Alarm.isFor k o a = true
    · rw [if_pos g] at hk
      have e : a.isFor k' o' = true := hk
      rw [Alarm.isFor_other h e] at g
      cases g
    · rw [if_neg g] at hk hp
      exact ⟨a, hm, hk, hp⟩
  · rintro ⟨a, hm, hk, hp⟩
    exact ⟨a, List.mem_map.mpr ⟨a, hm, if_neg (by simp [Alarm.isFor_other h hk])⟩, hk, hp⟩

/-- R153: a raised entry is present. -/
theorem State.raiseAlarm_alarmPresent (s : State) (k : AlarmKind) (o : AlarmObject) :
    AlarmPresent (s.raiseAlarm k o) k o := by
  have := s.raiseAlarm_present k o
  rw [alarmPresent_iff]
  simpa [State.conditionPresent] using this

/-- R153: what is raised is the one entry. -/
theorem State.alarmPresent_raiseAlarm_other (s : State) {k k' : AlarmKind} {o o' : AlarmObject} (h : (k', o') ≠ (k, o)) :
    AlarmPresent (s.raiseAlarm k o) k' o' ↔ AlarmPresent s k' o' := by
  rw [alarmPresent_iff, alarmPresent_iff]
  rcases s.raiseAlarm_cases k o with ⟨-, e⟩ | ⟨a, -, -, e⟩ | ⟨a, -, -, e⟩ <;> rw [e]
  · have hn : Alarm.isFor k' o' { kind := k, object := o, acked := false, present := true, time := s.clock } = false := by
      rw [Bool.eq_false_iff]
      exact fun hb => h ((Alarm.isFor_iff k' o' _).mp hb).symm
    simp [List.mem_append, or_and_right, exists_or, hn]
  · exact present_map_other h _ true

/-- R154: what is gone is the one entry. -/
theorem State.alarmPresent_alarmGone_other (s : State) {k k' : AlarmKind} {o o' : AlarmObject} (h : (k', o') ≠ (k, o)) :
    AlarmPresent (s.alarmGone k o) k' o' ↔ AlarmPresent s k' o' := by
  rw [alarmPresent_iff, alarmPresent_iff]
  rcases s.alarmGone_cases k o with e | ⟨a, -, -, -, e⟩ | ⟨a, -, -, -, e⟩ <;> rw [e]
  · constructor
    · rintro ⟨b, hb, hk, hp⟩
      exact ⟨b, (List.mem_filter.mp hb).1, hk, hp⟩
    · rintro ⟨b, hb, hk, hp⟩
      exact ⟨b, List.mem_filter.mpr ⟨hb, by simp [Alarm.isFor_other h hk]⟩, hk, hp⟩
  · exact present_map_other h _ false

/-- R152, R154: over distinct entries a condition that has gone is not present. -/
theorem State.alarmGone_not_present (s : State) (k : AlarmKind) (o : AlarmObject) (d : AlarmsDistinct s) :
    ¬ AlarmPresent (s.alarmGone k o) k o := by
  rw [alarmPresent_iff]
  rintro ⟨b, hb, hk, hp⟩
  unfold State.alarmGone at hb
  cases hf : s.alarms.find? (Alarm.isFor k o) with
  | none =>
    rw [hf] at hb
    have := List.find?_eq_none.mp hf b hb
    exact this hk
  | some a =>
    rw [hf] at hb
    have ha : a.isFor k o = true := List.find?_some hf
    have hm := List.mem_of_find?_eq_some hf
    by_cases p : a.present = true
    · by_cases q : a.acked = true
      · simp [p, q, hk] at hb
      · simp only [p, q, if_true] at hb
        obtain ⟨c, -, rfl⟩ := List.mem_map.mp (by simpa using hb)
        by_cases g : Alarm.isFor k o c = true
        · rw [if_pos g] at hp; cases hp
        · rw [if_neg g] at hk; exact g hk
    · simp only [p] at hb
      have e := d.unique (by simpa using hb) hm
        (((Alarm.isFor_iff k o b).mp hk).trans ((Alarm.isFor_iff k o a).mp ha).symm)
      rw [e] at hp
      exact p hp

/-- R154: over distinct entries a condition that was gone stays so while it is ended again. -/
theorem State.not_present_alarmGone (s : State) {k k' : AlarmKind} {o o' : AlarmObject} (d : AlarmsDistinct s)
    (h : ¬ AlarmPresent s k' o') : ¬ AlarmPresent (s.alarmGone k o) k' o' := by
  by_cases e : (k', o') = (k, o)
  · obtain ⟨rfl, rfl⟩ := Prod.mk.inj e
    exact s.alarmGone_not_present _ _ d
  · rwa [s.alarmPresent_alarmGone_other e]

/-! ### Pending notices stay (R165) -/

theorem State.notify_subset (s : State) (n : Notice) : s.notices ⊆ (s.notify n).notices := fun m h => by
  rw [State.notify_notices, mem_noticesWith]; exact .inl h

/-- R165: a pair whose kind is on joins the set. -/
theorem State.mem_notify (s : State) (n : Notice) (h : n.allowed s.port.mask = true) : n ∈ (s.notify n).notices := by
  rw [State.notify_notices, mem_noticesWith]; exact .inr ⟨rfl, h⟩

theorem subset_of_noticesWith {s t : State} {n : Notice}
    (h : t.notices = s.notices ∨ t.notices = noticesWith s n) : s.notices ⊆ t.notices := fun m hm => by
  rcases h with h | h <;> rw [h]
  · exact hm
  · exact (mem_noticesWith s n m).mpr (.inl hm)

theorem State.modSeq_subset (s : State) (l : LineId) (f : Seq → Seq) : s.notices ⊆ (s.modSeq l f).notices :=
  subset_of_noticesWith (s.modSeq_eq_notify l f)

theorem Soft.subset {l : LineId} {s t : State} (h : Soft l s t) : s.notices ⊆ t.notices := by
  induction h with
  | refl => exact List.Subset.refl _
  | notify n _ ih => exact List.Subset.trans ih (State.notify_subset _ n)
  | raise k o _ ih => exact List.Subset.trans ih (subset_of_noticesWith (State.raiseAlarm_eq_notify _ k o))
  | gone k o _ ih => exact List.Subset.trans ih (subset_of_noticesWith (State.alarmGone_eq_notify _ k o))
  | rate f _ ih => exact ih
  | meas f _ _ ih => exact ih
  | drive f _ _ ih => exact ih

theorem Own.subset {l : LineId} {s t : State} (h : Own l s t) : s.notices ⊆ t.notices := by
  induction h with
  | refl => exact List.Subset.refl _
  | soft _ g ih => exact List.Subset.trans ih g.subset
  | seq f _ ih => exact List.Subset.trans ih (State.modSeq_subset _ l f)
  | drive f _ ih => exact ih

/-- R38: a change of a line's sequence state makes its LINE notice pending. -/
theorem State.modSeq_notices (s : State) (l : LineId) (f : Seq → Seq)
    (h : { f (s.seq l) with pump := pumpPermit (f (s.seq l)) s.esd.loop } ≠ s.seq l) :
    (s.modSeq l f).notices = noticesWith s (.line l) := by
  unfold State.modSeq
  simp only []
  rw [if_neg h, State.notify_notices]
  rfl

/-- R38: the LINE notice of a changed sequence state, its kind on in the mask. -/
theorem State.line_mem_modSeq (s : State) (l : LineId) (f : Seq → Seq)
    (h : { f (s.seq l) with pump := pumpPermit (f (s.seq l)) s.esd.loop } ≠ s.seq l)
    (hm : NoticeKind.line ∈ s.port.mask) : Notice.line l ∈ (s.modSeq l f).notices := by
  rw [s.modSeq_notices l f h, mem_noticesWith]
  exact .inr ⟨rfl, decide_eq_true hm⟩

/-! ### Trips (R55, R56) -/

theorem tripCause_mem_all (c : TripCause) : c ∈ TripCause.all := by cases c <;> decide

theorem TripCause.alarm_ne_flowUnsteady (c : TripCause) : c.alarm ≠ .flowUnsteady := by cases c <;> decide

theorem State.alarmGone_alarms_congr {s t : State} (h : t.alarms = s.alarms) (k : AlarmKind) (o : AlarmObject) :
    (t.alarmGone k o).alarms = (s.alarmGone k o).alarms := by
  unfold State.alarmGone
  rw [h]
  split
  · exact h
  · split
    · split <;> simp
    · exact h

@[simp] theorem State.endSteady_alarms (s : State) (l : LineId) : (s.endSteady l).alarms = s.alarms := by
  unfold State.endSteady; simp only []; split <;> simp

@[simp] theorem State.setTarget_alarms (s : State) (l : LineId) (t : Option (Nat × Governing)) :
    (s.setTarget l t).alarms = s.alarms := by
  unfold State.setTarget; simp only []; split <;> split <;> simp

@[simp] theorem State.dropTarget_alarms (s : State) (l : LineId) : (s.dropTarget l).alarms = s.alarms :=
  s.setTarget_alarms l none

@[simp] theorem State.abandonStroke_alarms (s : State) (l : LineId) : (s.abandonStroke l).alarms = s.alarms := by
  unfold State.abandonStroke; split <;> simp

/-- R14: leaving DELIVERING ends the FLOW_UNSTEADY condition, and touches no other alarm. -/
theorem State.leaveDelivering_alarms (s : State) (l : LineId) :
    (s.leaveDelivering l).alarms =
      if (s.seq l).state = .delivering then (s.alarmGone .flowUnsteady (.line l)).alarms else s.alarms := by
  unfold State.leaveDelivering
  split
  · simpa using State.alarmGone_alarms_congr (s.endSteady_alarms l) _ _
  · rfl

theorem State.enterTripping_alarms (s : State) (l : LineId) :
    (s.enterTripping l).alarms =
      if (s.seq l).state = .delivering then (s.alarmGone .flowUnsteady (.line l)).alarms else s.alarms := by
  simp only [State.enterTripping, State.modRate_alarms, State.dropTarget_alarms, State.modDrive_alarms,
    State.modSeq_alarms, State.leaveDelivering_alarms, (s.abandonStroke_soft l).seq, s.abandonStroke_alarms,
    State.alarmGone_alarms_congr (s.abandonStroke_alarms l)]

/-- R34: an abandoned stroke test is reported. -/
theorem State.abandonStroke_notices (s : State) (l : LineId) (h : (s.seq l).state = .stroking)
    (hm : NoticeKind.done ∈ s.port.mask) : Notice.doneStroke l ∈ (s.abandonStroke l).notices := by
  unfold State.abandonStroke
  rw [if_pos h]
  exact State.mem_notify _ _ (decide_eq_true hm)

theorem State.enterTripping_own_abandoned (s : State) (l : LineId) : Own l (s.abandonStroke l) (s.enterTripping l) :=
  ((((State.leaveDelivering_soft _ l).own.seq _).drive Drive.cut).soft (State.dropTarget_soft _ l)).soft (Soft.refl.rate _)

/-- R55: a cause joins, and its alarm is raised, before the line enters TRIPPING. -/
def State.joinTrip (s : State) (l : LineId) (c : TripCause) : State :=
  (s.modSeq l fun q => { q with trips := setInsert TripCause.all c q.trips }).raiseAlarm c.alarm (.line l)

theorem State.addTrip_eq_joined (s : State) (l : LineId) (c : TripCause) (hd : (s.seq l).state ≠ .disconnected)
    (hc : c ∉ (s.seq l).trips) :
    s.addTrip l c = if (s.seq l).state.trips then (s.joinTrip l c).enterTripping l else s.joinTrip l c := by
  simp [State.addTrip, State.joinTrip, hd, hc]

/-- R55: a line that holds the cause, or is DISCONNECTED, takes none. -/
theorem State.addTrip_eq_self (s : State) (l : LineId) (c : TripCause)
    (h : (s.seq l).state = .disconnected ∨ c ∈ (s.seq l).trips) : s.addTrip l c = s := by
  simp [State.addTrip, h]

theorem State.joinTrip_own (s : State) (l : LineId) (c : TripCause) : Own l s (s.joinTrip l c) :=
  (Own.refl.seq _).soft (Soft.refl.raise _ _)

theorem State.joinTrip_state (s : State) (l : LineId) (c : TripCause) :
    ((s.joinTrip l c).seq l).state = (s.seq l).state := by
  simp [State.joinTrip]

/-- R38: a cause that joins makes the LINE notice pending. -/
theorem State.line_mem_joinTrip (s : State) (l : LineId) (c : TripCause) (hc : c ∉ (s.seq l).trips)
    (hm : NoticeKind.line ∈ s.port.mask) : Notice.line l ∈ (s.joinTrip l c).notices := by
  refine (Soft.refl.raise _ _ : Soft l _ _).subset (State.line_mem_modSeq s l _ (fun e => hc ?_) hm)
  rw [← e]
  exact mem_setInsert.mpr ⟨tripCause_mem_all c, .inl rfl⟩

theorem LineState.trips_iff (st : LineState) : st.trips = true ↔ st ∉ [.disconnected, .tripping, .tripped] := by
  cases st <;> simp [LineState.trips]

/-- R14, R34, R55, R56, R76: a trip cause takes a line into TRIPPING. -/
theorem State.addTrip_lineTrips (s : State) (l : LineId) (c : TripCause) (h : (s.seq l).state.trips = true)
    (hc : c ∉ (s.seq l).trips) : LineTrips s (s.addTrip l c) l c (s.drive l).lastPos := by
  have hd : (s.seq l).state ≠ .disconnected := fun e => by rw [e] at h; cases h
  obtain ⟨hdrive, hrate, hmeas⟩ := s.addTrip_line l c h hc
  have e : s.addTrip l c = (s.joinTrip l c).enterTripping l := by rw [s.addTrip_eq_joined l c hd hc, if_pos h]
  have a := State.enterTripping_alarms (s.joinTrip l c) l
  rw [s.joinTrip_state, ← e] at a
  have g := State.enterTripping_own_abandoned (s.joinTrip l c) l
  rw [← e] at g
  refine ⟨?_, hdrive, hrate, hmeas, fun st d => ?_, fun st hm => ?_, fun hm => ?_, ?_⟩
  · rw [s.addTrip_seq]
    simp [hd, hc, h, pumpPermit]
  · rw [if_pos st] at a
    rw [AlarmPresent.congr a]
    exact State.alarmGone_not_present _ _ _ ((s.joinTrip_own l c).distinct d)
  · refine g.subset (State.abandonStroke_notices _ l (by rw [s.joinTrip_state, st]) ?_)
    rwa [(s.joinTrip_own l c).elsewhere.port]
  · exact g.subset ((State.abandonStroke_soft _ l).subset (s.line_mem_joinTrip l c hc hm))
  · have p : AlarmPresent (s.joinTrip l c) c.alarm (.line l) := State.raiseAlarm_alarmPresent _ _ _
    split at a
    · rwa [AlarmPresent.congr a, State.alarmPresent_alarmGone_other _ (by simp [c.alarm_ne_flowUnsteady])]
    · rwa [AlarmPresent.congr a]

theorem State.addTrip_trippingBy (s : State) (l : LineId) (c : TripCause) (h : (s.seq l).state.trips = true)
    (hc : c ∉ (s.seq l).trips) : TrippingBy s (s.addTrip l c) l c (s.drive l).lastPos :=
  ⟨s.addTrip_lineTrips l c h hc, (s.addTrip_own l c).only,
    by simp [State.lineup, (s.addTrip_own l c).elsewhere.lineups]⟩

/-- R57: a cause that joins a line in TRIPPING or TRIPPED. -/
theorem State.addTrip_causeAdded (s : State) (l : LineId) (c : TripCause)
    (h : (s.seq l).state = .tripping ∨ (s.seq l).state = .tripped) (hc : c ∉ (s.seq l).trips) :
    CauseAdded s (s.addTrip l c) l c := by
  have hd : (s.seq l).state ≠ .disconnected := by rcases h with h | h <;> simp [h]
  have ht : (s.seq l).state.trips = false := by rcases h with h | h <;> simp [h, LineState.trips]
  rw [s.addTrip_eq_joined l c hd hc, ht]
  refine ⟨?_, by simp [State.joinTrip], by simp [State.joinTrip], by simp [State.joinTrip],
    State.raiseAlarm_alarmPresent _ _ _⟩
  rcases h with h | h <;> simp [State.joinTrip, pumpPermit, h]

/-! ### SENSOR_FAULT, OVERPRESSURE and STRETCH_TRIP taken alone -/

/-- Settles O21: each row hands its cause to the line, which takes it into TRIPPING. -/
theorem sensorAndPressureTrips : Obligations.SensorAndPressureTrips := by
  refine ⟨fun l s hs hr hc => ?_, fun l s hs hr hc => ?_⟩
  · have e : s.judgeSensorFault l = s.addTrip l .sensorFault := by
      refine if_pos ⟨by simpa [Meas.faulted, or_assoc] using hr, ?_⟩
      revert hs; cases (s.seq l).state <;> simp [LineState.sensed]
    have h : (s.seq l).state.trips = true := by
      revert hs; cases (s.seq l).state <;> simp [LineState.trips]
    exact ⟨s.addTrip l .sensorFault, congrArg Host.Outcome.next e, s.addTrip_trippingBy l _ h hc,
      (s.addTrip_own l _).elsewhere.eq⟩
  · have h := (LineState.trips_iff _).mpr hs
    have e : s.judgeOverpressure l = s.addTrip l .overpressure :=
      if_pos ⟨fun e => by simp [e] at hs, hr⟩
    exact ⟨s.addTrip l .overpressure, congrArg Host.Outcome.next e, s.addTrip_trippingBy l _ h hc,
      (s.addTrip_own l _).elsewhere.eq⟩

end Sys2Proof.Machine
end

section
namespace Sys2Proof.Machine

/-- Two states that agree in every field. -/
theorem State.eq_of_fields {s t : State} (pending : s.pending = t.pending) (clock : s.clock = t.clock)
    (phase : s.phase = t.phase) (key : s.key = t.key) (settings : s.settings = t.settings) (store : s.store = t.store)
    (seqs : s.seqs = t.seqs) (rates : s.rates = t.rates) (meass : s.meass = t.meass) (drives : s.drives = t.drives)
    (lineups : s.lineups = t.lineups) (tanks : s.tanks = t.tanks) (link : s.link = t.link) (esd : s.esd = t.esd)
    (device : s.device = t.device) (overfills : s.overfills = t.overfills) (alarms : s.alarms = t.alarms)
    (horn : s.horn = t.horn) (port : s.port = t.port) (notices : s.notices = t.notices)
    (linkResult : s.linkResult = t.linkResult) : s = t := by
  cases s; cases t; simp_all

theorem State.seq_of_seqs {t : State} {v : Vector Seq 4} {l : LineId} {x : Seq} (h : t.seqs = vset v l x) : t.seq l = x := by
  simp [State.seq, h]

theorem State.rate_of_rates {t : State} {v : Vector Rate 4} {l : LineId} {x : Rate} (h : t.rates = vset v l x) :
    t.rate l = x := by
  simp [State.rate, h]

theorem State.meas_of_meass {t : State} {v : Vector Meas 4} {l : LineId} {x : Meas} (h : t.meass = vset v l x) :
    t.meas l = x := by
  simp [State.meas, h]

theorem State.drive_of_drives {t : State} {v : Vector Drive 4} {l : LineId} {x : Drive} (h : t.drives = vset v l x) :
    t.drive l = x := by
  simp [State.drive, h]

/-! ### Device trips (R147) -/

theorem State.joinDevice_subset (s : State) (d : DeviceTrip) : s.notices ⊆ (s.joinDevice d).notices := by
  unfold State.joinDevice
  split
  · exact List.Subset.refl _
  · exact fun n hn => State.notify_subset _ _ hn

theorem State.setContact_subset (s : State) (c : Contact) : s.notices ⊆ (s.setContact c).notices := by
  unfold State.setContact
  split
  · exact List.Subset.refl _
  · exact fun n hn => State.notify_subset _ _ hn

theorem State.deviceTrip_subset (s : State) (d : DeviceTrip) : s.notices ⊆ (s.deviceTrip d).notices := by
  refine List.Subset.trans ?_ (State.setContact_subset _ _)
  refine List.Subset.trans ?_ (subset_of_noticesWith (State.raiseAlarm_eq_notify _ _ _))
  rw [State.listOverfill_notices]
  exact s.joinDevice_subset d

theorem State.alarmPresent_deviceTrip_other (s : State) (d : DeviceTrip) {k : AlarmKind} {o : AlarmObject}
    (h : (k, o) ≠ d.alarm) : AlarmPresent (s.deviceTrip d) k o ↔ AlarmPresent s k o := by
  unfold State.deviceTrip
  rw [AlarmPresent.congr (State.setContact_alarms _ _), State.alarmPresent_raiseAlarm_other (k := d.alarm.1) (o := d.alarm.2) _ h]
  exact AlarmPresent.congr (by simp) k o

theorem State.deviceTrip_alarmPresent (s : State) (d : DeviceTrip) :
    AlarmPresent (s.deviceTrip d) d.alarm.1 d.alarm.2 := by
  unfold State.deviceTrip
  rw [AlarmPresent.congr (State.setContact_alarms _ _)]
  exact State.raiseAlarm_alarmPresent _ _ _

/-- A device trip after a trip of a line leaves what the trip has made of the line. -/
theorem LineTrips.deviceTrip {s t : State} {l : LineId} {c : TripCause} {last : Option Nat} (h : LineTrips s t l c last)
    (d : DeviceTrip) (hd : d.alarm.1 ≠ .flowUnsteady) : LineTrips s (t.deviceTrip d) l c last := by
  obtain ⟨hseq, hdrive, hrate, hmeas, hsteady, hstroke, hline, halarm⟩ := h
  refine ⟨by rw [← hseq]; simp, by rw [← hdrive]; simp, by rw [← hrate]; simp, by rw [← hmeas]; simp,
    fun st dis => ?_, fun st hm => t.deviceTrip_subset d (hstroke st hm), fun hm => t.deviceTrip_subset d (hline hm), ?_⟩
  · rw [State.alarmPresent_deviceTrip_other _ _ fun e => hd (by rw [← e])]
    exact hsteady st dis
  · by_cases e : (c.alarm, AlarmObject.line l) = d.alarm
    · have := t.deviceTrip_alarmPresent d
      rwa [← e] at this
    · exact (State.alarmPresent_deviceTrip_other _ _ e).mpr halarm

/-- Settles O22: the trip of the line (`State.addTrip_trippingBy`), and then the device trip. -/
theorem stretchTripOpensTheContact : Obligations.StretchTripOpensTheContact := by
  intro l s hs hr hc
  have e : s.judgeStretchTrip l = (s.addTrip l .stretchTrip).deviceTrip (.stretchTrip l) :=
    if_pos ⟨fun e => by simp [e] at hs, hr⟩
  obtain ⟨trip, only, lineup⟩ := s.addTrip_trippingBy l .stretchTrip ((LineState.trips_iff _).mpr hs) hc
  have same := (s.addTrip_own l .stretchTrip).elsewhere
  refine ⟨_, congrArg Host.Outcome.next e, ⟨trip.deviceTrip _ (by simp [DeviceTrip.alarm]), fun k hk => ?_, ?_⟩, fun d => ?_,
    ?_, ?_⟩
  · simpa using only k hk
  · simpa using lineup
  · rw [State.mem_deviceTrip, same.device]
  · rw [State.deviceTrip_esd, same.esd]
  · apply State.eq_of_fields
    all_goals simp [same.pending, same.clock, same.phase, same.key, same.settings, same.store, same.lineups, same.tanks,
      same.link, same.port, same.linkResult]
    simpa [State.deviceTrip, State.listOverfill] using same.overfills

/-! ### The tracking check taken alone (R29) -/

/-- A trip is told from any state that agrees with the one before it in what a trip keeps of the line. -/
theorem LineTrips.of_before {s s' t : State} {l : LineId} {c : TripCause} {last : Option Nat} (h : LineTrips s' t l c last)
    (hseq : s'.seq l = { s.seq l with pump := (s'.seq l).pump })
    (hcut : cutDrive (s.seq l).state (s'.drive l) last = cutDrive (s.seq l).state (s.drive l) last)
    (hrate : trippedRate (s.seq l).state (s'.rate l) = trippedRate (s.seq l).state (s.rate l))
    (hmeas : (if (s.seq l).state = .delivering then { s'.meas l with steady := false, inRun := 0, outRun := 0 } else s'.meas l)
      = if (s.seq l).state = .delivering then { s.meas l with steady := false, inRun := 0, outRun := 0 } else s.meas l)
    (hdistinct : AlarmsDistinct s → AlarmsDistinct s') (hport : s'.port = s.port) : LineTrips s t l c last := by
  have hstate : (s'.seq l).state = (s.seq l).state := by rw [hseq]
  unfold LineTrips at h ⊢
  rw [hstate, hcut, hrate, hmeas, hport] at h
  obtain ⟨h1, h2, h3, h4, h5, h6⟩ := h
  rw [hseq] at h1
  exact ⟨h1, h2, h3, h4, fun st d => h5 st (hdistinct d), h6⟩

/-- R57, R76: what the entry to TRIPPED does. -/
theorem State.enterTripped_eq (s : State) (l : LineId) :
    s.enterTripped l = { s with
      seqs := vset s.seqs l { s.seq l with state := .tripped, pump := false }
      drives := vset s.drives l { s.drive l with ramp := none, setpoint := 0, track := 0 }
      rates := vset s.rates l { s.rate l with eff := none, governing := none }
      notices := (s.enterTripped l).notices } := by
  apply State.eq_of_fields <;>
    simp [State.enterTripped, State.dropTarget, State.setTarget_eq, pumpPermit, Drive.rest, Drive.trackFrom0]

/-- R32, R33, R43: what the return to CONNECTED does to a line whose stroke test has ended. -/
theorem State.strokeToConnected_eq (s : State) (l : LineId) :
    s.strokeToConnected l = { s with
      seqs := vset s.seqs l { s.seq l with state := .connected, holds := [], pump := false }
      drives := vset s.drives l { s.drive l with track := 0 }
      rates := vset s.rates l { s.rate l with eff := none, governing := none, pendingTarget := none }
      notices := (s.strokeToConnected l).notices } := by
  apply State.eq_of_fields <;>
    simp [State.strokeToConnected, State.dropTarget, State.setTarget_eq, pumpPermit, Drive.trackFrom0, State.rate, vset_vset]

/-- R33, R43: a failed stroke test, from any state. -/
theorem State.failStroke_strokeFailed (s : State) (l : LineId) (why : StrokeFailure) :
    StrokeFailed s (s.failStroke l why) l why := by
  have own := s.failStroke_own l why
  unfold State.failStroke at own ⊢
  generalize hu : ((s.modDrive l fun d => (d.endStroke (.failed why)).adjust 0).notify (.doneStroke l)).raiseAlarm
    .strokeFailed (.line l) = u at own ⊢
  have e := u.strokeToConnected_eq l
  refine ⟨?_, ?_, ?_, ?_, fun hm => ?_, own.only, ?_⟩
  · rw [e]; simp [State.seq, ← hu]
  · rw [e]; simp [State.drive, ← hu, Drive.endStroke, Drive.adjust]
  · rw [e]; simp [State.rate, ← hu]
  · rw [AlarmPresent.congr (s := u) (by rw [e]), ← hu]
    exact State.raiseAlarm_alarmPresent _ _ _
  · refine (u.strokeToConnected_own l).subset ?_
    rw [← hu]
    exact (Soft.refl.raise _ _ : Soft l _ _).subset (State.mem_notify _ _ (decide_eq_true hm))
  · have m : (u.strokeToConnected l).meass = s.meass := by rw [e, ← hu]; simp
    have := own.elsewhere.eq
    rw [m] at this
    exact this

/-- R57: VALVE_TRAVEL handed to a line in TRIPPING or TRIPPED whose tracking timer has been set to 0. -/
theorem State.addTrip_tracked (s : State) (l : LineId) (c : TripCause)
    (h : (s.seq l).state = .tripping ∨ (s.seq l).state = .tripped) :
    let u := (s.modDrive l Drive.trackFrom0).addTrip l c
    (u.seq l = if c ∈ (s.seq l).trips then s.seq l
        else { s.seq l with trips := setInsert TripCause.all c (s.seq l).trips, pump := false })
      ∧ u.drive l = { s.drive l with track := 0 } ∧ u.meass = s.meass
      ∧ (c ∉ (s.seq l).trips → AlarmPresent u c.alarm (.line l)) ∧ (c ∈ (s.seq l).trips → u.alarms = s.alarms) := by
  by_cases hc : c ∈ (s.seq l).trips
  · simp only [State.addTrip_eq_self (s.modDrive l Drive.trackFrom0) l c (.inr hc), hc, if_true]
    exact ⟨rfl, by simp [Drive.trackFrom0], rfl, fun g => absurd trivial g, fun _ => rfl⟩
  · have hd : (s.seq l).state ≠ .disconnected := by rcases h with h | h <;> simp [h]
    have ht : (s.seq l).state.trips = false := by rcases h with h | h <;> simp [h, LineState.trips]
    obtain ⟨seq, drive, -, -, alarm⟩ := (s.modDrive l Drive.trackFrom0).addTrip_causeAdded l c h hc
    refine ⟨by simpa [hc] using seq, by simpa [Drive.trackFrom0] using drive, ?_, fun _ => alarm, fun g => absurd g hc⟩
    rw [State.addTrip_eq_joined (s.modDrive l Drive.trackFrom0) l c hd hc]
    simp [ht, State.joinTrip]

/-- Settles O23: by the line state in which the check has failed. -/
theorem trackingCheckFails : Obligations.TrackingCheckFails := by
  refine ⟨fun l s h => congrArg Host.Outcome.next (if_neg fun g => by omega), fun l s h => ?_⟩
  have judged : (s.seq l).state.tracked = true → s.judgeTracking l = s.failTracking l := fun ht => if_pos ⟨ht, h⟩
  refine ⟨fun hs hc => ?_, fun hs => ?_, fun hs => ?_⟩
  · have ht : (s.seq l).state.tracked = true := by revert hs; cases (s.seq l).state <;> simp [LineState.tracked]
    have e : s.failTracking l = (s.modDrive l Drive.trackFrom0).addTrip l .valveTravel := by
      revert hs; unfold State.failTracking; cases (s.seq l).state <;> simp
    have htrips : (s.seq l).state.trips = true := by revert hs; cases (s.seq l).state <;> simp [LineState.trips]
    obtain ⟨trip, only, lineup⟩ := (s.modDrive l Drive.trackFrom0).addTrip_trippingBy l .valveTravel htrips hc
    have own : Own l s ((s.modDrive l Drive.trackFrom0).addTrip l .valveTravel) :=
      (Own.refl.drive _).trans (State.addTrip_own _ l _)
    refine ⟨_, congrArg Host.Outcome.next ((judged ht).trans e), ⟨?_, own.only, lineup⟩, own.elsewhere.eq⟩
    have last : ((s.modDrive l Drive.trackFrom0).drive l).lastPos = (s.drive l).lastPos := by simp [Drive.trackFrom0]
    rw [last] at trip
    exact trip.of_before rfl (by simp [cutDrive, Drive.trackFrom0]) rfl rfl id rfl
  · have e : s.judgeTracking l = ((s.modDrive l Drive.trackFrom0).addTrip l .valveTravel).enterTripped l := by
      rw [judged (by simp [hs, LineState.tracked])]; simp [State.failTracking, hs]
    obtain ⟨hseq, hdrive, hmeass, halarm⟩ := s.addTrip_tracked l .valveTravel (.inl hs)
    have own := s.judgeTracking_own l
    rw [e] at own
    generalize (s.modDrive l Drive.trackFrom0).addTrip l .valveTravel = u at *
    have eq := u.enterTripped_eq l
    refine ⟨_, congrArg Host.Outcome.next e, ?_, ?_, fun hc => ?_, fun hc => ?_, own.only, ?_⟩
    · rw [State.seq_of_seqs (by rw [eq]), hseq]
      split <;> rfl
    · rw [State.drive_of_drives (by rw [eq]), hdrive]
    · rw [AlarmPresent.congr (s := u) (by rw [eq])]
      exact halarm.1 hc
    · rw [eq]; exact halarm.2 hc
    · have m : (u.enterTripped l).meass = s.meass := by rw [eq]; exact hmeass
      have := own.elsewhere.eq
      rw [m] at this
      exact this
  · have e : s.judgeTracking l = (s.modDrive l Drive.trackFrom0).failStroke l .travel := by
      rw [judged (by simp [hs, LineState.tracked])]; simp [State.failTracking, hs]
    obtain ⟨seq, drive, rate, alarm, notice, only, whole⟩ :=
      (s.modDrive l Drive.trackFrom0).failStroke_strokeFailed l .travel
    refine ⟨_, congrArg Host.Outcome.next e, seq, ?_, rate, alarm, notice, ?_, ?_⟩
    · simpa [Drive.trackFrom0] using drive
    · exact ((Own.refl.drive _).trans (State.failStroke_own _ l _)).only
    · simpa [State.modDrive] using whole

end Sys2Proof.Machine
end

section
namespace Sys2Proof.Machine

/-- R49, R62: the clearing of a hold cause, which no condition of the pump permit reads. -/
theorem State.dropHold_seq (s : State) (l k : LineId) (c : HoldCause) :
    (s.dropHold l c).seq k = if k = l then
      { s.seq l with holds := setErase c (s.seq l).holds, pump := pumpPermit (s.seq l) s.esd.loop } else s.seq k :=
  s.modSeq_seq l k _

/-! ### The detectors taken alone (R11, R13, R14) -/

/-- Settles O26: each row makes its judgement, or leaves the state where its run is too short. -/
theorem detectorsAct : Obligations.DetectorsAct := by
  refine ⟨fun l s h => congrArg Host.Outcome.next (if_neg fun g => by have := g.2.2; omega), fun l s hs hst hn hd => ?_,
    fun l s hs hst hn => ?_, fun l s hw hn hd => ?_⟩
  · have e : s.judgeSteady l = s.enterSteady l := if_pos ⟨hs, hst, hn⟩
    have soft := s.enterSteady_soft l
    refine ⟨_, congrArg Host.Outcome.next e, by simp [State.enterSteady], ?_, fun hm => ?_, soft.own.only, ?_⟩
    · exact State.alarmGone_not_present _ _ _ ((Soft.refl.meas _ ⟨rfl, Nat.le_refl _⟩ : Soft l s _).notify _ |>.distinct hd)
    · exact (Soft.refl.gone _ _ : Soft l _ _).subset (State.mem_notify _ _ (decide_eq_true hm))
    · apply State.eq_of_fields <;> simp [State.enterSteady]
  · have e : s.judgeUnsteady l = (s.endSteady l).raiseAlarm .flowUnsteady (.line l) := if_pos ⟨hs, hst, hn⟩
    have soft : Soft l s ((s.endSteady l).raiseAlarm .flowUnsteady (.line l)) := (s.endSteady_soft l).raise _ _
    refine ⟨_, congrArg Host.Outcome.next e, by simp [State.endSteady, hst], State.raiseAlarm_alarmPresent _ _ _, fun hm => ?_,
      soft.own.only, ?_⟩
    · refine (Soft.refl.raise _ _ : Soft l _ _).subset ?_
      simp only [State.endSteady, hst, if_true]
      exact State.mem_notify _ _ (decide_eq_true hm)
    · apply State.eq_of_fields <;> simp [State.endSteady, hst]
  · have e : s.judgeStretchClear l = ((s.modMeas l fun m => { m with warn := false }).dropHold l .stretch).alarmGone
        .stretchWarn (.line l) := if_pos ⟨hw, hn⟩
    have soft : Soft l s (s.modMeas l fun m => { m with warn := false }) := Soft.refl.meas _ ⟨rfl, Nat.le_refl _⟩
    refine ⟨_, congrArg Host.Outcome.next e, by simp [State.dropHold], by simp [State.dropHold_seq], ?_,
      e ▸ (s.judgeStretchClear_own l).only, ?_⟩
    · exact State.alarmGone_not_present _ _ _ ((soft.own.trans (State.dropHold_own _ l _)).distinct hd)
    · apply State.eq_of_fields <;> simp [State.dropHold]

/-! ### CONNECT (R40) -/

/-- R40: what a taken CONNECT does, whole. -/
theorem State.connectLine_eq (s : State) (l : LineId) (g : Nat) (h : (s.seq l).state = .disconnected) :
    s.connectLine l g = { s with
      seqs := vset s.seqs l { s.seq l with state := .connected, grade := some g, pump := false }
      meass := vset s.meass l { s.meas l with pTot := 0, dBase := 0, band := .settling }
      drives := vset s.drives l { s.drive l with enabled := true, ramp := none, setpoint := 0 }
      notices := noticesWith s (.line l) } := by
  have n : (s.modSeq l fun q => { q with state := .connected, grade := some g }).notices = noticesWith s (.line l) :=
    s.modSeq_notices l _ fun e => by
      have := congrArg Seq.state e
      rw [h] at this
      cases this
  apply State.eq_of_fields <;> simp [State.connectLine, pumpPermit, Drive.turnOn, n]

/-- Settles O27: the checks of R40 in their order. -/
theorem connectTaken : Obligations.ConnectTaken := by
  intro l g s hr hs
  have run : ∀ t, (if (s.seq l).state ≠ .disconnected then s.refuse ["CONNECT", numText (lineNumber l)] ["STATE"]
      else if g < 1 ∨ 4 < g then s.refuse ["CONNECT", numText (lineNumber l)] ["RANGE"]
      else if s.limits l = none ∨ s.writing l then s.refuse ["CONNECT", numText (lineNumber l)] ["BLANK"]
      else (s.connectLine l g).take ["CONNECT", numText (lineNumber l)] [LineState.connected.text, numText g]) = t →
      exec (.connect (lineNumber l) g) s = .next t := fun t h => by
    show Host.Outcome.next (s.drained.takeConnect (lineNumber l) g) = _
    rw [s.drained_ready hr, State.takeConnect, State.lineRequest_ready hr.1, h]
  refine ⟨fun h1 h4 hl hw => run _ ?_, fun h => run _ ?_, fun h1 h4 hb => run _ ?_⟩
  · rw [if_neg (not_not.mpr hs), if_neg (by omega), if_neg (by simp [hl, hw]), s.connectLine_eq l g hs]
    rfl
  · rw [if_neg (not_not.mpr hs), if_pos h]; rfl
  · rw [if_neg (not_not.mpr hs), if_neg (by omega), if_pos hb]; rfl

end Sys2Proof.Machine
end

section
/-! SUPPORT. What an event handed to every line leaves of each line: the writes of the other lines pass it by (`Aside`). -/

namespace Sys2Proof.Machine

/-- From `s` to `t` other lines than `l` have been written: line `l`, the alarm conditions of its own, and what no line
supervisor writes are as they were, and no pending notice has gone. -/
structure Aside (l : LineId) (s t : State) : Prop where
  seq : t.seq l = s.seq l
  rate : t.rate l = s.rate l
  meas : t.meas l = s.meas l
  drive : t.drive l = s.drive l
  alarms : ∀ k, AlarmPresent t k (.line l) ↔ AlarmPresent s k (.line l)
  notices : s.notices ⊆ t.notices
  distinct : AlarmsDistinct s → AlarmsDistinct t
  elsewhere : SameElsewhere s t

theorem Aside.refl (l : LineId) (s : State) : Aside l s s :=
  ⟨rfl, rfl, rfl, rfl, fun _ => Iff.rfl, List.Subset.refl _, id, SameElsewhere.rfl'⟩

theorem Aside.trans {l : LineId} {s t u : State} (h : Aside l s t) (g : Aside l t u) : Aside l s u :=
  ⟨g.seq.trans h.seq, g.rate.trans h.rate, g.meas.trans h.meas, g.drive.trans h.drive,
    fun k => (g.alarms k).trans (h.alarms k), List.Subset.trans h.notices g.notices, fun d => g.distinct (h.distinct d),
    h.elsewhere.trans g.elsewhere⟩

theorem Own.aside {l k : LineId} {s t : State} (h : Own k s t) (hk : l ≠ k)
    (ha : ∀ x, AlarmPresent t x (.line l) ↔ AlarmPresent s x (.line l)) : Aside l s t :=
  have o := h.only l hk
  ⟨o.1, o.2.1, o.2.2.1, o.2.2.2.1, ha, h.subset, h.distinct, h.elsewhere⟩

/-- An event handed to each line in turn, seen from one line: the others before it and after it pass it by. -/
theorem foldl_around {f : State → LineId → State} {l : LineId} (hf : ∀ t k, l ≠ k → Aside l t (f t k)) (ls : List LineId)
    (hl : l ∈ ls) (nd : ls.Nodup) (s : State) : ∃ a, Aside l s a ∧ Aside l (f a l) (ls.foldl f s) := by
  have skip : ∀ (ks : List LineId) (s : State), l ∉ ks → Aside l s (ks.foldl f s) := by
    intro ks
    induction ks with
    | nil => exact fun s _ => Aside.refl l s
    | cons k ks ih =>
      intro s hn
      obtain ⟨hk, hks⟩ := not_or.mp (mt List.mem_cons.mpr hn)
      exact (hf s k hk).trans (ih _ hks)
  induction ls generalizing s with
  | nil => cases hl
  | cons k ks ih =>
    obtain ⟨hk, hks⟩ := List.nodup_cons.mp nd
    by_cases e : l = k
    · subst e
      exact ⟨s, Aside.refl l s, skip ks _ hk⟩
    · obtain ⟨a, h, g⟩ := ih ((List.mem_cons.mp hl).resolve_left e) hks (f s k)
      exact ⟨a, (hf s k e).trans h, g⟩

theorem State.eachLine_around {f : State → LineId → State} {l : LineId} (hf : ∀ t k, l ≠ k → Aside l t (f t k))
    (s : State) : ∃ a, Aside l s a ∧ Aside l (f a l) (s.eachLine f) :=
  foldl_around hf allLines (line_mem_all l) (by decide) s

theorem State.eachLine_elsewhere {f : State → LineId → State} (hf : ∀ t k, SameElsewhere t (f t k)) (s : State) :
    SameElsewhere s (s.eachLine f) := by
  unfold State.eachLine
  induction allLines generalizing s with
  | nil => exact SameElsewhere.rfl'
  | cons l ls ih => exact (hf s l).trans (ih _)

/-! ### Alarms of another line -/

theorem line_object_ne {l k : LineId} (h : l ≠ k) (x y : AlarmKind) : (x, AlarmObject.line l) ≠ (y, AlarmObject.line k) := by
  simp [h]

theorem State.alarmPresent_leaveDelivering (s : State) {l k : LineId} (h : l ≠ k) (x : AlarmKind) :
    AlarmPresent (s.leaveDelivering k) x (.line l) ↔ AlarmPresent s x (.line l) := by
  have a := s.leaveDelivering_alarms k
  split at a
  · rw [AlarmPresent.congr a, State.alarmPresent_alarmGone_other _ (line_object_ne h _ _)]
  · exact AlarmPresent.congr a _ _

theorem State.addTrip_aside (s : State) {l k : LineId} (c : TripCause) (h : l ≠ k) : Aside l s (s.addTrip k c) := by
  refine (s.addTrip_own k c).aside h fun x => ?_
  by_cases g : (s.seq k).state = .disconnected ∨ c ∈ (s.seq k).trips
  · rw [s.addTrip_eq_self k c g]
  · obtain ⟨hd, hc⟩ := not_or.mp g
    have j : AlarmPresent (s.joinTrip k c) x (.line l) ↔ AlarmPresent s x (.line l) := by
      unfold State.joinTrip
      rw [State.alarmPresent_raiseAlarm_other _ (line_object_ne h _ _)]
      exact AlarmPresent.congr (by simp) _ _
    rw [s.addTrip_eq_joined k c hd hc]
    split
    · have a := State.enterTripping_alarms (s.joinTrip k c) k
      split at a
      · rw [AlarmPresent.congr a, State.alarmPresent_alarmGone_other _ (line_object_ne h _ _), j]
      · rw [AlarmPresent.congr a, j]
    · exact j

/-! ### What a trip handed to every line leaves of each -/

theorem LineTrips.around {s a b t : State} {l : LineId} {c : TripCause} {last : Option Nat} (h : Aside l s a)
    (m : LineTrips a b l c last) (g : Aside l b t) : LineTrips s t l c last := by
  obtain ⟨hseq, hdrive, hrate, hmeas, hsteady, hstroke, hline, halarm⟩ := m
  rw [h.seq, h.drive, h.rate, h.meas, h.elsewhere.port] at *
  exact ⟨g.seq.trans hseq, g.drive.trans hdrive, g.rate.trans hrate, g.meas.trans hmeas,
    fun st d => mt (g.alarms _).mp (hsteady st (h.distinct d)), fun st hm => g.notices (hstroke st hm),
    fun hm => g.notices (hline hm), (g.alarms _).mpr halarm⟩

theorem CauseAdded.around {s a b t : State} {l : LineId} {c : TripCause} (h : Aside l s a)
    (m : CauseAdded a b l c) (g : Aside l b t) : CauseAdded s t l c := by
  obtain ⟨hseq, hdrive, hrate, hmeas, halarm⟩ := m
  rw [h.seq, h.drive, h.rate, h.meas] at *
  exact ⟨g.seq.trans hseq, g.drive.trans hdrive, g.rate.trans hrate, g.meas.trans hmeas, (g.alarms _).mpr halarm⟩

/-! ### The loop readings (R145, R146) -/

/-- One change made to the sequence state of every line, whole. -/
theorem State.eachLine_modSeq_seq (s : State) (f : Seq → Seq) (l : LineId) :
    (s.eachLine fun s l => s.modSeq l f).seq l = { f (s.seq l) with pump := pumpPermit (f (s.seq l)) s.esd.loop } := by
  have hl := line_mem_all l
  simp only [allLines, List.mem_cons, List.not_mem_nil, or_false] at hl
  simp only [State.eachLine, allLines, List.foldl, State.modSeq_seq, State.modSeq_esd]
  rcases hl with rfl | rfl | rfl | rfl <;> rfl

theorem State.eachLine_modSeq_eq (s : State) (f : Seq → Seq) :
    (s.eachLine fun s l => s.modSeq l f) = { s with
      seqs := (s.eachLine fun s l => s.modSeq l f).seqs, notices := (s.eachLine fun s l => s.modSeq l f).notices } := by
  apply State.eq_of_fields <;> simp [State.eachLine, allLines]

/-- R62: every line's pump permit re-judged, whole. -/
theorem State.judgePumps_seq (s : State) (l : LineId) :
    s.judgePumps.seq l = { s.seq l with pump := pumpPermit (s.seq l) s.esd.loop } :=
  s.eachLine_modSeq_seq id l

theorem State.judgePumps_eq (s : State) :
    s.judgePumps = { s with seqs := s.judgePumps.seqs, notices := s.judgePumps.notices } :=
  s.eachLine_modSeq_eq id

theorem pumpPermit_opened (q : Seq) : pumpPermit q .opened = false := by simp [pumpPermit]

/-- R145: the loop reading opened, with the pump permits re-judged, before ESD_IN is handed to the lines. -/
def State.loopOpened (s : State) : State := (({ s with esd := { s.esd with loop := .opened } }).notify .trip).judgePumps

theorem State.loopOpened_eq (s : State) :
    s.loopOpened = { s with
      seqs := s.loopOpened.seqs, esd := { s.esd with loop := .opened }, notices := s.loopOpened.notices } := by
  unfold State.loopOpened
  rw [State.judgePumps_eq]
  apply State.eq_of_fields <;> simp

theorem State.loopOpened_seq (s : State) (l : LineId) : s.loopOpened.seq l = { s.seq l with pump := false } := by
  unfold State.loopOpened
  rw [State.judgePumps_seq, State.notify_seq, State.notify_esd, pumpPermit_opened]
  rfl

/-- R145: a line to which ESD_IN is handed as the loop opens, by its state and its set. -/
theorem State.loopOpened_line (s : State) (l : LineId) :
    let t := s.loopOpened.eachLine fun s l => s.addTrip l .esdIn
    ((s.seq l).state.trips = true → TripCause.esdIn ∉ (s.seq l).trips → LineTrips s t l .esdIn (s.drive l).lastPos)
    ∧ ((s.seq l).state = .tripping ∨ (s.seq l).state = .tripped → TripCause.esdIn ∉ (s.seq l).trips →
        CauseAdded s t l .esdIn)
    ∧ ((s.seq l).state = .disconnected ∨ TripCause.esdIn ∈ (s.seq l).trips →
        t.seq l = { s.seq l with pump := false } ∧ t.drive l = s.drive l ∧ t.rate l = s.rate l ∧ t.meas l = s.meas l) := by
  obtain ⟨a, before, after⟩ := s.loopOpened.eachLine_around (l := l) fun t k hk => t.addTrip_aside .esdIn hk
  have seq : a.seq l = { s.seq l with pump := false } := before.seq.trans (s.loopOpened_seq l)
  have rate : s.loopOpened.rate l = s.rate l := by simp only [State.rate]; rw [s.loopOpened_eq]
  have meas : s.loopOpened.meas l = s.meas l := by simp only [State.meas]; rw [s.loopOpened_eq]
  have drive : s.loopOpened.drive l = s.drive l := by simp only [State.drive]; rw [s.loopOpened_eq]
  refine ⟨fun h hc => ?_, fun h hc => ?_, fun h => ?_⟩
  · have m := a.addTrip_lineTrips l .esdIn (by rw [seq]; exact h) (by rw [seq]; exact hc)
    rw [before.drive] at m
    have g := LineTrips.around before m after
    rw [drive] at g
    exact g.of_before (by rw [s.loopOpened_seq]) (by rw [drive]) (by rw [rate]) (by rw [meas])
      (by rw [s.loopOpened_eq]; exact id) (by rw [s.loopOpened_eq])
  · have m := a.addTrip_causeAdded l .esdIn (by rw [seq]; exact h) (by rw [seq]; exact hc)
    have g := CauseAdded.around before m after
    unfold CauseAdded at g ⊢
    rwa [s.loopOpened_seq, drive, rate, meas] at g
  · have e := a.addTrip_eq_self l .esdIn (by rw [seq]; exact h)
    rw [e] at after
    exact ⟨after.seq.trans seq, (after.drive.trans before.drive).trans drive, (after.rate.trans before.rate).trans rate,
      (after.meas.trans before.meas).trans meas⟩

theorem State.setLoopReading_opened (s : State) (h : s.esd.loop = .closed) :
    s.setLoopReading .opened = s.loopOpened.eachLine fun s l => s.addTrip l .esdIn := by
  simp [State.setLoopReading, State.loopOpened, h]

theorem State.setLoopReading_closed (s : State) (h : s.esd.loop = .opened) :
    s.setLoopReading .closed = (({ s with esd := { s.esd with loop := .closed } }).notify .trip).judgePumps := by
  simp [State.setLoopReading, h]

/-- R146: a change of the far-loop reading. -/
theorem State.setFarReading_opened (s : State) (h : s.esd.far = .closed) : s.setFarReading .opened =
    ((({ s with esd := { s.esd with far := .opened } }).notify .trip).joinDevice .esdIn).raiseAlarm .esdIn .loop := by
  simp [State.setFarReading, h]

theorem State.setFarReading_closed (s : State) (h : s.esd.far = .opened) : s.setFarReading .closed =
    ((({ s with esd := { s.esd with far := .closed } }).notify .trip).leaveDevice .esdIn).alarmGone .esdIn .loop := by
  simp [State.setFarReading, h]

/-- Settles O55: line by line as the loop opens (`State.loopOpened_line`), and the two readings whole otherwise. -/
theorem loopReadingsTaken : Obligations.LoopReadingsTaken := by
  refine ⟨fun s h => ?_, fun s h => ?_, fun s h => ?_, fun s h d => ?_⟩
  · refine ⟨_, congrArg Host.Outcome.next (s.setLoopReading_opened h), ?_⟩
    have line := s.loopOpened_line
    have own : ∀ (t : State) (k : LineId), SameElsewhere t (t.addTrip k .esdIn) := fun t k => (t.addTrip_own k _).elsewhere
    have same := s.loopOpened.eachLine_elsewhere own
    generalize (s.loopOpened.eachLine fun s l => s.addTrip l .esdIn) = t at line same ⊢
    have joins : ∀ l, (s.seq l).state ∉ [.disconnected, .tripping, .tripped] → TripCause.esdIn ∉ (s.seq l).trips →
        LineTrips s t l .esdIn (s.drive l).lastPos := fun l hs => (line l).1 ((LineState.trips_iff _).mpr hs)
    have adds : ∀ l, (s.seq l).state ∈ [.tripping, .tripped] → TripCause.esdIn ∉ (s.seq l).trips →
        CauseAdded s t l .esdIn := fun l hs => (line l).2.1 (by simpa using hs)
    have held : ∀ cs, TripCause.esdIn ∈ setInsert TripCause.all .esdIn cs :=
      fun _ => mem_setInsert.mpr ⟨tripCause_mem_all _, .inl rfl⟩
    have cases : ∀ l, ((s.seq l).state = .disconnected ∨ TripCause.esdIn ∈ (s.seq l).trips)
        ∨ LineTrips s t l .esdIn (s.drive l).lastPos ∨ CauseAdded s t l .esdIn := by
      intro l
      by_cases hd : (s.seq l).state = .disconnected ∨ TripCause.esdIn ∈ (s.seq l).trips
      · exact .inl hd
      · obtain ⟨hn, hc⟩ := not_or.mp hd
        by_cases ht : (s.seq l).state ∈ [.tripping, .tripped]
        · exact .inr (.inr (adds l ht hc))
        · exact .inr (.inl (joins l (by simp_all) hc))
    refine ⟨?_, fun l => ?_, fun l hd => ?_, fun l hs hc => ?_, joins, adds, fun l => (line l).2.2, fun l hd => ?_, ?_⟩
    · rw [same.esd, s.loopOpened_eq]
    · rcases cases l with h | h | h
      · rw [((line l).2.2 h).1]
      · rw [h.1]
      · rw [h.1]
    · rcases cases l with h | h | h
      · rw [((line l).2.2 h).1]; exact h.resolve_left hd
      · rw [h.1]; exact held _
      · rw [h.1]; exact held _
    · obtain ⟨hseq, hdrive, -⟩ := joins l hs hc
      rw [hseq, hdrive]
      exact ⟨rfl, rfl, rfl⟩
    · rw [((line l).2.2 (.inl hd)).1]
    · rw [same.tanks, same.lineups, same.link, same.device, same.overfills, same.port]
      unfold KeepsBase
      rw [same.pending, same.clock, same.phase, same.key, same.settings, same.store, s.loopOpened_eq]
      exact ⟨rfl, rfl, rfl, rfl, rfl, rfl, rfl, rfl, rfl, rfl, rfl, rfl⟩
  · refine ⟨_, congrArg Host.Outcome.next (s.setLoopReading_closed h), fun l => ?_, ?_⟩
    · rw [State.judgePumps_seq, State.notify_seq, State.notify_esd]; rfl
    · rw [State.judgePumps_eq]
      apply State.eq_of_fields <;> simp
  · refine ⟨_, congrArg Host.Outcome.next (s.setFarReading_opened h), fun d => ?_, State.raiseAlarm_alarmPresent _ _ _, ?_⟩
    · rw [State.raiseAlarm_device, State.mem_joinDevice, State.notify_device]
    · apply State.eq_of_fields <;> simp
  · refine ⟨_, congrArg Host.Outcome.next (s.setFarReading_closed h), fun x => ?_, ?_, ?_⟩
    · rw [State.alarmGone_device, State.mem_leaveDevice, State.notify_device, and_comm]
    · refine State.alarmGone_not_present _ _ _ ?_
      unfold AlarmsDistinct
      simpa using d
    · apply State.eq_of_fields <;> simp

end Sys2Proof.Machine
end

section
/-! SUPPORT. Hold causes and profiled closures (R18, R47, R48): what they leave of a line, and HOLD, LINK_LOST and LINK_RECOVERED. -/

namespace Sys2Proof.Machine

/-- From `s` to `a` nothing has changed that a hold cause reads of line `l`. -/
structure Alike (l : LineId) (s a : State) : Prop where
  seq : a.seq l = s.seq l
  rate : a.rate l = s.rate l
  meas : a.meas l = s.meas l
  drive : a.drive l = s.drive l
  esd : a.esd = s.esd
  store : a.store = s.store
  clock : a.clock = s.clock
  port : a.port = s.port
  distinct : AlarmsDistinct s → AlarmsDistinct a

theorem Aside.alike {l : LineId} {s a : State} (h : Aside l s a) : Alike l s a :=
  ⟨h.seq, h.rate, h.meas, h.drive, h.elsewhere.esd, h.elsewhere.store, h.elsewhere.clock, h.elsewhere.port, h.distinct⟩

theorem Alike.trans {l : LineId} {s t u : State} (h : Alike l s t) (g : Alike l t u) : Alike l s u :=
  ⟨g.seq.trans h.seq, g.rate.trans h.rate, g.meas.trans h.meas, g.drive.trans h.drive, g.esd.trans h.esd,
    g.store.trans h.store, g.clock.trans h.clock, g.port.trans h.port, fun d => g.distinct (h.distinct d)⟩

/-! ### The profiled closure (R18, R48, R53) -/

/-- R18: a fresh T_close reads the record, the readings and T_stroke, of which the end of steady changes none. -/
theorem State.freshTClose_congr {s t : State} {l : LineId} {st : Bool} {i o : Nat} (hs : t.store = s.store)
    (hc : t.clock = s.clock) (hm : t.meas l = { s.meas l with steady := st, inRun := i, outRun := o })
    (hd : (t.drive l).tStroke = (s.drive l).tStroke) : t.freshTClose l = s.freshTClose l := by
  have e : t.limits l = s.limits l := by unfold State.limits State.record; rw [hs]
  unfold State.freshTClose
  rw [e, hd]
  cases s.limits l with
  | none => rfl
  | some lim =>
    unfold State.latestReadings
    rw [hm, hc]
    rfl

theorem State.leaveDelivering_steady (s : State) (l : LineId) : ∃ st i o,
    (s.leaveDelivering l).meas l = { s.meas l with steady := st, inRun := i, outRun := o } := by
  rw [(s.leaveDelivering_line l).2.1]
  split
  · exact ⟨_, _, _, rfl⟩
  · exact ⟨_, _, _, rfl⟩

theorem State.leaveDelivering_left (s : State) (l : LineId) : LeftDelivering s (s.leaveDelivering l) l := by
  obtain ⟨-, hm, hr⟩ := s.leaveDelivering_line l
  refine ⟨fun h => ?_, fun h => ?_⟩
  · rw [if_pos h] at hm hr
    refine ⟨hm, by rw [hr], fun d => ?_, fun st m => ?_⟩
    · have a := s.leaveDelivering_alarms l
      rw [if_pos h] at a
      rw [AlarmPresent.congr a]
      exact State.alarmGone_not_present _ _ _ d
    · unfold State.leaveDelivering State.endSteady
      rw [if_pos h, if_pos st]
      exact ((Soft.refl.gone _ _).rate _ : Soft l _ _).subset (State.mem_notify _ _ (decide_eq_true m))
  · rw [if_neg h] at hm hr
    exact ⟨hm, by rw [hr]⟩

/-- What has been said of a line as it left DELIVERING stands while its measurements and rates stay, the pending target apart. -/
theorem LeftDelivering.later {s b t : State} {l : LineId} (h : LeftDelivering s b l) (hm : t.meas l = b.meas l)
    (hr : t.rate l = { b.rate l with pendingTarget := (t.rate l).pendingTarget })
    (ha : AlarmPresent t .flowUnsteady (.line l) → AlarmPresent b .flowUnsteady (.line l))
    (hn : b.notices ⊆ t.notices) : LeftDelivering s t l := by
  refine ⟨fun d => ?_, fun d => ?_⟩
  · obtain ⟨m, r, a, n⟩ := h.1 d
    exact ⟨hm.trans m, by rw [hr, r], fun g => mt ha (a g), fun st k => hn (n st k)⟩
  · obtain ⟨m, r⟩ := h.2 d
    exact ⟨hm.trans m, by rw [hr, r]⟩

theorem LeftDelivering.after {s a t : State} {l : LineId} (g : Alike l s a) (h : LeftDelivering a t l) :
    LeftDelivering s t l := by
  obtain ⟨h1, h2⟩ := h
  rw [g.seq, g.meas, g.rate] at h1 h2
  rw [g.port] at h1
  exact ⟨fun d => (h1 d).imp id fun x => x.imp id fun x => x.imp (fun f k => f (g.distinct k)) id, h2⟩

/-! ### A hold cause handed to a line (R47, R48) -/

theorem LineState.takesHold_iff (st : LineState) :
    st.takesHold = true ↔ st ∈ [LineState.opening, .delivering, .holding, .held] := by
  cases st <;> decide

theorem LineState.moving_iff (st : LineState) : st.moving = true ↔ st ∈ [LineState.opening, .delivering] := by
  cases st <;> decide

theorem LineState.takesHold_of_moving {st : LineState} : st.moving = true → st.takesHold = true := by
  cases st <;> decide

theorem holdCause_mem_all (c : HoldCause) : c ∈ HoldCause.all := by cases c <;> decide

theorem State.addHold_of_moving {s : State} {l : LineId} {c : HoldCause} (hm : (s.seq l).state.moving = true)
    (hc : c ∉ (s.seq l).holds) : s.addHold l c =
      ((s.leaveDelivering l).modSeq l fun q =>
        { q with state := .holding, holds := setInsert HoldCause.all c q.holds }).closeOnProfile l := by
  simp [State.addHold, hm, LineState.takesHold_of_moving hm, hc]

theorem State.addHold_of_paused {s : State} {l : LineId} {c : HoldCause} (ht : (s.seq l).state.takesHold = true)
    (hm : (s.seq l).state.moving = false) (hc : c ∉ (s.seq l).holds) : s.addHold l c =
      s.modSeq l fun q => { q with holds := setInsert HoldCause.all c q.holds } := by
  simp [State.addHold, hm, ht, hc]

theorem State.addHold_eq_self {s : State} {l : LineId} {c : HoldCause}
    (h : (s.seq l).state.takesHold = false ∨ c ∈ (s.seq l).holds) : s.addHold l c = s := by
  rcases h with h | h <;> simp [State.addHold, h]

/-- R48: the line that a joining hold cause takes to HOLDING, whole. -/
theorem State.addHold_begins {s : State} {l : LineId} {c : HoldCause} (hm : (s.seq l).state.moving = true)
    (hc : c ∉ (s.seq l).holds) :
    (s.addHold l c).seq l = { s.seq l with
        state := .holding
        holds := setInsert HoldCause.all c (s.seq l).holds
        pump := (s.seq l).permit && (s.seq l).trips.isEmpty && decide (s.esd.loop = .closed) }
      ∧ (s.addHold l c).drive l = ((s.drive l).rampTo 0 (s.freshTClose l)).trackFrom0
      ∧ ((s.addHold l c).rate l).pendingTarget = (s.rate l).pendingTarget
      ∧ LeftDelivering s (s.addHold l c) l := by
  rw [State.addHold_of_moving hm hc]
  have soft := s.leaveDelivering_soft l
  obtain ⟨hd, -, hr⟩ := s.leaveDelivering_line l
  obtain ⟨st, i, o, steady⟩ := s.leaveDelivering_steady l
  have fresh : ((s.leaveDelivering l).modSeq l fun q =>
      { q with state := .holding, holds := setInsert HoldCause.all c q.holds }).freshTClose l = s.freshTClose l :=
    State.freshTClose_congr (by simp [soft.elsewhere.store]) (by simp [soft.elsewhere.clock]) (by simpa using steady)
      (by simp [hd])
  refine ⟨?_, ?_, ?_, ?_⟩
  · simp [State.closeOnProfile, pumpPermit, soft.seq, soft.elsewhere.esd]
  · simp only [State.closeOnProfile, fresh]
    simp [hd]
  · simp only [State.closeOnProfile, State.modDrive_rate, State.modSeq_rate, hr]
    split <;> rfl
  · refine (s.leaveDelivering_left l).later (by simp [State.closeOnProfile]) (by simp [State.closeOnProfile])
      (fun a => (AlarmPresent.congr (by simp [State.closeOnProfile]) _ _).mp a) ?_
    simp only [State.closeOnProfile, State.modDrive_notices]
    exact State.modSeq_subset _ _ _

theorem State.addHold_handed (s : State) (l : LineId) (c : HoldCause) : HoldHanded c s (s.addHold l c) l := by
  unfold HoldHanded
  rw [← LineState.moving_iff, ← LineState.takesHold_iff]
  by_cases hc : c ∈ (s.seq l).holds
  · rw [State.addHold_eq_self (.inr hc)]
    exact ⟨fun h => absurd hc h.2, fun _ => ⟨rfl, rfl, rfl, rfl⟩, fun _ => hc, fun _ => rfl, fun _ _ => Iff.rfl, rfl, rfl⟩
  have joins : ∀ d, d ∈ setInsert HoldCause.all c (s.seq l).holds ↔ d = c ∨ d ∈ (s.seq l).holds := fun d =>
    mem_setInsert.trans (and_iff_right (holdCause_mem_all d))
  by_cases hm : (s.seq l).state.moving = true
  · obtain ⟨hseq, hdrive, hpending, hleft⟩ := State.addHold_begins hm hc
    have holds : ((s.addHold l c).seq l).holds = setInsert HoldCause.all c (s.seq l).holds := by rw [hseq]
    have mem : c ∈ ((s.addHold l c).seq l).holds := by rw [holds]; exact (joins c).mpr (.inl rfl)
    refine ⟨fun _ => ⟨by rw [hseq], mem, by rw [hseq]; rfl, hdrive, hpending, hleft⟩, fun h => absurd ⟨hm, hc⟩ h, fun _ => mem,
      fun h => absurd (LineState.takesHold_of_moving hm) h, fun d hd => ?_, by rw [hseq], by rw [hseq]⟩
    rw [holds, joins, or_iff_right hd]
  · by_cases ht : (s.seq l).state.takesHold = true
    · have mem : c ∈ setInsert HoldCause.all c (s.seq l).holds := (joins c).mpr (.inl rfl)
      rw [State.addHold_of_paused ht (by simpa using hm) hc]
      refine ⟨fun h => absurd h.1 hm, fun _ => by simp, fun _ => by simpa using mem, fun h => absurd ht h, fun d hd => ?_,
        by simp, by simp⟩
      simp [joins, hd]
    · rw [State.addHold_eq_self (.inl (by simpa using ht))]
      exact ⟨fun h => absurd h.1 hm, fun _ => ⟨rfl, rfl, rfl, rfl⟩, fun h => absurd h ht, fun _ => rfl, fun _ _ => Iff.rfl,
        rfl, rfl⟩

theorem HoldHanded.after {s a t : State} {l : LineId} {c : HoldCause} (g : Alike l s a) (h : HoldHanded c a t l) :
    HoldHanded c s t l := by
  obtain ⟨h1, h2, h3, h4, h5, h6, h7⟩ := h
  rw [g.seq] at *
  rw [g.drive, g.rate, g.meas] at h2
  refine ⟨fun b => ?_, h2, h3, h4, h5, h6, h7⟩
  obtain ⟨state, holds, pump, drive, pending, left⟩ := h1 b
  have fresh : a.freshTClose l = s.freshTClose l := State.freshTClose_congr g.store g.clock
    (by rw [g.meas]) (by rw [g.drive])
  rw [g.esd] at pump
  rw [fresh, g.drive] at drive
  rw [g.rate] at pending
  exact ⟨state, holds, pump, drive, pending, left.after g⟩

/-- What a hold cause has brought a line stands while its permit alone changes. -/
theorem HoldHanded.later {s b t : State} {l : LineId} {c : HoldCause} (h : HoldHanded c s b l) {p u : Bool}
    (hseq : t.seq l = { b.seq l with permit := p, pump := u }) (hpump : u = pumpPermit (t.seq l) s.esd.loop)
    (hd : t.drive l = b.drive l) (hr : t.rate l = b.rate l) (hm : t.meas l = b.meas l)
    (ha : AlarmPresent t .flowUnsteady (.line l) → AlarmPresent b .flowUnsteady (.line l))
    (hn : b.notices ⊆ t.notices) : HoldHanded c s t l := by
  obtain ⟨h1, h2, h3, h4, h5, h6, h7⟩ := h
  have state : (t.seq l).state = (b.seq l).state := by rw [hseq]
  have holds : (t.seq l).holds = (b.seq l).holds := by rw [hseq]
  refine ⟨fun g => ?_, fun g => ?_, by rwa [holds], by rwa [holds], by rwa [holds], by rw [hseq]; exact h6, by rw [hseq]; exact h7⟩
  · obtain ⟨bstate, bholds, -, drive, pending, left⟩ := h1 g
    exact ⟨state.trans bstate, by rwa [holds], by rw [← hpump, hseq], hd.trans drive, by rw [hr, pending],
      left.later hm (by rw [hr]) ha hn⟩
  · rw [state, hd, hr, hm]
    exact h2 g

theorem State.addHold_alarmPresent (s : State) (l : LineId) (c : HoldCause) {x : AlarmKind} {o : AlarmObject}
    (h : (x, o) ≠ (.flowUnsteady, .line l)) : AlarmPresent (s.addHold l c) x o ↔ AlarmPresent s x o := by
  have left : AlarmPresent (s.leaveDelivering l) x o ↔ AlarmPresent s x o := by
    have a := s.leaveDelivering_alarms l
    split at a
    · rw [AlarmPresent.congr a, State.alarmPresent_alarmGone_other _ h]
    · exact AlarmPresent.congr a _ _
  unfold State.addHold
  simp only []
  split
  · split
    · rw [← left]
      exact AlarmPresent.congr (by simp [State.closeOnProfile]) _ _
    · exact AlarmPresent.congr (by simp) _ _
  · exact Iff.rfl

/-! ### The link (R129) -/

/-- R129: what the loss of the link does on one line. -/
def State.linkLostOn (s : State) (l : LineId) : State := (s.addHold l .link).clearPermit l

theorem State.linkLostOn_own (s : State) (l : LineId) : Own l s (s.linkLostOn l) :=
  (s.addHold_own l .link).trans ((s.addHold l .link).clearPermit_own l)

theorem State.clearPermit_seq (s : State) (l : LineId) :
    (s.clearPermit l).seq l = { s.seq l with permit := false, pump := false } := by
  simp [State.clearPermit, pumpPermit]

theorem State.linkLostOn_line (s : State) (l : LineId) : ((s.linkLostOn l).seq l).permit = false
    ∧ ((s.linkLostOn l).seq l).pump = false ∧ HoldHanded .link s (s.linkLostOn l) l := by
  have e := (s.addHold l .link).clearPermit_seq l
  refine ⟨by rw [State.linkLostOn, e], by rw [State.linkLostOn, e], ?_⟩
  refine (s.addHold_handed l .link).later e (by rw [State.linkLostOn, e]; simp [pumpPermit]) (by simp [State.linkLostOn, State.clearPermit])
    (by simp [State.linkLostOn, State.clearPermit]) (by simp [State.linkLostOn, State.clearPermit]) (AlarmPresent.congr ?_ _ _).mp
    (State.modSeq_subset _ _ _)
  simp [State.linkLostOn, State.clearPermit]

theorem State.linkLostOn_aside (s : State) {l k : LineId} (h : l ≠ k) : Aside l s (s.linkLostOn k) := by
  refine (s.linkLostOn_own k).aside h fun x => ?_
  rw [← s.addHold_alarmPresent k .link (line_object_ne h _ _)]
  exact AlarmPresent.congr (by simp [State.linkLostOn, State.clearPermit]) _ _

theorem HoldHanded.before {s b t : State} {l : LineId} {c : HoldCause} (h : HoldHanded c s b l) (g : Aside l b t) :
    HoldHanded c s t l := by
  by_cases m : (s.seq l).state ∈ [LineState.opening, .delivering] ∧ c ∉ (s.seq l).holds
  · refine h.later (p := (b.seq l).permit) (u := (b.seq l).pump) g.seq ?_ g.drive g.rate g.meas (g.alarms _).mp g.notices
    rw [g.seq]
    exact (h.1 m).2.2.1
  · obtain ⟨-, h2, h3⟩ := h
    rw [← g.seq, ← g.drive, ← g.rate, ← g.meas] at h2
    rw [← g.seq] at h3
    exact ⟨fun k => absurd k m, h2, h3⟩

/-- R129: the outcome of a permit query set on each of a list of lines. -/
theorem foldl_setOutcome (o : PermitOutcome) (ls : List LineId) (s : State) :
    let t := ls.foldl (fun s l => s.setOutcome l o) s
    t = { s with link := { s.link with outcomes := t.link.outcomes }, notices := t.notices }
      ∧ (∀ l ∈ ls, vget t.link.outcomes l = some o)
      ∧ (∀ l, vget s.link.outcomes l = some o → vget t.link.outcomes l = some o) ∧ s.notices ⊆ t.notices := by
  induction ls generalizing s with
  | nil => exact ⟨rfl, fun _ h => absurd h List.not_mem_nil, fun _ h => h, List.Subset.refl _⟩
  | cons k ks ih =>
    obtain ⟨whole, listed, kept, notices⟩ := ih (s.setOutcome k o)
    have set : vget (s.setOutcome k o).link.outcomes k = some o := by simp
    refine ⟨?_, fun l h => ?_, fun l h => kept l ?_, List.Subset.trans ?_ notices⟩
    · rw [List.foldl_cons, whole]
      apply State.eq_of_fields <;> simp
    · rcases List.mem_cons.mp h with rfl | h
      · exact kept l set
      · exact listed l h
    · rw [State.setOutcome_link]
      by_cases e : l = k
      · subst e; simp
      · simpa [vget_vset, e] using h
    · unfold State.setOutcome
      split
      · exact List.Subset.refl _
      · simpa using State.notify_subset (s.modLink _) _

/-- R129: LOST entered, before its lines are told. -/
def State.lost (s : State) : State :=
  ((s.modLinkNoticed fun k => { k with state := .lost, succRun := 0 }).raiseAlarm .linkLost .link).dropQueries

theorem State.enterLost_eq (s : State) : s.enterLost =
    if s.link.gauging = .linked then s.lost.eachLine State.linkLostOn else s.lost := by
  unfold State.enterLost
  have e : s.lost.link.gauging = s.link.gauging := by
    unfold State.lost State.dropQueries
    rw [(foldl_setOutcome _ _ _).1]
    simp
  rw [← e]
  rfl

theorem State.lost_eq (s : State) : s.lost = { s with
      link := { s.link with state := .lost, succRun := 0, queries := [], outcomes := s.lost.link.outcomes }
      alarms := s.lost.alarms
      horn := s.lost.horn
      notices := s.lost.notices } := by
  unfold State.lost State.dropQueries
  rw [(foldl_setOutcome _ _ _).1]
  apply State.eq_of_fields <;> simp

theorem State.lost_outcomes (s : State) : ∀ l ∈ s.link.queries, vget s.lost.link.outcomes l = some .noReply := by
  have h := (foldl_setOutcome .noReply s.link.queries (((s.modLinkNoticed fun k =>
    { k with state := .lost, succRun := 0 }).raiseAlarm .linkLost .link).modLink fun k => { k with queries := [] })).2.1
  unfold State.lost State.dropQueries
  simpa using h

theorem State.lost_alarmPresent (s : State) : AlarmPresent s.lost .linkLost .link := by
  unfold State.lost State.dropQueries
  rw [AlarmPresent.congr (show _ = ((s.modLinkNoticed fun k => { k with state := .lost, succRun := 0 }).raiseAlarm
    .linkLost .link).alarms by rw [(foldl_setOutcome _ _ _).1]; simp)]
  exact State.raiseAlarm_alarmPresent _ _ _

theorem State.lost_distinct (s : State) (d : AlarmsDistinct s) : AlarmsDistinct s.lost := by
  have raised : AlarmsDistinct ((s.modLinkNoticed fun k => { k with state := .lost, succRun := 0 }).raiseAlarm .linkLost .link) :=
    (Soft.refl.raise _ _ : Soft 0 _ _).distinct (by unfold AlarmsDistinct; simpa using d)
  unfold State.lost State.dropQueries
  unfold AlarmsDistinct at raised ⊢
  rw [(foldl_setOutcome _ _ _).1]
  simpa using raised

theorem State.lost_alike (s : State) (l : LineId) : Alike l s s.lost := by
  have e := s.lost_eq
  constructor
  · rw [e]; rfl
  · rw [e]; rfl
  · rw [e]; rfl
  · rw [e]; rfl
  · rw [e]
  · rw [e]
  · rw [e]
  · rw [e]
  · exact s.lost_distinct

/-- The alarm condition of the link stands while the lines are told of its loss. -/
theorem State.eachLine_linkLostOn_alarmPresent (s : State) :
    AlarmPresent (s.eachLine State.linkLostOn) .linkLost .link ↔ AlarmPresent s .linkLost .link := by
  unfold State.eachLine
  induction allLines generalizing s with
  | nil => exact Iff.rfl
  | cons l ls ih =>
    rw [List.foldl_cons, ih, ← s.addHold_alarmPresent l .link (x := .linkLost) (o := .link) (by simp)]
    exact AlarmPresent.congr (by simp [State.linkLostOn, State.clearPermit]) _ _

/-- R129: the loss of the link, line by line. -/
theorem State.enterLost_handed (s : State) : LinkLossHanded s s.enterLost := by
  rw [s.enterLost_eq]
  refine ⟨fun g l => ?_, fun g => ?_⟩
  · rw [if_pos g]
    obtain ⟨a, before, after⟩ := s.lost.eachLine_around (l := l) fun t k hk => t.linkLostOn_aside hk
    obtain ⟨permit, pump, handed⟩ := a.linkLostOn_line l
    rw [after.seq]
    exact ⟨permit, pump, (handed.after ((s.lost_alike l).trans before.alike)).before after⟩
  · rw [if_neg (by rw [g]; decide), s.lost_eq]
    exact ⟨rfl, rfl, rfl, rfl⟩

theorem State.enterLost_elsewhere (s : State) : SameElsewhere s.lost s.enterLost := by
  rw [s.enterLost_eq]
  split
  · exact s.lost.eachLine_elsewhere fun t k => (t.linkLostOn_own k).elsewhere
  · exact SameElsewhere.rfl'

theorem State.enterLost_alarmPresent (s : State) : AlarmPresent s.enterLost .linkLost .link := by
  rw [s.enterLost_eq]
  split
  · exact s.lost.eachLine_linkLostOn_alarmPresent.mpr s.lost_alarmPresent
  · exact s.lost_alarmPresent

/-- R129: the return of the link, before its lines are told. -/
def State.back (s : State) : State :=
  (s.modLinkNoticed fun k => { k with state := .good, window := [], failRun := 0 }).alarmGone .linkLost .link

theorem State.recoverLink_back (s : State) :
    s.recoverLink = s.back.eachLine fun s l => s.modSeq l fun q => { q with holds := setErase .link q.holds } := rfl

theorem State.recoverLink_eq (s : State) : s.recoverLink = { s with
      seqs := s.recoverLink.seqs
      link := { s.link with state := .good, window := [], failRun := 0 }
      alarms := s.back.alarms
      horn := s.recoverLink.horn
      notices := s.recoverLink.notices } := by
  rw [s.recoverLink_back, State.eachLine_modSeq_eq]
  apply State.eq_of_fields <;> simp [State.back]

/-- Settles O51: the loss line by line (`State.enterLost_handed`) and whole elsewhere, and the return whole. -/
theorem linkLostAndRecovered : Obligations.LinkLostAndRecovered := by
  refine ⟨fun s h => congrArg Host.Outcome.next (if_neg fun g => by have := g.2; omega), fun s hs h => ?_, fun s hs h d => ?_⟩
  · have e : s.judgeLost = s.enterLost := if_pos ⟨by simpa using hs, h⟩
    have same := s.enterLost_elsewhere
    have link : s.enterLost.link = { s.link with
        state := .lost, succRun := 0, queries := [], outcomes := s.lost.link.outcomes } := by
      rw [same.link, s.lost_eq]
    have handed := s.enterLost_handed
    refine ⟨_, congrArg Host.Outcome.next e, by rw [link], by rw [link], by rw [link], fun l hl => ?_, s.enterLost_alarmPresent,
      fun g l => ?_, handed, fun g => (handed.2 g).1, by rw [link], ?_⟩
    · rw [same.link]
      exact s.lost_outcomes l hl
    · obtain ⟨permit, -, -, -, joined, -⟩ := handed.1 g l
      exact ⟨permit, joined⟩
    · unfold KeepsBase KeepsTrips
      rw [same.tanks, same.lineups, same.port, same.pending, same.clock, same.phase, same.key, same.settings, same.store,
        same.esd, same.device, same.overfills, s.lost_eq]
      exact ⟨rfl, rfl, rfl, ⟨rfl, rfl, rfl, rfl, rfl, rfl⟩, rfl, rfl, rfl⟩
  · have e : s.judgeRecovered = s.recoverLink := if_pos ⟨hs, h⟩
    refine ⟨_, congrArg Host.Outcome.next e, by rw [s.recoverLink_eq], ?_, fun l => ?_, by rw [s.recoverLink_eq]⟩
    · rw [AlarmPresent.congr (congrArg State.alarms s.recoverLink_eq)]
      refine State.alarmGone_not_present _ _ _ ?_
      unfold AlarmsDistinct
      simpa using d
    · rw [s.recoverLink_back, State.eachLine_modSeq_seq]
      simp [State.back, pumpPermit]

end Sys2Proof.Machine
end

section
/-! SUPPORT. HOLD, FINISH of a moving line, and CLEAR of a line (R51, R53, R58). -/

namespace Sys2Proof.Machine

theorem SameElsewhere.replied {s t : State} (h : SameElsewhere s t) (a b : List String) :
    (t.take a b).port = replied s ("=" :: a ++ b) := by
  rw [h.eq]
  rfl

/-- R162: a request taken after changes that the line supervisors alone have made. -/
theorem SameElsewhere.taken {s t : State} (h : SameElsewhere s t) (a b : List String) : t.take a b = { s with
    seqs := (t.take a b).seqs, rates := (t.take a b).rates, meass := (t.take a b).meass, drives := (t.take a b).drives,
    alarms := (t.take a b).alarms, horn := (t.take a b).horn, notices := (t.take a b).notices, port := (t.take a b).port } :=
  State.eq_of_fields h.pending h.clock h.phase h.key h.settings h.store rfl rfl rfl rfl h.lineups h.tanks h.link h.esd h.device
    h.overfills rfl rfl rfl rfl h.linkResult

/-! ### HOLD (R51) -/

theorem State.exec_hold {s : State} {l : LineId} (hr : Ready s) (ht : (s.seq l).state.takesHold = true) :
    exec (.hold (lineNumber l)) s = .next ((s.addHold l .operator).take ["HOLD", numText (lineNumber l)]
      (((s.addHold l .operator).seq l).state.text :: ((s.addHold l .operator).seq l).holds.map HoldCause.text)) := by
  show Host.Outcome.next (s.drained.takeHold (lineNumber l)) = _
  rw [s.drained_ready hr, State.takeHold, State.lineRequest_ready hr.1, if_pos ht]

/-- Settles O34: OPERATOR handed to the line (R47, R48). -/
theorem holdTaken : Obligations.HoldTaken := by
  refine ⟨fun l s hr hs hc => ?_, fun l s hr hs hc => ?_, fun l s hr hs => ?_⟩
  · have hm := (LineState.moving_iff _).mpr hs
    obtain ⟨hseq, hdrive, hpending, hleft⟩ := State.addHold_begins hm hc
    have own := s.addHold_own l .operator
    refine ⟨_, State.exec_hold hr (LineState.takesHold_of_moving hm), hseq, hdrive, hpending, hleft, fun h => ?_, ?_, own.only,
      own.elsewhere.taken _ _⟩
    · rw [h]; decide
    · rw [own.elsewhere.replied, hseq]
      rfl
  · rw [State.exec_hold hr (LineState.takesHold_of_moving ((LineState.moving_iff _).mpr hs)), State.addHold_eq_self (.inr hc)]
    rfl
  · have ht : (s.seq l).state.takesHold = true := (LineState.takesHold_iff _).mpr (List.mem_cons_of_mem _ (List.mem_cons_of_mem _ hs))
    have hm : (s.seq l).state.moving = false := by
      simp only [List.mem_cons, List.not_mem_nil, or_false] at hs
      rcases hs with h | h <;> rw [h] <;> rfl
    rw [State.exec_hold hr ht]
    by_cases hc : HoldCause.operator ∈ (s.seq l).holds
    · rw [State.addHold_eq_self (.inr hc)]
      simp only [hc, if_true]
      simp only [State.seq, vset_vget]
      rfl
    · rw [State.addHold_of_paused ht hm hc, State.modSeq_eq]
      simp only [if_neg hc]
      simp only [State.take_eq, State.seq, vget_vset, if_true]
      rfl

/-! ### FINISH of a moving line (R53) -/

theorem State.enterFinishing_line (s : State) (l : LineId) : (s.enterFinishing l).seq l = { s.seq l with
      state := .finishing, permit := false, pump := false }
    ∧ (s.enterFinishing l).drive l = (s.drive l).trackFrom0
    ∧ (s.enterFinishing l).rate l = { s.rate l with pendingTarget := none } ∧ (s.enterFinishing l).meas l = s.meas l
    ∧ (s.enterFinishing l).alarms = s.alarms ∧ s.notices ⊆ (s.enterFinishing l).notices := by
  refine ⟨?_, ?_, ?_, ?_, ?_, ?_⟩
  · simp [State.enterFinishing, pumpPermit]
  · simp [State.enterFinishing]
  · simp [State.enterFinishing]
  · simp [State.enterFinishing]
  · simp [State.enterFinishing]
  · simpa [State.enterFinishing] using s.modSeq_subset l fun q => { q with state := .finishing, permit := false }

/-- R53: what FINISH does to a line in OPENING, DELIVERING or HOLDING. -/
def State.beginFinish (s : State) (l : LineId) : State :=
  if (s.seq l).state.moving then ((s.leaveDelivering l).enterFinishing l).closeOnProfile l else s.enterFinishing l

theorem State.beginFinish_line (s : State) (l : LineId) :
    (s.beginFinish l).seq l = { s.seq l with state := .finishing, permit := false, pump := false }
      ∧ (s.beginFinish l).drive l = (if (s.seq l).state.moving then ((s.drive l).rampTo 0 (s.freshTClose l)).trackFrom0
          else (s.drive l).trackFrom0)
      ∧ ((s.beginFinish l).rate l).pendingTarget = none ∧ LeftDelivering s (s.beginFinish l) l := by
  unfold State.beginFinish
  have left := s.leaveDelivering_left l
  have hs := (s.leaveDelivering_soft l).seq l
  obtain ⟨hd, -, -⟩ := s.leaveDelivering_line l
  obtain ⟨seq, drive, rate, meas, alarms, notices⟩ := (s.leaveDelivering l).enterFinishing_line l
  split
  · next hm =>
    obtain ⟨st, i, o, steady⟩ := s.leaveDelivering_steady l
    have same := (s.leaveDelivering_soft l).elsewhere.trans ((s.leaveDelivering l).enterFinishing_own l).elsewhere
    have fresh : ((s.leaveDelivering l).enterFinishing l).freshTClose l = s.freshTClose l :=
      State.freshTClose_congr same.store same.clock (meas.trans steady) (by rw [drive, hd]; rfl)
    refine ⟨?_, ?_, ?_, ?_⟩
    · simp [State.closeOnProfile, seq, hs]
    · simp only [State.closeOnProfile, fresh]
      simp only [State.modDrive_drive, if_true, drive, hd]
      unfold Drive.rampTo Drive.trackFrom0
      split <;> rfl
    · simp [State.closeOnProfile, rate]
    · exact left.later (by simpa [State.closeOnProfile] using meas) (by simp [State.closeOnProfile, rate])
        (fun a => (AlarmPresent.congr (by simpa [State.closeOnProfile] using alarms) _ _).mp a)
        (by simpa [State.closeOnProfile] using notices)
  · next hm =>
    have hn : (s.seq l).state ≠ .delivering := fun e => hm (by rw [e]; rfl)
    obtain ⟨seq, drive, rate, meas, -, -⟩ := s.enterFinishing_line l
    exact ⟨seq, drive, by rw [rate], fun e => absurd e hn, fun _ => ⟨meas, by rw [rate]⟩⟩

theorem State.beginFinish_own (s : State) (l : LineId) : Own l s (s.beginFinish l) := by
  unfold State.beginFinish
  split
  · exact (((s.leaveDelivering_soft l).own.trans (State.enterFinishing_own _ l)).drive _)
  · exact s.enterFinishing_own l

/-! ### CLEAR of a line (R58) -/

/-- R39, R73, R76: what the entry to CONNECTED from TRIPPED or HELD does. -/
theorem State.enterConnected_eq (s : State) (l : LineId) :
    s.enterConnected l = { s with
      seqs := vset s.seqs l { s.seq l with state := .connected, holds := [], pump := false }
      drives := vset s.drives l { s.drive l with ramp := none, setpoint := 0, track := 0 }
      rates := vset s.rates l { s.rate l with eff := none, governing := none, pendingTarget := none }
      notices := (s.enterConnected l).notices } := by
  apply State.eq_of_fields <;>
    simp [State.enterConnected, State.dropTarget, State.setTarget_eq, pumpPermit, Drive.rest, Drive.trackFrom0, State.rate, vset_vset]

theorem State.foldl_causeGone (l : LineId) (cs : List TripCause) (s : State) (hc : (s.seq l).trips = []) (hd : s.device = []) :
    let t := cs.foldl (fun s c => s.causeGone l c) s
    t = { s with alarms := t.alarms, horn := t.horn, notices := t.notices }
      ∧ (AlarmsDistinct s → (∀ c ∈ cs, ¬ AlarmPresent t c.alarm (.line l))
          ∧ ∀ k, ¬ AlarmPresent s k (.line l) → ¬ AlarmPresent t k (.line l)) := by
  induction cs generalizing s with
  | nil => exact ⟨rfl, fun _ => ⟨fun _ h => absurd h List.not_mem_nil, fun _ h => h⟩⟩
  | cons c cs ih =>
    have e : s.causeGone l c = s.alarmGone c.alarm (.line l) := by
      cases c <;> simp [State.causeGone, State.stretchTripGone, TripCause.alarm, hc, hd]
    obtain ⟨whole, gone⟩ := ih (s.alarmGone c.alarm (.line l)) (by simpa using hc) (by simpa using hd)
    have first : Own l s (s.alarmGone c.alarm (.line l)) := (Soft.refl.gone _ _ : Soft l _ _).own
    rw [List.foldl_cons, e]
    refine ⟨?_, fun d => ?_⟩
    · rw [whole]
      apply State.eq_of_fields <;> simp
    · obtain ⟨listed, kept⟩ := gone (first.distinct d)
      refine ⟨fun x hx => ?_, fun k hk => kept k (s.not_present_alarmGone d hk)⟩
      rcases List.mem_cons.mp hx with rfl | hx
      · exact kept _ (s.alarmGone_not_present _ _ d)
      · exact listed x hx

/-- What a taken CLEAR does (R58), whole. -/
theorem State.clearLine_spec (s : State) (l : LineId) (hd : s.device = []) :
    let t := s.clearLine l
    t = { s with
        seqs := vset s.seqs l { s.seq l with state := .connected, trips := [], holds := [], pump := false }
        drives := vset s.drives l { s.drive l with ramp := none, setpoint := 0, track := 0 }
        rates := vset s.rates l { s.rate l with eff := none, governing := none, pendingTarget := none }
        alarms := t.alarms, horn := t.horn, notices := t.notices }
      ∧ (AlarmsDistinct s → ∀ c ∈ (s.seq l).trips, ¬ AlarmPresent t c.alarm (.line l)) := by
  have e := (s.modSeq l fun q => { q with trips := [] }).enterConnected_eq l
  have seq : (((s.modSeq l fun q => { q with trips := [] }).enterConnected l).seq l).trips = [] := by
    rw [e]; simp [State.seq]
  have device : ((s.modSeq l fun q => { q with trips := [] }).enterConnected l).device = [] := by
    rw [e]; simpa using hd
  have own : Own l s ((s.modSeq l fun q => { q with trips := [] }).enterConnected l) :=
    (Own.refl.seq _).trans (State.enterConnected_own _ l)
  obtain ⟨whole, gone⟩ := State.foldl_causeGone l (s.seq l).trips _ seq device
  refine ⟨?_, fun d => (gone (own.distinct d)).1⟩
  unfold State.clearLine
  simp only []
  rw [whole, e]
  apply State.eq_of_fields <;> simp [State.seq, vset_vset]

theorem State.clearRefused {s : State} {l : LineId} (hr : Ready s) (hs : (s.seq l).state = .tripped)
    (h : s.persisting l ≠ [] ∨ s.device ≠ []) : exec (.clear (lineNumber l)) s = .next (s.refuse ["CLEAR", numText (lineNumber l)]
      ("TRIP" :: (s.persisting l).map TripCause.text ++ deviceWords (s.persisting l) s.device)) := by
  show Host.Outcome.next (s.drained.takeClear (lineNumber l)) = _
  rw [s.drained_ready hr, State.takeClear, State.lineRequest_ready hr.1, if_neg (not_not.mpr hs), if_pos h]

theorem State.pressureHigh_iff (s : State) (l : LineId) : s.pressureHigh l = true ↔
    ∃ lim p, s.limits l = some lim ∧ (s.meas l).pressure = some p ∧ lim.pRated < p := by
  unfold State.pressureHigh
  cases s.limits l <;> cases (s.meas l).pressure <;> simp

theorem State.stretchHigh_iff (s : State) (l : LineId) : s.stretchHigh l = true ↔
    ∃ lim e, s.limits l = some lim ∧ (s.meas l).stretch = some e ∧ lim.tripLimit < e := by
  unfold State.stretchHigh
  cases s.limits l <;> cases (s.meas l).stretch <;> simp

/-- R58: which of its own causes persist for a line. -/
theorem State.mem_persisting (s : State) (l : LineId) (c : TripCause) : c ∈ s.persisting l ↔
    c = .esdIn ∧ s.esd.far = .opened
      ∨ c = .overpressure ∧ s.pressureHigh l = true
      ∨ c = .stretchTrip ∧ s.stretchHigh l = true
      ∨ c = .sensorFault ∧ ((s.meas l).pressureOut ≠ 0 ∨ (s.meas l).stretchOut ≠ 0 ∨ (s.meas l).positionOut ≠ 0)
      ∨ c = .valveTravel ∧ ¬ ((s.meas l).positionOut = 0 ∧ ∃ p, (s.meas l).position = some p ∧ p ≤ 20) := by
  simp only [State.persisting, List.mem_append, or_assoc, Nat.pos_iff_ne_zero, Option.any_eq_true, decide_eq_true_iff]
  refine or_congr (by split <;> simp_all) (or_congr (by split <;> simp_all) (or_congr (by split <;> simp_all)
    (or_congr (by split <;> simp_all) ?_)))
  split <;> simp_all

/-- Causes written in the order of the set, each where its condition holds. -/
theorem ordered_causes (a b c d e : Bool) :
    let cs := (if a then [TripCause.esdIn] else []) ++ (if b then [.overpressure] else []) ++ (if c then [.stretchTrip] else [])
      ++ (if d then [.sensorFault] else []) ++ (if e then [] else [.valveTravel])
    cs = TripCause.all.filter fun x => decide (x ∈ cs) := by
  revert a b c d e
  decide

/-- R58: the causes that persist stand in report order, each once. -/
theorem State.persisting_ordered (s : State) (l : LineId) :
    s.persisting l = TripCause.all.filter fun c => decide (c ∈ s.persisting l) := by
  have h := ordered_causes (decide (s.esd.far = .opened)) (s.pressureHigh l) (s.stretchHigh l)
    (decide (0 < (s.meas l).pressureOut ∨ 0 < (s.meas l).stretchOut ∨ 0 < (s.meas l).positionOut))
    (decide ((s.meas l).positionOut = 0 ∧ (s.meas l).position.any (· ≤ 20)))
  simp only [decide_eq_true_iff] at h
  exact h

/-- Settles O37: the checks of R58 in their order. -/
theorem clearTaken : Obligations.ClearTaken := by
  refine ⟨fun l s p hr hs hd hf hp hst hout hpos h20 d => ?_, fun l s hr hs => ?_⟩
  · have none : s.persisting l = [] := by
      obtain ⟨a, b, c⟩ := hout
      simp [State.persisting, hf, hp, hst, a, b, c, hpos, h20]
    obtain ⟨whole, gone⟩ := s.clearLine_spec l hd
    have taken : exec (.clear (lineNumber l)) s =
        .next ((s.clearLine l).take ["CLEAR", numText (lineNumber l)] [LineState.connected.text]) := by
      show Host.Outcome.next (s.drained.takeClear (lineNumber l)) = _
      rw [s.drained_ready hr, State.takeClear, State.lineRequest_ready hr.1, if_neg (not_not.mpr hs),
        if_neg (by simp [none, hd])]
    refine ⟨_, taken, ?_, ?_, ?_, gone d, ?_, ?_, ?_⟩
    · show (s.clearLine l).seq l = _
      rw [whole]; simp [State.seq]
    · show (s.clearLine l).drive l = _
      rw [whole]; simp [State.drive]
    · show (s.clearLine l).rate l = _
      rw [whole]; simp [State.rate]
    · rw [whole]; rfl
    · exact (s.clearLine_own l).only
    · rw [whole]; rfl
  · intro m closed own cs hcs order hne
    have same : ∀ c, c ∈ cs ↔ c ∈ s.persisting l := fun c => by
      rw [hcs, s.mem_persisting, s.pressureHigh_iff, s.stretchHigh_iff]
    have e : cs = s.persisting l := by
      rw [order, s.persisting_ordered]
      exact List.filter_congr fun c _ => by rw [decide_eq_decide]; exact same c
    rw [State.clearRefused hr hs (e ▸ hne), State.refuse_eq, ← e]
    simp [deviceWords]

end Sys2Proof.Machine
end

section
/-! SUPPORT. target_eff formed (R64, R65), whole, the rings of a lineup (R74, R95), and RATE (R72 to R74). -/

namespace Sys2Proof.Machine

/-! ### target_eff -/

/-- R14: the measurement state of a line that is out of steady. -/
def Meas.unsteady (m : Meas) : Meas := { m with steady := false, inRun := 0, outRun := 0 }

/-- R14: the measurement state of a line whose target_eff has become `eff`. -/
def State.measAt (s : State) (l : LineId) (eff : Option Nat) : Meas :=
  if (s.seq l).state = .delivering ∧ (s.rate l).eff ≠ eff then (s.meas l).unsteady else s.meas l

/-- R64, R65: a rate-control state of a line as target_eff is formed. -/
def State.formed (s : State) (l : LineId) (r : Rate) : Rate :=
  if (s.seq l).state.formsTarget then
    { r with
      eff := ((s.limits l).bind fun lim => leastTerm (targetTerms r lim (s.surgeTerm l) s.link.gauging)).map (·.1)
      governing := ((s.limits l).bind fun lim => leastTerm (targetTerms r lim (s.surgeTerm l) s.link.gauging)).map (·.2) }
  else r

theorem State.endSteady_eq (s : State) (l : LineId) : s.endSteady l = { s with
    meass := vset s.meass l (s.meas l).unsteady, notices := (s.endSteady l).notices } := by
  unfold State.endSteady Meas.unsteady
  simp only []
  split
  · apply State.eq_of_fields <;> simp
  · rfl

/-- R64: target_eff and the governing limit given a value, before its change is judged. -/
def State.retarget (s : State) (l : LineId) (x : Option (Nat × Governing)) : State :=
  let s' := s.modRate l fun r => { r with eff := x.map (·.1), governing := x.map (·.2) }
  if (s.rate l).governing = x.map (·.2) then s' else s'.notify (.line l)

theorem State.retarget_eq (s : State) (l : LineId) (x : Option (Nat × Governing)) : s.retarget l x = { s with
    rates := vset s.rates l { s.rate l with eff := x.map (·.1), governing := x.map (·.2) }
    notices := (s.retarget l x).notices } := by
  unfold State.retarget
  simp only []
  split
  · rfl
  · apply State.eq_of_fields <;> simp

theorem State.setTarget_whole (s : State) (l : LineId) (x : Option (Nat × Governing)) : s.setTarget l x = { s with
    rates := vset s.rates l { s.rate l with eff := x.map (·.1), governing := x.map (·.2) }
    meass := vset s.meass l (s.measAt l (x.map (·.1)))
    notices := (s.setTarget l x).notices } := by
  have e : s.setTarget l x = if (s.seq l).state = .delivering ∧ (s.rate l).eff ≠ x.map (·.1) then (s.retarget l x).endSteady l
      else s.retarget l x := rfl
  have m : (s.retarget l x).meas l = s.meas l := by rw [s.retarget_eq]; rfl
  unfold State.measAt
  rw [e]
  split
  · rw [State.endSteady_eq, m, s.retarget_eq]
  · rw [State.meas, vset_vget, ← s.retarget_eq]

theorem State.formTarget_eq (s : State) (l : LineId) : s.formTarget l = { s with
    rates := vset s.rates l (s.formed l (s.rate l))
    meass := vset s.meass l (s.measAt l (s.formed l (s.rate l)).eff)
    notices := (s.formTarget l).notices } := by
  have e : s.formedTarget l = (s.limits l).bind fun lim =>
      leastTerm (targetTerms (s.rate l) lim (s.surgeTerm l) s.link.gauging) := by
    unfold State.formedTarget
    cases s.limits l <;> rfl
  unfold State.formTarget State.formed
  split
  · rw [State.setTarget_whole, e]
  · have : s.measAt l (s.rate l).eff = s.meas l := by simp [State.measAt]
    rw [this]
    simp [State.rate, State.meas, vset_vget]

theorem LineState.formsTarget_iff (st : LineState) :
    st.formsTarget = true ↔ st ∈ [LineState.opening, .delivering, .holding, .held, .finishing] := by
  cases st <;> decide

theorem State.formed_of_limits {s : State} {l : LineId} {lim : Limits} (h : s.limits l = some lim) (r : Rate) :
    s.formed l r = if (s.seq l).state.formsTarget then
      { r with
        eff := (leastTerm (targetTerms r lim (s.surgeTerm l) s.link.gauging)).map (·.1)
        governing := (leastTerm (targetTerms r lim (s.surgeTerm l) s.link.gauging)).map (·.2) }
      else r := by
  unfold State.formed
  rw [h]
  rfl

/-! ### The rings of a lineup -/

theorem State.clearRings_eq (s : State) (l : LineId) : s.clearRings l = { s with tanks := (s.clearRings l).tanks } := by
  unfold State.clearRings
  induction s.lineup l generalizing s with
  | nil => rfl
  | cons k ks ih =>
    rw [List.foldl_cons, ih]
    apply State.eq_of_fields <;> simp [State.clearRing]

theorem State.clearRings_tank (s : State) (l : LineId) (k : TankId) : (s.clearRings l).tank k =
    if k ∈ s.lineup l then (s.tank k).map fun r => { r with ring := [], anchor := none } else s.tank k := by
  unfold State.clearRings
  induction s.lineup l generalizing s with
  | nil => simp
  | cons j ks ih =>
    rw [List.foldl_cons, ih, State.clearRing, State.modTank_tank]
    by_cases e : k = j
    · subst e
      cases h : s.tank k <;> simp
    · simp [e]

/-! ### RATE -/

/-- A state whose line `l` alone has other rates and measurements. -/
theorem onlyLine_of_rates {s t : State} {l : LineId} {r : Rate} {m : Meas} (hr : t.rates = vset s.rates l r)
    (hm : t.meass = vset s.meass l m) (hq : t.seqs = s.seqs) (hd : t.drives = s.drives) (hl : t.lineups = s.lineups) :
    OnlyLine s t l := fun k hk => by
  simp [State.seq, State.rate, State.meas, State.drive, State.lineup, hr, hm, hq, hd, hl, vget_vset, hk]

/-- The rings of a lineup are cleared in the records of its tanks alone. -/
theorem State.clearRings_tanks_congr {s t : State} (ht : t.tanks = s.tanks) (hl : t.lineups = s.lineups) (l : LineId) :
    (t.clearRings l).tanks = (s.clearRings l).tanks :=
  vector_ext fun k => by
    have a := t.clearRings_tank l k
    have b := s.clearRings_tank l k
    simp only [State.tank, State.lineup, ht, hl] at a b
    exact a.trans b.symm

theorem State.setRate_eq (s : State) (l : LineId) (used : Nat) : s.setRate l used = { s with
    rates := vset s.rates l (s.formed l { s.rate l with target := used })
    meass := vset s.meass l (s.measAt l (s.formed l { s.rate l with target := used }).eff)
    tanks := if (s.rate l).target = used then s.tanks else (s.clearRings l).tanks
    notices := (s.setRate l used).notices } := by
  have e := (s.modRate l fun r => { r with target := used }).formTarget_eq l
  have formed : (s.modRate l fun r => { r with target := used }).formed l = s.formed l := rfl
  have meas : (s.modRate l fun r => { r with target := used }).measAt l = s.measAt l := by
    funext eff
    simp [State.measAt]
  rw [formed, meas, State.modRate_rate, if_pos rfl] at e
  unfold State.setRate
  simp only []
  split
  · rw [e]
    apply State.eq_of_fields <;> simp [State.rate, vset_vset]
  · rw [State.clearRings_eq, e]
    apply State.eq_of_fields <;> simp [State.rate, vset_vset]
    exact State.clearRings_tanks_congr (by simp) (by simp) l

theorem State.storeRate_eq (s : State) (l : LineId) (used : Nat) : s.storeRate l used = { s with
    rates := vset s.rates l { s.rate l with pendingTarget := some used }
    tanks := if (s.rate l).pendingTarget.getD (s.rate l).target = used then s.tanks else (s.clearRings l).tanks } := by
  unfold State.storeRate
  simp only []
  split
  · rfl
  · rw [State.clearRings_eq]
    apply State.eq_of_fields <;> simp
    exact State.clearRings_tanks_congr (by simp) (by simp) l

theorem State.clampRate_eq {s : State} {l : LineId} {lim : Limits} (h : s.limits l = some lim) (asked : Nat) :
    s.clampRate l asked = max 100 (min lim.qMax asked) := by
  simp [State.clampRate, State.maxFlow, h, clamp]

theorem State.exec_rate {s : State} (hr : Ready s) (l : LineId) (x : NumField) :
    exec (.rate (lineNumber l) x) s = .next (s.takeRate (lineNumber l) x) := by
  show Host.Outcome.next (s.drained.takeRate (lineNumber l) x) = _
  rw [s.drained_ready hr]

/-- R72: RATE in OPENING and DELIVERING. -/
theorem State.exec_rate_set {s : State} {l : LineId} (hr : Ready s) (hs : (s.seq l).state ∈ [LineState.opening, .delivering])
    (asked : Nat) : exec (.rate (lineNumber l) (some asked)) s = .next
      ((s.setRate l (s.clampRate l asked)).take ["RATE", numText (lineNumber l)]
        ([(s.seq l).state.text, numText ((s.setRate l (s.clampRate l asked)).rate l).target,
          optNum ((s.setRate l (s.clampRate l asked)).rate l).eff,
          optText Governing.text ((s.setRate l (s.clampRate l asked)).rate l).governing]
          ++ clampedMark asked (s.clampRate l asked))) := by
  rw [State.exec_rate hr, State.takeRate, State.lineRequest_ready hr.1]
  rcases List.mem_cons.mp hs with h | h
  · simp [h]
  · simp [List.mem_singleton.mp h]

/-- R73: RATE in HOLDING and HELD. -/
theorem State.exec_rate_store {s : State} {l : LineId} (hr : Ready s) (hs : (s.seq l).state ∈ [LineState.holding, .held])
    (asked : Nat) : exec (.rate (lineNumber l) (some asked)) s = .next
      ((s.storeRate l (s.clampRate l asked)).take ["RATE", numText (lineNumber l)]
        ([(s.seq l).state.text, numText (s.rate l).target, "STORED", numText (s.clampRate l asked)]
          ++ clampedMark asked (s.clampRate l asked))) := by
  rw [State.exec_rate hr, State.takeRate, State.lineRequest_ready hr.1]
  rcases List.mem_cons.mp hs with h | h
  · simp [h]
  · simp [List.mem_singleton.mp h]

/-- R74: the records of a lineup whose rings are cleared where the target has changed. -/
theorem ringsCleared {s t : State} {l : LineId} {p : Prop} [Decidable p]
    (h : t.tanks = if p then s.tanks else (s.clearRings l).tanks) :
    (¬ p → ∀ k ∈ s.lineup l, t.tank k = (s.tank k).map fun r => { r with ring := [], anchor := none })
      ∧ (p → t.tanks = s.tanks) ∧ ∀ k, k ∉ s.lineup l → t.tank k = s.tank k := by
  have cleared : ∀ k, ¬ p → t.tank k = (s.clearRings l).tank k := fun k hp => by
    rw [if_neg hp] at h
    simp [State.tank, h]
  refine ⟨fun hp k hk => ?_, fun hp => by rw [h, if_pos hp], fun k hk => ?_⟩
  · rw [cleared k hp, State.clearRings_tank, if_pos hk]
  · by_cases hp : p
    · rw [if_pos hp] at h
      simp [State.tank, h]
    · rw [cleared k hp, State.clearRings_tank, if_neg hk]

/-- Settles O32: `State.setRate_eq` and `State.storeRate_eq`, with the clamp of R72. -/
theorem rateTaken : Obligations.RateTaken := by
  refine ⟨fun l s hr => ?_, fun l asked s lim hr hlim => ?_⟩
  · rw [State.exec_rate hr, State.takeRate, State.lineRequest_ready hr.1]
    rfl
  intro used least
  have clamped : s.clampRate l asked = used := State.clampRate_eq hlim asked
  refine ⟨fun hs => ?_, fun hs => ?_⟩
  · have forms : (s.seq l).state.formsTarget = true := (LineState.formsTarget_iff _).mpr (by
      simp only [List.mem_cons, List.not_mem_nil, or_false] at hs ⊢
      exact hs.elim .inl fun h => .inr (.inl h))
    have formed : s.formed l { s.rate l with target := used } =
        { s.rate l with target := used, eff := least.map (·.1), governing := least.map (·.2) } := by
      rw [State.formed_of_limits hlim, if_pos forms]
    have e := s.setRate_eq l used
    have taken := State.exec_rate_set hr hs asked
    rw [formed] at e
    rw [clamped] at taken
    have rate : (s.setRate l used).rate l = { s.rate l with target := used, eff := least.map (·.1), governing := least.map (·.2) } :=
      State.rate_of_rates (by rw [e])
    obtain ⟨changed, kept, others⟩ := ringsCleared (s := s) (t := s.setRate l used) (l := l) (by rw [e])
    have only : OnlyLine s (s.setRate l used) l :=
      onlyLine_of_rates (by rw [e]) (by rw [e]) (by rw [e]) (by rw [e]) (by rw [e])
    have port : replied (s.setRate l used) = replied s := by
      funext ws
      rw [replied, e]
      rfl
    refine ⟨_, taken, rate, State.meas_of_meass (congrArg State.meass e), changed, kept, others, ?_, only, ?_⟩
    · have target : ((s.setRate l used).rate l).target = used := by rw [rate]
      show replied (s.setRate l used) _ = _
      rw [port, target]
      rfl
    · apply State.eq_of_fields <;> simp only [State.take_eq]
      all_goals rw [e]
  · have e := s.storeRate_eq l used
    have taken := State.exec_rate_store hr hs asked
    rw [clamped] at taken
    obtain ⟨changed, kept, others⟩ := ringsCleared (s := s) (t := s.storeRate l used) (l := l) (by rw [e])
    have only : OnlyLine s (s.storeRate l used) l :=
      onlyLine_of_rates (m := s.meas l) (by rw [e]) (by rw [e, State.meas, vset_vget]) (by rw [e]) (by rw [e]) (by rw [e])
    refine ⟨_, taken, State.rate_of_rates (congrArg State.rates e), changed, kept, others, ?_, only, ?_⟩
    · rw [e]
      rfl
    · apply State.eq_of_fields <;> simp only [State.take_eq]
      all_goals rw [e]

end Sys2Proof.Machine
end

section
/-! SUPPORT. Tanks that leave a lineup or become RELEASING (R82, R86, R93, R94, R96): one tank, whole. -/

namespace Sys2Proof.Machine

/-! ### Alarms and notices of the tanks that depart -/

/-- R154: the end of a condition passes every entry of another kind and object by. -/
theorem State.mem_alarmGone_other (s : State) {k : AlarmKind} {o : AlarmObject} {a : Alarm} (h : (a.kind, a.object) ≠ (k, o)) :
    a ∈ (s.alarmGone k o).alarms ↔ a ∈ s.alarms := by
  have other : Alarm.isFor k o a = false := by
    by_contra g
    exact h ((Alarm.isFor_iff k o a).mp (Bool.eq_true_of_not_eq_false g))
  rcases s.alarmGone_cases k o with e | ⟨_, -, -, -, e⟩ | ⟨_, -, -, -, e⟩ <;> rw [e]
  · simp [other]
  · rw [List.mem_map]
    refine ⟨fun ⟨b, hb, eq⟩ => ?_, fun ha => ⟨a, ha, by simp [other]⟩⟩
    by_cases g : Alarm.isFor k o b = true
    · rw [if_pos g] at eq
      rw [← eq] at other
      exact absurd g (by simpa [Alarm.isFor] using other)
    · rw [if_neg g] at eq
      rwa [← eq]

theorem State.alarmGone_noticed (s : State) (k : AlarmKind) (o : AlarmObject) (n : Notice)
    (h : n ∈ (s.alarmGone k o).notices) : n ∈ s.notices ∨ n = .alarm k o := by
  unfold State.alarmGone at h
  split at h
  · exact .inl h
  · split at h
    · rw [State.notify_notices, mem_noticesWith] at h
      refine h.imp (fun g => ?_) And.left
      split at g <;> exact g
    · exact .inl h

/-- From `s` to `t` the departures of tanks `ks` of line `l` alone have been told: what they write of alarms and notices. -/
structure DeparturesTold (l : LineId) (ks : List TankId) (s t : State) : Prop where
  alarms : ∀ a : Alarm, (∀ k ∈ ks, (a.kind, a.object) ≠ (.changeoverLate, .tank k)) → (a ∈ t.alarms ↔ a ∈ s.alarms)
  distinct : AlarmsDistinct s → AlarmsDistinct t
  notices : s.notices ⊆ t.notices
  noticed : ∀ n ∈ t.notices, n ∈ s.notices ∨ n = .line l ∨ ∃ k ∈ ks, n = .tank k ∨ n = .alarm .changeoverLate (.tank k)

theorem DeparturesTold.refl {l : LineId} {ks : List TankId} {s : State} : DeparturesTold l ks s s :=
  ⟨fun _ _ => Iff.rfl, id, List.Subset.refl _, fun _ h => .inl h⟩

theorem DeparturesTold.trans {l : LineId} {ks : List TankId} {s t u : State} (h : DeparturesTold l ks s t)
    (g : DeparturesTold l ks t u) : DeparturesTold l ks s u :=
  ⟨fun a ha => (g.alarms a ha).trans (h.alarms a ha), fun d => g.distinct (h.distinct d),
    List.Subset.trans h.notices g.notices, fun n hn => (g.noticed n hn).elim (h.noticed n) .inr⟩

theorem DeparturesTold.mono {l : LineId} {ks js : List TankId} {s t : State} (h : DeparturesTold l ks s t) (hs : ks ⊆ js) :
    DeparturesTold l js s t :=
  ⟨fun a ha => h.alarms a fun k hk => ha k (hs hk), h.distinct, h.notices, fun n hn => (h.noticed n hn).imp id fun g =>
    g.imp id fun ⟨k, hk, e⟩ => ⟨k, hs hk, e⟩⟩

/-- A change of neither alarms nor notices. -/
theorem DeparturesTold.same {l : LineId} {ks : List TankId} {s t u : State} (h : DeparturesTold l ks s t)
    (ha : u.alarms = t.alarms) (hn : u.notices = t.notices) : DeparturesTold l ks s u := by
  obtain ⟨h1, h2, h3, h4⟩ := h
  rw [← ha] at h1
  rw [← hn] at h3 h4
  refine ⟨h1, fun d => ?_, h3, h4⟩
  unfold AlarmsDistinct at h2 d ⊢
  rw [ha]
  exact h2 d

theorem DeparturesTold.notify {l : LineId} {ks : List TankId} {s t : State} (h : DeparturesTold l ks s t) {n : Notice}
    (hn : n = .line l ∨ ∃ k ∈ ks, n = .tank k ∨ n = .alarm .changeoverLate (.tank k)) :
    DeparturesTold l ks s (t.notify n) := by
  refine h.trans ⟨fun a _ => by rw [State.notify_alarms], fun d => ?_, t.notify_subset n, fun m hm => ?_⟩
  · unfold AlarmsDistinct
    rwa [State.notify_alarms]
  · rw [State.notify_notices, mem_noticesWith] at hm
    exact hm.imp id fun ⟨e, _⟩ => e ▸ hn

theorem DeparturesTold.modTank {l : LineId} {ks : List TankId} {s t : State} (h : DeparturesTold l ks s t) {k : TankId}
    (hk : k ∈ ks) (f : Tank → Tank) : DeparturesTold l ks s (t.modTankNoticed k f) := by
  unfold State.modTankNoticed
  split
  · simp only []
    split
    · exact h.same rfl rfl
    · exact (h.same (u := t.setTank k _) rfl rfl).notify (.inr ⟨k, hk, .inl rfl⟩)
  · exact h

theorem DeparturesTold.modSeq {l : LineId} {ks : List TankId} {s t : State} (h : DeparturesTold l ks s t) (f : Seq → Seq) :
    DeparturesTold l ks s (t.modSeq l f) := by
  unfold State.modSeq
  simp only []
  split
  · exact h.same rfl rfl
  · refine DeparturesTold.notify ?_ (.inl rfl)
    exact h.same rfl rfl

theorem DeparturesTold.endSteady {l : LineId} {ks : List TankId} {s t : State} (h : DeparturesTold l ks s t) :
    DeparturesTold l ks s (t.endSteady l) := by
  unfold State.endSteady
  simp only []
  split
  · exact (h.same (u := t.modMeas l _) rfl rfl).notify (.inl rfl)
  · exact h.same rfl rfl

theorem DeparturesTold.setTarget {l : LineId} {ks : List TankId} {s t : State} (h : DeparturesTold l ks s t)
    (x : Option (Nat × Governing)) : DeparturesTold l ks s (t.setTarget l x) := by
  have r : DeparturesTold l ks s (t.retarget l x) := by
    unfold State.retarget
    simp only []
    split
    · exact h.same rfl rfl
    · exact (h.same (u := t.modRate l _) rfl rfl).notify (.inl rfl)
  show DeparturesTold l ks s (if _ then (t.retarget l x).endSteady l else t.retarget l x)
  split
  · exact r.endSteady
  · exact r

theorem DeparturesTold.tellDeparture {l : LineId} {ks : List TankId} {s t : State} (h : DeparturesTold l ks s t)
    (was : TankState) : DeparturesTold l ks s (t.tellDeparture l was) := by
  cases was with
  | topping =>
    have e : t.tellDeparture l .topping =
        (t.modRate l fun r => { r with throttle := decide (0 < t.countIn l .topping) }).formTarget l := by
      simp [State.tellDeparture, State.reportTopping, State.tellTopping]
    rw [e]
    unfold State.formTarget
    split
    · exact (h.same (u := t.modRate l _) rfl rfl).setTarget _
    · exact h.same rfl rfl
  | full =>
    show DeparturesTold l ks s (t.reportLeftFull l)
    unfold State.reportLeftFull
    split
    · exact h.modSeq _
    · exact h
  | listed => exact h
  | assigned => exact h
  | filling => exact h
  | releasing => exact h
  | overfill => exact h

theorem DeparturesTold.lateGone {l : LineId} {ks : List TankId} {s t : State} (h : DeparturesTold l ks s t) {k : TankId}
    (hk : k ∈ ks) : DeparturesTold l ks s (t.alarmGone .changeoverLate (.tank k)) := by
  have soft : Soft l t (t.alarmGone .changeoverLate (.tank k)) := Soft.refl.gone _ _
  refine h.trans ⟨fun a ha => t.mem_alarmGone_other (ha k hk), soft.distinct, soft.subset, fun n hn => ?_⟩
  exact (t.alarmGone_noticed _ _ n hn).imp id fun e => .inr ⟨k, hk, .inr e⟩

theorem DeparturesTold.moveTank {l : LineId} {ks : List TankId} {s t : State} (h : DeparturesTold l ks s t) {k : TankId}
    (hk : k ∈ ks) (st : TankState) : DeparturesTold l ks s (t.moveTank k st) := by
  unfold State.moveTank
  simp only []
  split
  · exact (h.modTank hk _).lateGone hk
  · exact h.modTank hk _

theorem DeparturesTold.applyPending {l : LineId} {ks : List TankId} {s t : State} (h : DeparturesTold l ks s t) {k : TankId}
    (hk : k ∈ ks) : DeparturesTold l ks s (t.applyPending k) := by
  unfold State.applyPending
  split
  · exact h
  · exact (h.same (u := (t.setTank k none).forgetTank k) rfl rfl).notify (.inr ⟨k, hk, .inl rfl⟩)
  · exact h.modTank hk _

end Sys2Proof.Machine
end

section
/-! SUPPORT. One tank that leaves its lineup or becomes RELEASING, whole (R82, R86, R93, R96). -/

namespace Sys2Proof.Machine

/-! ### What the line is told (R96) -/

/-- R96, R47: the sequence state of a line that a FULL tank has left (`full`), with `n` FULL tanks remaining. -/
def State.leftFull (s : State) (l : LineId) (full : Bool) (n : Nat) : Seq :=
  if full = true ∧ n = 0 then
    { s.seq l with holds := setErase .tankFull (s.seq l).holds, pump := pumpPermit (s.seq l) s.esd.loop }
  else s.seq l

/-- R96, R63: the rate-control state of a line that a TOPPING tank has left (`top`), with `n` TOPPING tanks remaining. -/
def State.leftTopping (s : State) (l : LineId) (top : Bool) (n : Nat) : Rate :=
  if top = true then s.formed l { s.rate l with throttle := decide (0 < n) } else s.rate l

theorem State.reportTopping_departure (s : State) (l : LineId) : s.reportTopping l false =
    (s.modRate l fun r => { r with throttle := decide (0 < s.countIn l .topping) }).formTarget l := by
  simp [State.reportTopping, State.tellTopping]

/-- R96: what a line is told of a tank that leaves a state, whole. -/
theorem State.tellDeparture_eq (s : State) (l : LineId) (was : TankState) : s.tellDeparture l was = { s with
    seqs := vset s.seqs l (s.leftFull l (decide (was = .full)) (s.countIn l .full))
    rates := vset s.rates l (s.leftTopping l (decide (was = .topping)) (s.countIn l .topping))
    meass := vset s.meass l (if was = .topping then
      s.measAt l (s.leftTopping l (decide (was = .topping)) (s.countIn l .topping)).eff else s.meas l)
    notices := (s.tellDeparture l was).notices } := by
  have kept : ∀ w : TankState, w ≠ .full → w ≠ .topping → s = { s with
      seqs := vset s.seqs l (s.leftFull l (decide (w = .full)) (s.countIn l .full))
      rates := vset s.rates l (s.leftTopping l (decide (w = .topping)) (s.countIn l .topping))
      meass := vset s.meass l (if w = .topping then
        s.measAt l (s.leftTopping l (decide (w = .topping)) (s.countIn l .topping)).eff else s.meas l) } := fun w h g => by
    simp [State.leftFull, State.leftTopping, h, g, State.seq, State.rate, State.meas, vset_vget]
  cases was with
  | topping =>
    show s.reportTopping l false = _
    have e := (s.modRate l fun r => { r with throttle := decide (0 < s.countIn l .topping) }).formTarget_eq l
    have formed : (s.modRate l fun r => { r with throttle := decide (0 < s.countIn l .topping) }).formed l = s.formed l := rfl
    have meas : (s.modRate l fun r => { r with throttle := decide (0 < s.countIn l .topping) }).measAt l = s.measAt l := by
      funext eff
      simp [State.measAt]
    rw [formed, meas, State.modRate_rate, if_pos rfl] at e
    have told : (s.tellDeparture l .topping).notices = (s.reportTopping l false).notices := rfl
    rw [told, s.reportTopping_departure, e]
    apply State.eq_of_fields <;> simp [State.leftFull, State.leftTopping, State.seq, vset_vget, vset_vset]
  | full =>
    show s.reportLeftFull l = _
    have told : (s.tellDeparture l .full).notices = (s.reportLeftFull l).notices := rfl
    rw [told]
    unfold State.reportLeftFull State.leftFull
    by_cases h : s.countIn l .full = 0
    · simp only [h, if_true, and_self, decide_true]
      unfold State.dropHold
      rw [State.modSeq_eq]
      simp [State.leftTopping, State.rate, State.meas, vset_vget]
      rfl
    · simp [h, State.leftTopping, State.seq, State.rate, State.meas, vset_vget]
  | listed => exact kept _ (by decide) (by decide)
  | assigned => exact kept _ (by decide) (by decide)
  | filling => exact kept _ (by decide) (by decide)
  | releasing => exact kept _ (by decide) (by decide)
  | overfill => exact kept _ (by decide) (by decide)

/-! ### A record LISTED or RELEASING -/

theorem tanks_eq_vset {s t : State} {k : TankId} {x : Option Tank} (h : t.tank k = x)
    (others : ∀ j, j ≠ k → t.tank j = s.tank j) : t.tanks = vset s.tanks k x :=
  vector_ext fun j => by
    rw [vget_vset]
    by_cases e : j = k
    · rw [if_pos e, e]
      exact h
    · rw [if_neg e]
      exact others j e

/-- R79, R93: a state given to a tank, whole. -/
theorem State.moveTank_eq {s : State} {k : TankId} {r : Tank} (h : s.tank k = some r) (st : TankState) :
    s.moveTank k st = { s with
      tanks := vset s.tanks k (some (Tank.moved st s.clock r))
      alarms := (s.moveTank k st).alarms, horn := (s.moveTank k st).horn, notices := (s.moveTank k st).notices } := by
  have tanks : (s.moveTank k st).tanks = vset s.tanks k (some (Tank.moved st s.clock r)) := by
    refine tanks_eq_vset ?_ fun j hj => ?_
    all_goals
      unfold State.moveTank
      simp only []
      split <;> simp [*]
  have rest : s.moveTank k st = { s with
      tanks := (s.moveTank k st).tanks, alarms := (s.moveTank k st).alarms, horn := (s.moveTank k st).horn,
      notices := (s.moveTank k st).notices } := by
    unfold State.moveTank
    simp only []
    split
    · apply State.eq_of_fields <;> simp
    · apply State.eq_of_fields <;> simp
  rw [tanks] at rest
  exact rest

/-- R82, R93: a record of a lineup that becomes LISTED, before its line is told. -/
def Tank.offLine (r : Tank) : Tank := { r with state := .listed, timer := none, line := none, stale := false }

theorem unlined_eq (r : Tank) : unlined r = pendingApplied r.offLine := rfl

/-- A tank out of its lineup and LISTED, before its line is told and its pending entry applied. -/
def State.unlineTank (s : State) (k : TankId) : State :=
  ((s.moveTank k .listed).leaveLineup k).modTankNoticed k fun x => { x with topped := x.topped || false }

theorem State.unlineTank_eq {s : State} {k : TankId} {r : Tank} {l : LineId} (h : s.tank k = some r) (hl : r.line = some l) :
    s.unlineTank k = { s with
      lineups := vset s.lineups l (setErase k (s.lineup l))
      tanks := vset s.tanks k (some r.offLine)
      alarms := (s.unlineTank k).alarms, horn := (s.unlineTank k).horn, notices := (s.unlineTank k).notices } := by
  have moved := State.moveTank_eq h .listed
  have line : (s.moveTank k .listed).tankLine k = some l := by
    rw [State.tankLine_moveTank, State.tankLine, h]
    exact hl
  have lineup : (s.moveTank k .listed).lineup l = s.lineup l := by rw [moved]; rfl
  have e : s.unlineTank k = ((((s.moveTank k .listed).modTankNoticed k fun r => { r with line := none, stale := false }).setLineup l
      (setErase k (s.lineup l))).notify (.line l)).modTankNoticed k fun x => { x with topped := x.topped || false } := by
    unfold State.unlineTank State.leaveLineup
    rw [line]
    simp only [lineup]
  have tanks : (s.unlineTank k).tanks = vset s.tanks k (some r.offLine) := by
    rw [e]
    refine tanks_eq_vset ?_ fun j hj => ?_
    · have t : (s.moveTank k .listed).tank k = some (Tank.moved .listed s.clock r) := by rw [moved]; simp [State.tank]
      simp [t, Tank.moved, Tank.offLine]
    · have t : (s.moveTank k .listed).tank j = s.tank j := by rw [moved]; simp [State.tank, vget_vset, hj]
      simp [t, hj]
  have rest : s.unlineTank k = { s.moveTank k .listed with
      lineups := vset (s.moveTank k .listed).lineups l (setErase k (s.lineup l)), tanks := (s.unlineTank k).tanks
      alarms := (s.unlineTank k).alarms, horn := (s.unlineTank k).horn, notices := (s.unlineTank k).notices } := by
    apply State.eq_of_fields <;> simp only []
    all_goals rw [e]; simp
  rw [tanks, moved] at rest
  exact rest

/-- R85: the link's lists without the tanks that have gone. -/
def Link.without (gone : TankId → Bool) (x : Link) : Link :=
  { x with poll := x.poll.filter fun k => !gone k, advices := x.advices.filter fun a => !gone a.1 }

theorem pendingApplied_isNone (r : Tank) : (pendingApplied r).isNone = decide (r.pendingEntry = some .vanished) := by
  unfold pendingApplied
  split <;> simp_all

/-- R86: a pending entry applied to a record, whole. -/
theorem State.applyPending_eq {s : State} {k : TankId} {r : Tank} (h : s.tank k = some r) : s.applyPending k = { s with
    tanks := vset s.tanks k (pendingApplied r)
    link := s.link.without fun j => decide (j = k) && (pendingApplied r).isNone
    notices := (s.applyPending k).notices } := by
  have tanks : (s.applyPending k).tanks = vset s.tanks k (pendingApplied r) := by
    refine tanks_eq_vset ?_ fun j hj => ?_
    · rw [s.applyPending_tank k, h]; rfl
    · unfold State.applyPending
      split
      · rfl
      · simp [State.removeTank, State.forgetTank, State.tank, State.setTank, vget_vset, hj]
      · simp [hj]
  have rest : s.applyPending k = { s with
      tanks := (s.applyPending k).tanks
      link := s.link.without fun j => decide (j = k) && (pendingApplied r).isNone
      notices := (s.applyPending k).notices } := by
    rw [pendingApplied_isNone]
    unfold State.applyPending
    rw [h, Option.bind_some]
    split
    · next e => simp [e, Link.without]
    · next e =>
      apply State.eq_of_fields <;> simp [e, Link.without, State.removeTank, State.forgetTank, setErase]
    · next e => apply State.eq_of_fields <;> simp [e, Link.without]
  rw [tanks] at rest
  exact rest

/-! ### One departure, whole -/

/-- R102, R96: the tanks of a lineup in a state, but for those of a list. -/
def State.remaining (s : State) (l : LineId) (ks : List TankId) (st : TankState) : Nat :=
  ((s.lineup l).filter fun j => !decide (j ∈ ks) && decide (s.tankState j = some st)).length

/-- What a line is told of the departures of tanks from FULL (`full`) and TOPPING (`top`), with the numbers of those that
remain: the state `s` with the lineup, the records and the link's lists of `t`. -/
def State.toldOf (s : State) (l : LineId) (full top : Bool) (nf nt : Nat) (m : Meas) (t : State) : State :=
  { s with
    seqs := vset s.seqs l (s.leftFull l full nf)
    rates := vset s.rates l (s.leftTopping l top nt)
    meass := vset s.meass l m
    lineups := t.lineups, tanks := t.tanks, link := t.link, alarms := t.alarms, horn := t.horn, notices := t.notices }

theorem State.countIn_unlined {s : State} {k : TankId} {l : LineId} {st : TankState} (u : State)
    (hl : u.lineup l = setErase k (s.lineup l)) (ht : ∀ j, j ≠ k → u.tank j = s.tank j) :
    u.countIn l st = s.remaining l [k] st := by
  unfold State.countIn State.remaining
  rw [hl, setErase, List.filter_filter]
  congr 1
  refine List.filter_congr fun j _ => ?_
  by_cases e : j = k
  · simp [e]
  · simp [e, State.tankState, ht j e]

theorem State.listTank_unlineTank {s : State} {k : TankId} {r : Tank} {l : LineId} (h : s.tank k = some r)
    (hl : r.line = some l) : s.listTank k false = ((s.unlineTank k).tellDeparture l r.state).applyPending k := by
  unfold State.listTank State.unlineTank
  rw [h]
  simp only [hl]

theorem State.listTank_eq {s : State} {k : TankId} {r : Tank} {l : LineId} (h : s.tank k = some r) (hl : r.line = some l) :
    (s.listTank k false) = s.toldOf l (decide (r.state = .full)) (decide (r.state = .topping)) (s.remaining l [k] .full)
        (s.remaining l [k] .topping)
        (if r.state = .topping then
          s.measAt l (s.leftTopping l (decide (r.state = .topping)) (s.remaining l [k] .topping)).eff else s.meas l)
        { s with
          lineups := vset s.lineups l (setErase k (s.lineup l))
          tanks := vset s.tanks k (unlined r)
          link := s.link.without fun j => decide (j = k) && (unlined r).isNone
          alarms := (s.listTank k false).alarms, horn := (s.listTank k false).horn, notices := (s.listTank k false).notices } := by
  have e := State.listTank_unlineTank h hl
  have out := State.unlineTank_eq h hl
  have told := (s.unlineTank k).tellDeparture_eq l r.state
  have lineup : (s.unlineTank k).lineup l = setErase k (s.lineup l) := by rw [out]; simp [State.lineup]
  have other : ∀ j, j ≠ k → (s.unlineTank k).tank j = s.tank j := fun j hj => by rw [out]; simp [State.tank, vget_vset, hj]
  have full : (s.unlineTank k).leftFull l = s.leftFull l := by funext f n; rw [out]; rfl
  have topping : (s.unlineTank k).leftTopping l = s.leftTopping l := by funext f n; rw [out]; rfl
  have meas : (s.unlineTank k).measAt l = s.measAt l := by funext x; rw [out]; rfl
  rw [State.countIn_unlined _ lineup other, State.countIn_unlined _ lineup other, full, topping, meas] at told
  have record : ((s.unlineTank k).tellDeparture l r.state).tank k = some r.offLine := by
    rw [told, State.tank, out]; simp
  have applied := State.applyPending_eq record
  rw [← unlined_eq, ← e] at applied
  apply State.eq_of_fields <;> simp only [State.toldOf]
  all_goals rw [applied, told, out]
  case tanks => exact vset_vset _ _ _ _
  all_goals rfl

theorem Tank.moved_releasing_eq (now : Nat) (r : Tank) : Tank.moved .releasing now r = releasedAt now r := by
  unfold Tank.moved releasedAt
  by_cases e : r.state = .releasing
  · rw [if_pos rfl, if_pos e, if_pos e, ← e]
  · simp [e]

theorem releasedAt_state (now : Nat) (r : Tank) : (releasedAt now r).state = .releasing := by
  unfold releasedAt
  split
  · assumption
  · rfl

theorem State.countIn_released {s : State} {k : TankId} {l : LineId} {st : TankState} (u : State) (hst : st ≠ .releasing)
    (hl : u.lineup l = s.lineup l) (hk : u.tankState k = some .releasing) (ht : ∀ j, j ≠ k → u.tank j = s.tank j) :
    u.countIn l st = s.remaining l [k] st := by
  unfold State.countIn State.remaining
  rw [hl]
  congr 1
  refine List.filter_congr fun j _ => ?_
  by_cases e : j = k
  · simp [e, hk, hst.symm]
  · simp [e, State.tankState, ht j e]

theorem State.shiftTank_eq {s : State} {k : TankId} {r : Tank} {l : LineId} (h : s.tank k = some r) (hl : r.line = some l) :
    s.shiftTank k .releasing = s.toldOf l (decide (r.state = .full)) (decide (r.state = .topping)) (s.remaining l [k] .full)
        (s.remaining l [k] .topping)
        (if r.state = .topping then
          s.measAt l (s.leftTopping l (decide (r.state = .topping)) (s.remaining l [k] .topping)).eff else s.meas l)
        { s with
          tanks := vset s.tanks k (some (releasedAt s.clock r))
          alarms := (s.shiftTank k .releasing).alarms, horn := (s.shiftTank k .releasing).horn
          notices := (s.shiftTank k .releasing).notices } := by
  have e : s.shiftTank k .releasing = (s.moveTank k .releasing).tellDeparture l r.state := by
    unfold State.shiftTank
    rw [h]
    simp only [hl]
    split
    · next g => rw [g]; rfl
    · rfl
  have out := State.moveTank_eq h .releasing
  rw [Tank.moved_releasing_eq] at out
  have told := (s.moveTank k .releasing).tellDeparture_eq l r.state
  have lineup : (s.moveTank k .releasing).lineup l = s.lineup l := by rw [out]; rfl
  have state : (s.moveTank k .releasing).tankState k = some .releasing := by
    rw [out]
    simp [State.tankState, State.tank, releasedAt_state]
  have other : ∀ j, j ≠ k → (s.moveTank k .releasing).tank j = s.tank j := fun j hj => by
    rw [out]; simp [State.tank, vget_vset, hj]
  have full : (s.moveTank k .releasing).leftFull l = s.leftFull l := by funext f n; rw [out]; rfl
  have topping : (s.moveTank k .releasing).leftTopping l = s.leftTopping l := by funext f n; rw [out]; rfl
  have meas : (s.moveTank k .releasing).measAt l = s.measAt l := by funext x; rw [out]; rfl
  rw [State.countIn_released _ (by decide) lineup state other, State.countIn_released _ (by decide) lineup state other, full,
    topping, meas, ← e] at told
  apply State.eq_of_fields <;> simp only [State.toldOf]
  all_goals rw [told, out]
  all_goals rfl

/-! ### A tank that leaves or becomes RELEASING, by its record -/

/-- R92, R94: a tank of a lineup that becomes LISTED where `leave` holds of its record, and RELEASING otherwise. -/
def State.departTank (leave : Tank → Bool) (s : State) (k : TankId) : State :=
  match s.tank k with
  | none => s
  | some r => if leave r then s.listTank k false else s.shiftTank k .releasing

theorem State.lineDisconnected_eq (s : State) (l : LineId) :
    s.lineDisconnected l = (s.lineup l).foldl (State.departTank fun _ => true) s := by
  unfold State.lineDisconnected
  congr 1
  funext t k
  unfold State.departTank State.listTank
  cases t.tank k <;> rfl

theorem State.lineFinished_eq (s : State) (l : LineId) :
    s.lineFinished l = (s.lineup l).foldl (State.departTank fun r => decide (r.valve = .closed)) s := by
  unfold State.lineFinished
  congr 1
  funext t k
  unfold State.departTank State.finishTank
  cases h : t.tank k with
  | none => simp [State.shiftTank, h]
  | some r => simp

theorem State.releaseTank_eq : State.releaseTank = State.departTank fun r => decide (r.valve ≠ .opened) := by
  funext t k
  unfold State.departTank State.releaseTank
  cases t.tank k with
  | none => rfl
  | some r => cases h : r.valve <;> simp [h]

end Sys2Proof.Machine
end

section
/-! SUPPORT. Several tanks of one lineup that leave it or become RELEASING (R92, R94), whole. -/

namespace Sys2Proof.Machine

/-- R14: the measurement state `m` of a line in `s` whose target_eff has been formed, perhaps more than once, and has come to that
of `r`. `top` says whether it has been formed at all. -/
def MeasTold (s : State) (l : LineId) (top : Bool) (r : Rate) (m : Meas) : Prop :=
  (m = s.meas l ∨ (s.seq l).state = .delivering ∧ m = (s.meas l).unsteady)
    ∧ ((s.seq l).state = .delivering → (s.rate l).eff ≠ r.eff → m = (s.meas l).unsteady)
    ∧ (top = false → m = s.meas l)

/-- Tanks `ks` of the lineup of line `l` have departed, from `s` to `t`: those whose record `leave` holds of have become LISTED, and
the others RELEASING. -/
structure Departed (leave : Tank → Bool) (l : LineId) (ks : List TankId) (s t : State) : Prop where
  record : ∀ k ∈ ks, ∀ r, s.tank k = some r → t.tank k = if leave r then unlined r else some (releasedAt s.clock r)
  other : ∀ k, k ∉ ks → t.tank k = s.tank k
  lineups : t.lineups = vset s.lineups l ((s.lineup l).filter fun k => !(decide (k ∈ ks) && (s.tank k).any leave))
  link : t.link = s.link.without fun k => decide (k ∈ ks) && (t.tank k).isNone
  told : ∃ m, MeasTold s l (decide (∃ k ∈ ks, s.tankState k = some .topping))
      (s.leftTopping l (decide (∃ k ∈ ks, s.tankState k = some .topping)) (s.remaining l ks .topping)) m
    ∧ t = s.toldOf l (decide (∃ k ∈ ks, s.tankState k = some .full)) (decide (∃ k ∈ ks, s.tankState k = some .topping))
        (s.remaining l ks .full) (s.remaining l ks .topping) m t
  heard : DeparturesTold l ks s t
  gone : AlarmsDistinct s → ∀ k ∈ ks, ∀ r, s.tank k = some r → r.state = .releasing → leave r = true →
    ¬ AlarmPresent t .changeoverLate (.tank k)

theorem Departed.nil (leave : Tank → Bool) (l : LineId) (s : State) : Departed leave l [] s s := by
  refine ⟨fun _ h => absurd h List.not_mem_nil, fun _ _ => rfl, ?_, ?_, ⟨s.meas l, ⟨.inl rfl, ?_, fun _ => rfl⟩, ?_⟩,
    DeparturesTold.refl, fun _ _ h => absurd h List.not_mem_nil⟩
  · simp [State.lineup, vset_vget]
  · simp [Link.without]
  · simp [State.leftTopping]
  · simp [State.toldOf, State.leftFull, State.leftTopping, State.seq, State.rate, State.meas, vset_vget]

/-! ### One tank -/

theorem measTold_departure (s : State) (l : LineId) (st : TankState) (n : Nat) :
    MeasTold s l (decide (st = .topping)) (s.leftTopping l (decide (st = .topping)) n)
      (if st = .topping then s.measAt l (s.leftTopping l (decide (st = .topping)) n).eff else s.meas l) := by
  unfold MeasTold
  by_cases h : st = .topping
  · rw [if_pos h]
    unfold State.measAt
    by_cases d : (s.seq l).state = .delivering ∧ (s.rate l).eff ≠ (s.leftTopping l (decide (st = .topping)) n).eff
    · rw [if_pos d]
      exact ⟨.inr ⟨d.1, rfl⟩, fun _ _ => rfl, fun e => by simp [h] at e⟩
    · rw [if_neg d]
      exact ⟨.inl rfl, fun a b => absurd ⟨a, b⟩ d, fun _ => rfl⟩
  · rw [if_neg h]
    exact ⟨.inl rfl, fun _ e => by simp [State.leftTopping, h] at e, fun _ => rfl⟩

theorem State.toldOf_self {s t w : State} {l : LineId} {full top : Bool} {nf nt : Nat} {m : Meas}
    (h : t = s.toldOf l full top nf nt m w) : t = s.toldOf l full top nf nt m t := by
  subst h
  rfl

/-- One tank that has departed, from the whole of what follows. -/
theorem Departed.single {leave : Tank → Bool} {s t w : State} {k : TankId} {r : Tank} {l : LineId} (h : s.tank k = some r)
    (e : t = s.toldOf l (decide (r.state = .full)) (decide (r.state = .topping)) (s.remaining l [k] .full)
      (s.remaining l [k] .topping) (if r.state = .topping then
        s.measAt l (s.leftTopping l (decide (r.state = .topping)) (s.remaining l [k] .topping)).eff else s.meas l) w)
    (tanks : w.tanks = vset s.tanks k (if leave r then unlined r else some (releasedAt s.clock r)))
    (lineups : w.lineups = vset s.lineups l (if leave r then setErase k (s.lineup l) else s.lineup l))
    (link : w.link = if leave r then s.link.without fun j => decide (j = k) && (unlined r).isNone else s.link)
    (heard : DeparturesTold l [k] s t)
    (gone : AlarmsDistinct s → r.state = .releasing → leave r = true → ¬ AlarmPresent t .changeoverLate (.tank k)) :
    Departed leave l [k] s t := by
  have state : ∀ st, decide (∃ j ∈ [k], s.tankState j = some st) = decide (r.state = st) := fun st => by
    simp [State.tankState, h]
  have tank : t.tank k = if leave r then unlined r else some (releasedAt s.clock r) := by
    rw [State.tank, e, State.toldOf, tanks, vget_vset, if_pos rfl]
  have self : ∀ j x, j ∈ [k] → s.tank j = some x → j = k ∧ x = r := fun j x hj hx => by
    obtain rfl := List.mem_singleton.mp hj
    rw [h] at hx
    exact ⟨rfl, (Option.some.inj hx).symm⟩
  refine ⟨fun j hj x hx => ?_, fun j hj => ?_, ?_, ?_, ?_, heard, fun d j hj x hx st g => ?_⟩
  · obtain ⟨rfl, rfl⟩ := self j x hj hx
    exact tank
  · rw [State.tank, e, State.toldOf, tanks, vget_vset, if_neg (mt List.mem_singleton.mpr hj)]
    rfl
  · rw [e, State.toldOf, lineups]
    congr 1
    by_cases g : leave r = true
    · rw [if_pos g]
      refine List.filter_congr fun j _ => ?_
      by_cases e : j = k <;> simp [e, h, g]
    · rw [if_neg g]
      refine (List.filter_eq_self.mpr fun j _ => ?_).symm
      by_cases e : j = k <;> simp [e, h, g]
  · have whole : t.link = w.link := by rw [e]; rfl
    rw [whole, link]
    have off : (fun j => decide (j ∈ [k]) && (t.tank j).isNone) = fun j => decide (j = k) && (t.tank k).isNone := by
      funext j
      by_cases e : j = k <;> simp [e]
    rw [off, tank]
    by_cases g : leave r = true
    · rw [if_pos g, if_pos g]
    · simp [g, Link.without]
  · simp only [state]
    exact ⟨_, measTold_departure s l r.state _, State.toldOf_self e⟩
  · obtain ⟨rfl, rfl⟩ := self j x hj hx
    exact gone d st g

theorem State.shiftTank_told {s : State} {k : TankId} {r : Tank} {l : LineId} (h : s.tank k = some r) (hl : r.line = some l) :
    DeparturesTold l [k] s (s.shiftTank k .releasing) := by
  have moved : DeparturesTold l [k] s (s.moveTank k .releasing) := DeparturesTold.refl.moveTank (List.mem_singleton_self k) _
  unfold State.shiftTank
  rw [h]
  simp only [hl]
  split
  · exact moved
  · exact moved.tellDeparture _

/-- The end of CHANGEOVER_LATE is the one change of an alarm as a tank becomes LISTED. -/
theorem State.listTank_alarms {s : State} {k : TankId} {r : Tank} {l : LineId} (h : s.tank k = some r) (hl : r.line = some l) :
    (s.listTank k false).alarms = (s.moveTank k .listed).alarms := by
  have out : (s.unlineTank k).alarms = (s.moveTank k .listed).alarms := by
    unfold State.unlineTank State.leaveLineup
    split <;> simp
  have told : ∀ u : State, (u.tellDeparture l r.state).alarms = u.alarms := fun u => by rw [u.tellDeparture_eq]
  have applied : ∀ u : State, (u.applyPending k).alarms = u.alarms := fun u => by
    unfold State.applyPending State.removeTank State.forgetTank
    split <;> simp
  rw [State.listTank_unlineTank h hl, applied, told, out]

theorem State.listTank_told {s : State} {k : TankId} {r : Tank} {l : LineId} (h : s.tank k = some r) (hl : r.line = some l) :
    DeparturesTold l [k] s (s.listTank k false)
      ∧ (AlarmsDistinct s → r.state = .releasing → ¬ AlarmPresent (s.listTank k false) .changeoverLate (.tank k)) := by
  have hk := List.mem_singleton_self k
  have moved : DeparturesTold l [k] s (s.moveTank k .listed) := DeparturesTold.refl.moveTank hk _
  have out : DeparturesTold l [k] s (s.unlineTank k) := by
    have line : (s.moveTank k .listed).tankLine k = some l := by
      rw [State.tankLine_moveTank, State.tankLine, h]
      exact hl
    unfold State.unlineTank State.leaveLineup
    rw [line]
    exact (((moved.modTank hk _).same (u := State.setLineup _ l _) rfl rfl).notify (.inl rfl)).modTank hk _
  refine ⟨?_, fun d st => ?_⟩
  · rw [State.listTank_unlineTank h hl]
    exact (out.tellDeparture _).applyPending hk
  · rw [AlarmPresent.congr (State.listTank_alarms h hl)]
    unfold State.moveTank
    rw [if_pos ⟨by rw [State.tankState, h, Option.map_some, st], by decide⟩]
    exact State.alarmGone_not_present _ _ _ ((DeparturesTold.refl (l := l) (ks := [k])).modTank hk _ |>.distinct d)

theorem Departed.one (leave : Tank → Bool) {s : State} {k : TankId} {r : Tank} {l : LineId} (h : s.tank k = some r)
    (hl : r.line = some l) : Departed leave l [k] s (s.departTank leave k) := by
  unfold State.departTank
  rw [h]
  simp only []
  by_cases g : leave r = true
  · rw [if_pos g]
    obtain ⟨told, gone⟩ := State.listTank_told h hl
    refine .single h (State.listTank_eq h hl) ?_ ?_ ?_ told fun d st _ => gone d st
    · rw [if_pos g]
    · rw [if_pos g]
    · rw [if_pos g]
  · rw [if_neg g]
    refine .single h (State.shiftTank_eq h hl) ?_ ?_ ?_ (State.shiftTank_told h hl) fun _ _ c => absurd c g
    · rw [if_neg g]
    · rw [if_neg g, State.lineup, vset_vget]
    · rw [if_neg g]

/-! ### One tank after another -/

theorem setErase_twice {α : Type} [DecidableEq α] (c : α) (xs : List α) : setErase c (setErase c xs) = setErase c xs := by
  simp [setErase, List.filter_filter]

theorem State.leftFull_then {s t : State} {l : LineId} {f g : Bool} {m n : Nat} (hs : t.seq l = s.leftFull l f m)
    (he : t.esd = s.esd) (hle : n ≤ m) (heq : g = false → n = m) : t.leftFull l g n = s.leftFull l (f || g) n := by
  by_cases first : f = true ∧ m = 0
  · have z : n = 0 := by omega
    have e := hs
    rw [State.leftFull, if_pos first] at e
    have later : s.leftFull l (f || g) n = t.seq l := by rw [e, State.leftFull, if_pos (by simp [first.1, z])]
    rw [later]
    unfold State.leftFull
    split
    · rw [e, he]
      simp only [setErase_twice]
      rfl
    · rfl
  · have e := hs
    rw [State.leftFull, if_neg first] at e
    cases g with
    | false =>
      obtain rfl := heq rfl
      simp only [State.leftFull, Bool.or_false, if_neg first, e]
      simp
    | true => simp [State.leftFull, e, he]

/-- R64: target_eff formed again keeps nothing of what was formed before. -/
theorem State.formed_again (s : State) (l : LineId) (r : Rate) (b : Bool) :
    s.formed l { s.formed l r with throttle := b } = s.formed l { r with throttle := b } := by
  unfold State.formed
  by_cases h : (s.seq l).state.formsTarget = true
  · simp only [h, if_true]
    rfl
  · simp only [h]
    rfl

theorem State.leftTopping_then {s t : State} {l : LineId} {f g : Bool} {m n : Nat} (hr : t.rate l = s.leftTopping l f m)
    (hf : t.formed l = s.formed l) (heq : g = false → n = m) : t.leftTopping l g n = s.leftTopping l (f || g) n := by
  cases g with
  | false =>
    obtain rfl := heq rfl
    simpa [State.leftTopping] using hr
  | true =>
    cases f with
    | false => simp [State.leftTopping] at hr ⊢; rw [hf, hr]
    | true =>
      simp only [State.leftTopping, if_true, Bool.or_true, hf] at hr ⊢
      rw [hr, State.formed_again]

theorem MeasTold.then {s t : State} {l : LineId} {f g : Bool} {r q : Rate} {m n : Meas} (h : MeasTold s l f r m)
    (h' : MeasTold t l g q n) (hs : (t.seq l).state = (s.seq l).state) (hr : t.rate l = r) (hm : t.meas l = m) :
    MeasTold s l (f || g) q n := by
  obtain ⟨h1, h2, h3⟩ := h
  obtain ⟨g1, g2, g3⟩ := h'
  rw [hs, hm] at g1 g2
  rw [hm] at g3
  rw [hr] at g2
  have twice : (s.meas l).unsteady.unsteady = (s.meas l).unsteady := rfl
  refine ⟨?_, fun d e => ?_, fun e => ?_⟩
  · rcases g1 with rfl | ⟨d, rfl⟩
    · exact h1
    · refine .inr ⟨d, ?_⟩
      rcases h1 with rfl | ⟨-, rfl⟩
      · rfl
      · exact twice
  · by_cases c : (s.rate l).eff = r.eff
    · rw [g2 d (c ▸ e)]
      rcases h1 with rfl | ⟨-, rfl⟩
      · rfl
      · exact twice
    · obtain rfl := h2 d c
      rcases g1 with rfl | ⟨-, rfl⟩
      · rfl
      · exact twice
  · obtain ⟨ef, eg⟩ := Bool.or_eq_false_iff.mp e
    rw [g3 eg, h3 ef]

theorem State.remaining_le (s : State) (l : LineId) (k : TankId) (ks : List TankId) (st : TankState) :
    s.remaining l (k :: ks) st ≤ s.remaining l [k] st := by
  unfold State.remaining
  simp only [← List.countP_eq_length_filter]
  refine List.countP_mono_left fun j _ h => ?_
  simp only [List.mem_cons, List.not_mem_nil, or_false, Bool.and_eq_true, Bool.not_eq_true', decide_eq_false_iff_not] at h ⊢
  exact ⟨fun e => h.1 (.inl e), h.2⟩

theorem State.remaining_eq {s : State} {l : LineId} {k : TankId} {ks : List TankId} {st : TankState}
    (h : ∀ j ∈ ks, s.tankState j ≠ some st) : s.remaining l (k :: ks) st = s.remaining l [k] st := by
  unfold State.remaining
  congr 1
  refine List.filter_congr fun j _ => ?_
  by_cases e : j ∈ ks
  · simp [h j e]
  · simp [e]

/-- The tanks of a lineup that remain in a state that no departure leads to. -/
theorem Departed.remaining {leave : Tank → Bool} {l : LineId} {k : TankId} {s t : State} {r : Tank}
    (h : Departed leave l [k] s t) (hr : s.tank k = some r) (ks : List TankId) {st : TankState} (hst : st ≠ .releasing) :
    t.remaining l ks st = s.remaining l (k :: ks) st := by
  have lineup : t.lineup l = (s.lineup l).filter fun j => !(decide (j ∈ [k]) && (s.tank j).any leave) := by
    rw [State.lineup, h.lineups, vget_vset, if_pos rfl]
  unfold State.remaining
  rw [lineup, List.filter_filter]
  congr 1
  refine List.filter_congr fun j _ => ?_
  by_cases e : j = k
  · subst e
    have after := h.record j (List.mem_singleton_self j) r hr
    by_cases g : leave r = true
    · simp [hr, g]
    · rw [if_neg g] at after
      simp [State.tankState, after, releasedAt_state, hst.symm]
  · have o := h.other j (mt List.mem_singleton.mp e)
    simp [e, State.tankState, o]

theorem Link.without_without (x : Link) (f g : TankId → Bool) :
    (x.without f).without g = x.without fun k => f k || g k := by
  simp only [Link.without, List.filter_filter, Bool.not_or]
  congr 1 <;> simp [Bool.and_comm]

theorem State.leftFull_state (s : State) (l : LineId) (f : Bool) (n : Nat) :
    (s.leftFull l f n).state = (s.seq l).state := by
  unfold State.leftFull
  split <;> rfl

theorem MeasTold.qSurge {s : State} {l : LineId} {top : Bool} {r : Rate} {m : Meas} (h : MeasTold s l top r m) :
    m.qSurge = (s.meas l).qSurge := by
  rcases h.1 with rfl | ⟨-, rfl⟩ <;> rfl

theorem State.formed_congr {s t : State} {l : LineId} (hs : (t.seq l).state = (s.seq l).state) (hr : t.store = s.store)
    (hc : t.clock = s.clock) (hq : (t.meas l).qSurge = (s.meas l).qSurge) (hg : t.link.gauging = s.link.gauging) :
    t.formed l = s.formed l := by
  funext r
  unfold State.formed State.surgeTerm State.limits State.record
  rw [hs, hr, hc, hq, hg]

theorem State.toldOf_then {s t u : State} {l : LineId} {f f' f'' g g' g'' : Bool} {i i' i'' j j' j'' : Nat} {m n : Meas}
    (h : t = s.toldOf l f g i j m t) (h' : u = t.toldOf l f' g' i' j' n u) (full : t.leftFull l f' i' = s.leftFull l f'' i'')
    (topping : t.leftTopping l g' j' = s.leftTopping l g'' j'') : u = s.toldOf l f'' g'' i'' j'' n u := by
  unfold State.toldOf at h'
  rw [full, topping, h] at h'
  refine h'.trans ?_
  apply State.eq_of_fields <;> simp [State.toldOf, vset_vset]

theorem Departed.cons {leave : Tank → Bool} {l : LineId} {k : TankId} {ks : List TankId} {s t u : State} {r : Tank}
    (hr : s.tank k = some r) (hk : k ∉ ks) (h : Departed leave l [k] s t) (g : Departed leave l ks t u) :
    Departed leave l (k :: ks) s u := by
  have other : ∀ j ∈ ks, t.tank j = s.tank j := fun j hj => h.other j fun e => hk (List.mem_singleton.mp e ▸ hj)
  have state : ∀ j ∈ ks, ∀ st, t.tankState j = some st ↔ s.tankState j = some st := fun j hj st => by
    rw [State.tankState, State.tankState, other j hj]
  have first : u.tank k = t.tank k := g.other k hk
  have any : ∀ st, decide (∃ j ∈ k :: ks, s.tankState j = some st) =
      (decide (∃ j ∈ [k], s.tankState j = some st) || decide (∃ j ∈ ks, t.tankState j = some st)) := fun st => by
    rw [← Bool.decide_or]
    refine decide_eq_decide.mpr ⟨fun ⟨j, hj, e⟩ => ?_, fun e => ?_⟩
    · rcases List.mem_cons.mp hj with rfl | hj
      · exact .inl ⟨j, List.mem_singleton_self j, e⟩
      · exact .inr ⟨j, hj, (state j hj st).mpr e⟩
    · rcases e with ⟨j, hj, e⟩ | ⟨j, hj, e⟩
      · exact ⟨j, List.mem_singleton.mp hj ▸ List.mem_cons_self, e⟩
      · exact ⟨j, List.mem_cons_of_mem _ hj, (state j hj st).mp e⟩
  obtain ⟨m, mtold, whole⟩ := h.told
  obtain ⟨n, ntold, whole'⟩ := g.told
  have clock : t.clock = s.clock := by rw [whole]; rfl
  have lineup : t.lineup l = (s.lineup l).filter fun j => !(decide (j ∈ [k]) && (s.tank j).any leave) := by
    rw [State.lineup, h.lineups, vget_vset, if_pos rfl]
  refine ⟨fun j hj x hx => ?_, fun j hj => ?_, ?_, ?_, ?_, (h.heard.mono ?_).trans (g.heard.mono ?_), fun d j hj x hx st lv => ?_⟩
  · rcases List.mem_cons.mp hj with rfl | hj
    · rw [first]
      exact h.record j (List.mem_singleton_self j) x hx
    · rw [← clock]
      exact g.record j hj x ((other j hj).trans hx)
  · obtain ⟨a, b⟩ := not_or.mp (mt List.mem_cons.mpr hj)
    exact (g.other j b).trans (h.other j (mt List.mem_singleton.mp a))
  · rw [g.lineups, lineup, h.lineups, vset_vset, List.filter_filter]
    congr 1
    refine List.filter_congr fun j _ => ?_
    by_cases e : j = k
    · subst e; simp [hk]
    · by_cases e' : j ∈ ks
      · simp [e, e', other j e']
      · simp [e, e']
  · rw [g.link, h.link, Link.without_without]
    congr 1
    funext j
    by_cases e : j = k
    · subst e; simp [hk, first]
    · simp [e]
  · have seq : t.seq l = s.leftFull l _ _ := State.seq_of_seqs (congrArg State.seqs whole)
    have rate : t.rate l = s.leftTopping l _ _ := State.rate_of_rates (congrArg State.rates whole)
    have meas : t.meas l = m := State.meas_of_meass (congrArg State.meass whole)
    have st : (t.seq l).state = (s.seq l).state := by rw [seq, State.leftFull_state]
    have esd : t.esd = s.esd := by rw [whole]; rfl
    have formed : t.formed l = s.formed l := State.formed_congr st (by rw [whole]; rfl) clock
      (by rw [meas]; exact mtold.qSurge) (by rw [h.link]; rfl)
    have nf : ∀ st, st ≠ .releasing → t.remaining l ks st = s.remaining l (k :: ks) st := fun st hst => h.remaining hr ks hst
    have eq : ∀ st, st ≠ .releasing → decide (∃ j ∈ ks, t.tankState j = some st) = false →
        t.remaining l ks st = s.remaining l [k] st := fun st hst hn => by
      rw [nf st hst]
      exact State.remaining_eq fun j hj e => of_decide_eq_false hn ⟨j, hj, (state j hj st).mpr e⟩
    have topping := State.leftTopping_then rate formed (eq .topping (by decide))
    have full := State.leftFull_then seq esd (nf .full (by decide) ▸ s.remaining_le l k ks .full) (eq .full (by decide))
    rw [← any] at topping full
    have told := mtold.then ntold st rate meas
    rw [topping, ← any] at told
    rw [nf .topping (by decide)] at told topping whole'
    rw [nf .full (by decide)] at full whole'
    exact ⟨n, told, State.toldOf_then whole whole' full topping⟩
  · exact fun j hj => List.mem_singleton.mp hj ▸ List.mem_cons_self
  · exact fun j hj => List.mem_cons_of_mem _ hj
  · rcases List.mem_cons.mp hj with rfl | hj
    · have same := g.heard.alarms
      refine fun ⟨a, ha, hk', ho, hp⟩ => h.gone d j (List.mem_singleton_self j) x hx st lv ⟨a, (same a ?_).mp ha, hk', ho, hp⟩
      intro i hi e
      rw [ho] at e
      exact hk (AlarmObject.tank.inj (Prod.mk.inj e).2 ▸ hi)
    · exact g.gone (h.heard.distinct d) j hj x ((other j hj).trans hx) st lv

end Sys2Proof.Machine
end

section
/-! SUPPORT. The departures of several tanks, and the requests that bring them: DISCONNECT (R41), FINISH (R53, R54) and RELEASE
(R92). -/

namespace Sys2Proof.Machine

/-! ### All the departures of an event -/

theorem Departed.foldl (leave : Tank → Bool) {l : LineId} {ks : List TankId} {s : State} (nd : ks.Nodup)
    (h : ∀ k ∈ ks, ∃ r, s.tank k = some r ∧ r.line = some l) : Departed leave l ks s (ks.foldl (State.departTank leave) s) := by
  induction ks generalizing s with
  | nil => exact .nil leave l s
  | cons k ks ih =>
    obtain ⟨hk, nd⟩ := List.nodup_cons.mp nd
    obtain ⟨r, hr, hl⟩ := h k List.mem_cons_self
    have one := Departed.one leave hr hl
    refine .cons hr hk one (ih nd fun j hj => ?_)
    rw [one.other j fun e => hk (List.mem_singleton.mp e ▸ hj)]
    exact h j (List.mem_cons_of_mem _ hj)

/-- R82: each tank of a sound lineup has a record that names the line. -/
theorem LineupsSound.record {s : State} (h : LineupsSound s) {l : LineId} {k : TankId} (hk : k ∈ s.lineup l) :
    ∃ r, s.tank k = some r ∧ r.line = some l := by
  have e := (h.1 l k).mp hk
  unfold State.tankLine at e
  exact Option.bind_eq_some_iff.mp e

theorem Departed.lineup {leave : Tank → Bool} {l : LineId} {ks : List TankId} {s t : State} (h : Departed leave l ks s t) :
    t.lineup l = (s.lineup l).filter fun k => !(decide (k ∈ ks) && (s.tank k).any leave) := by
  rw [State.lineup, h.lineups, vget_vset, if_pos rfl]

/-- The count of tanks in a state that no departure leads to. -/
theorem Departed.countIn {leave : Tank → Bool} {l : LineId} {ks : List TankId} {s t : State} (h : Departed leave l ks s t)
    (rec : ∀ k ∈ ks, ∃ r, s.tank k = some r) {st : TankState} (hst : st ≠ .releasing) :
    t.countIn l st = s.remaining l ks st := by
  unfold State.countIn State.remaining
  rw [h.lineup, List.filter_filter]
  congr 1
  refine List.filter_congr fun k _ => ?_
  by_cases e : k ∈ ks
  · obtain ⟨r, hr⟩ := rec k e
    have after := h.record k e r hr
    by_cases g : leave r = true
    · simp [hr, g, e]
    · rw [if_neg g] at after
      simp [State.tankState, after, releasedAt_state, hst.symm, e]
  · simp [e, State.tankState, h.other k e]

theorem Departed.only {leave : Tank → Bool} {l : LineId} {ks : List TankId} {s t : State} (h : Departed leave l ks s t) :
    OnlyLine s t l := by
  intro k hk
  obtain ⟨m, -, e⟩ := h.told
  have lineup : t.lineup k = s.lineup k := by rw [State.lineup, h.lineups, vget_vset, if_neg hk]; rfl
  refine ⟨?_, ?_, ?_, ?_, lineup⟩
  all_goals
    rw [e]
    simp [State.toldOf, State.seq, State.rate, State.meas, State.drive, vget_vset, hk]

/-- What a line's departures leave of it: its drive, and its sequence and rate-control states by the tanks that remain. -/
theorem Departed.line {leave : Tank → Bool} {l : LineId} {ks : List TankId} {s t : State} (h : Departed leave l ks s t) :
    t.drive l = s.drive l
      ∧ t.seq l = s.leftFull l (decide (∃ k ∈ ks, s.tankState k = some .full)) (s.remaining l ks .full)
      ∧ t.rate l = s.leftTopping l (decide (∃ k ∈ ks, s.tankState k = some .topping)) (s.remaining l ks .topping)
      ∧ MeasTold s l (decide (∃ k ∈ ks, s.tankState k = some .topping)) (t.rate l) (t.meas l) := by
  obtain ⟨m, told, e⟩ := h.told
  have rate : t.rate l = _ := State.rate_of_rates (congrArg State.rates e)
  have meas : t.meas l = m := State.meas_of_meass (congrArg State.meass e)
  refine ⟨?_, State.seq_of_seqs (congrArg State.seqs e), rate, ?_⟩
  · rw [e]; rfl
  · rwa [rate, meas]

/-- Everything that departures leave as it was. -/
theorem Departed.whole {leave : Tank → Bool} {l : LineId} {ks : List TankId} {s t : State} (h : Departed leave l ks s t) :
    t = { s with seqs := t.seqs, rates := t.rates, meass := t.meass, lineups := t.lineups, tanks := t.tanks, link := t.link,
                 alarms := t.alarms, horn := t.horn, notices := t.notices } := by
  obtain ⟨m, -, e⟩ := h.told
  exact State.eq_of_fields (by rw [e]; rfl) (by rw [e]; rfl) (by rw [e]; rfl) (by rw [e]; rfl) (by rw [e]; rfl) (by rw [e]; rfl)
    rfl rfl rfl (by rw [e]; rfl) rfl rfl rfl (by rw [e]; rfl) (by rw [e]; rfl) (by rw [e]; rfl) rfl rfl (by rw [e]; rfl) rfl
    (by rw [e]; rfl)

theorem State.remaining_lineup (s : State) (l : LineId) (st : TankState) : s.remaining l (s.lineup l) st = 0 := by
  unfold State.remaining
  rw [List.length_eq_zero_iff, List.filter_eq_nil_iff]
  intro k hk
  simp [hk]

theorem State.countIn_pos (s : State) (l : LineId) (st : TankState) :
    0 < s.countIn l st ↔ ∃ k ∈ s.lineup l, s.tankState k = some st := by
  simp [State.countIn, List.length_pos_iff_exists_mem]

/-! ### FINISH (R53, R54, R94) -/

/-- R94, R82: "line finished", tank by tank. -/
theorem Departed.finished {l : LineId} {s t : State} (h : Departed (fun r => decide (r.valve = .closed)) l (s.lineup l) s t)
    {k : TankId} (hk : k ∈ s.lineup l) {r : Tank} (hr : s.tank k = some r) : TankFinished s t l k r := by
  have after := h.record k hk r hr
  unfold TankFinished
  rw [h.lineup]
  by_cases g : r.valve = .closed
  · simp only [g, decide_true, if_true] at after ⊢
    exact ⟨by simp [hk, hr, g], after⟩
  · simp only [g, decide_false, if_false, Bool.false_eq_true] at after ⊢
    exact ⟨by simp [hk, hr, g], after⟩

/-- R54: a HELD line that finishes, with its permit cleared, before its tanks are told. -/
def State.endHeld (s : State) (l : LineId) : State := (s.clearPermit l).enterConnected l

theorem State.endHeld_eq (s : State) (l : LineId) : s.endHeld l = { s with
    seqs := vset s.seqs l { s.seq l with state := .connected, holds := [], permit := false, pump := false }
    drives := vset s.drives l { s.drive l with ramp := none, setpoint := 0, track := 0 }
    rates := vset s.rates l { s.rate l with eff := none, governing := none, pendingTarget := none }
    notices := (s.endHeld l).notices } := by
  have e := (s.clearPermit l).enterConnected_eq l
  rw [s.clearPermit_seq l] at e
  unfold State.endHeld
  rw [e]
  apply State.eq_of_fields <;> simp [State.clearPermit, vset_vset]

theorem State.exec_finish {s : State} {l : LineId} (hr : Ready s) (hs : (s.seq l).state ∈ [LineState.opening, .delivering, .holding]) :
    exec (.finish (lineNumber l)) s = .next ((s.beginFinish l).take ["FINISH", numText (lineNumber l)] [LineState.finishing.text]) := by
  show Host.Outcome.next (s.drained.takeFinish (lineNumber l)) = _
  rw [s.drained_ready hr, State.takeFinish, State.lineRequest_ready hr.1]
  unfold State.beginFinish
  simp only [List.mem_cons, List.not_mem_nil, or_false] at hs
  rcases hs with h | h | h <;> simp [h, LineState.moving]

theorem State.exec_finish_held {s : State} {l : LineId} (hr : Ready s) (hs : (s.seq l).state = .held) :
    exec (.finish (lineNumber l)) s =
      .next (((s.endHeld l).lineFinished l).take ["FINISH", numText (lineNumber l)] [LineState.connected.text]) := by
  show Host.Outcome.next (s.drained.takeFinish (lineNumber l)) = _
  rw [s.drained_ready hr, State.takeFinish, State.lineRequest_ready hr.1]
  simp only [hs]
  rfl

/-- R54, R94: a HELD line that has finished, with the departures of its tanks. -/
theorem Departed.ofHeld {s v t : State} {l : LineId} (e : v = { s with
      seqs := vset s.seqs l { s.seq l with state := .connected, holds := [], permit := false, pump := false }
      drives := vset s.drives l { s.drive l with ramp := none, setpoint := 0, track := 0 }
      rates := vset s.rates l { s.rate l with eff := none, governing := none, pendingTarget := none }
      notices := v.notices })
    (h : Departed (fun r => decide (r.valve = .closed)) l (s.lineup l) v t) :
    t.seq l = { s.seq l with state := .connected, holds := [], permit := false, pump := false }
      ∧ t.drive l = { s.drive l with ramp := none, setpoint := 0, track := 0 }
      ∧ t.rate l = { s.rate l with
          pendingTarget := none, eff := none, governing := none
          throttle := if 0 < s.countIn l .topping then false else (s.rate l).throttle }
      ∧ t.meas l = s.meas l
      ∧ (∀ k ∈ s.lineup l, ∀ r, s.tank k = some r → TankFinished s t l k r)
      ∧ (∀ k, k ∉ s.lineup l → t.tank k = s.tank k) ∧ OnlyLine s t l ∧ KeepsBase s t ∧ KeepsTrips s t ∧ t.port = s.port := by
  have lineup : ∀ k, v.lineup k = s.lineup k := fun k => by rw [e]; rfl
  have tank : ∀ k, v.tank k = s.tank k := fun k => by rw [e]; rfl
  have tanks : ∀ st, (∃ k ∈ s.lineup l, v.tankState k = some st) ↔ 0 < s.countIn l st := fun st => by
    simp only [s.countIn_pos, State.tankState, tank]
  have seq : v.seq l = { s.seq l with state := .connected, holds := [], permit := false, pump := false } :=
    State.seq_of_seqs (congrArg State.seqs e)
  have rate : v.rate l = { s.rate l with eff := none, governing := none, pendingTarget := none } :=
    State.rate_of_rates (congrArg State.rates e)
  obtain ⟨tdrive, tseq, trate, tmeas⟩ := h.line
  have none_left : ∀ st, v.remaining l (s.lineup l) st = 0 := fun st => by rw [← lineup, State.remaining_lineup]
  rw [none_left] at tseq trate
  have whole := h.whole
  refine ⟨?_, ?_, ?_, ?_, fun k hk r hr => ?_, fun k hk => by rw [h.other k hk, tank], fun k hk => ?_, ?_, ?_, ?_⟩
  · rw [tseq]
    unfold State.leftFull
    split
    · rw [seq]; simp [setErase, pumpPermit]
    · exact seq
  · rw [tdrive]
    exact State.drive_of_drives (congrArg State.drives e)
  · rw [trate]
    simp only [tanks]
    unfold State.leftTopping State.formed
    rw [seq, rate]
    by_cases h : 0 < s.countIn l .topping <;> simp [h, LineState.formsTarget]
  · have kept : t.meas l = v.meas l := tmeas.1.resolve_right fun g => by rw [seq] at g; cases g.1
    rw [kept, e]; rfl
  · have finished := Departed.finished (l := l) (s := v) (t := t) (by rw [lineup]; exact h) (lineup l ▸ hk) ((tank k).trans hr)
    unfold TankFinished at finished ⊢
    rw [e] at finished
    exact finished
  · obtain ⟨a, b, c, d, f⟩ := h.only k hk
    rw [a, b, c, d, f, e]
    simp [State.seq, State.rate, State.drive, State.meas, State.lineup, vget_vset, hk]
  · unfold KeepsBase
    rw [whole, e]
    exact ⟨rfl, rfl, rfl, rfl, rfl, rfl⟩
  · unfold KeepsTrips
    rw [whole, e]
    exact ⟨rfl, rfl, rfl⟩
  · rw [whole, e]

/-- Settles O36: the closure of R53, or the end of a HELD line and the departures of R94. -/
theorem finishTaken : Obligations.FinishTaken := by
  refine fun l s hr => ⟨fun hs => ?_, fun hs sound => ?_⟩
  · have moves : (s.seq l).state.moving = !decide ((s.seq l).state = .holding) := by
      simp only [List.mem_cons, List.not_mem_nil, or_false] at hs
      rcases hs with h | h | h <;> rw [h] <;> rfl
    obtain ⟨seq, drive, pending, left⟩ := s.beginFinish_line l
    have own := s.beginFinish_own l
    refine ⟨_, State.exec_finish hr hs, seq, ?_, pending, left, own.elsewhere.replied _ _, own.only, own.elsewhere.taken _ _⟩
    show (s.beginFinish l).drive l = _
    rw [drive, moves]
    by_cases h : (s.seq l).state = .holding <;> simp [h]
  · have e := s.endHeld_eq l
    have lineup : (s.endHeld l).lineup l = s.lineup l := by rw [e]; rfl
    have taken := State.exec_finish_held hr hs
    rw [State.lineFinished_eq, lineup] at taken
    have done : Departed (fun r => decide (r.valve = .closed)) l (s.lineup l) (s.endHeld l)
        ((s.lineup l).foldl (State.departTank fun r => decide (r.valve = .closed)) (s.endHeld l)) := by
      refine Departed.foldl _ (sound.2.2 l) fun k hk => ?_
      have tank : (s.endHeld l).tank k = s.tank k := by rw [e]; rfl
      rw [tank]
      exact sound.record hk
    generalize (s.lineup l).foldl (State.departTank fun r => decide (r.valve = .closed)) (s.endHeld l) = t at taken done
    obtain ⟨seq, drive, rate, meas, records, others, only, base, trips, port⟩ := Departed.ofHeld e done
    refine ⟨_, taken, seq, drive, rate, meas, records, others, ?_, only, base, trips⟩
    rw [State.take_eq, replied, port]
    rfl

end Sys2Proof.Machine
end

section
/-! SUPPORT. DISCONNECT (R41) and RELEASE (R92). -/

namespace Sys2Proof.Machine

/-! ### DISCONNECT -/

/-- R41: the entry to DISCONNECTED, once the lineup has gone. -/
def State.enterDisconnected (s : State) (l : LineId) : State :=
  (((((s.modSeq l fun q => { q with state := .disconnected, grade := none, permit := false }).modMeas l
    Meas.disconnected).modDrive l Drive.turnOff).dropTarget l).alarmGone .stretchWarn (.line l)).alarmGone .strokeFailed (.line l)

/-- R41, before the conditions of the line end. -/
def State.switchedOff (s : State) (l : LineId) : State :=
  (((s.modSeq l fun q => { q with state := .disconnected, grade := none, permit := false }).modMeas l
    Meas.disconnected).modDrive l Drive.turnOff).dropTarget l

theorem State.enterDisconnected_eq (s : State) (l : LineId) : s.enterDisconnected l = { s with
    seqs := vset s.seqs l { s.seq l with state := .disconnected, grade := none, permit := false, pump := false }
    rates := vset s.rates l { s.rate l with eff := none, governing := none }
    meass := vset s.meass l (s.meas l).disconnected
    drives := vset s.drives l { s.drive l with enabled := false, ramp := none, setpoint := 0, track := 0 }
    alarms := (s.enterDisconnected l).alarms
    horn := (s.enterDisconnected l).horn
    notices := (s.enterDisconnected l).notices } := by
  apply State.eq_of_fields <;> simp [State.enterDisconnected, State.dropTarget, State.setTarget_eq, pumpPermit, Drive.turnOff]

theorem State.disconnectLine_eq (s : State) (l : LineId) :
    s.disconnectLine l = (s.lineDisconnected l).enterDisconnected l := rfl

/-- R41: what the entry to DISCONNECTED writes of alarms and notices. -/
theorem State.enterDisconnected_told (s : State) (l : LineId) :
    (AlarmsDistinct s → ¬ AlarmPresent (s.enterDisconnected l) .stretchWarn (.line l)
        ∧ ¬ AlarmPresent (s.enterDisconnected l) .strokeFailed (.line l))
      ∧ (∀ a : Alarm, (a.kind, a.object) ∉ [(AlarmKind.stretchWarn, AlarmObject.line l), (.strokeFailed, .line l)] →
          (a ∈ (s.enterDisconnected l).alarms ↔ a ∈ s.alarms))
      ∧ s.notices ⊆ (s.enterDisconnected l).notices
      ∧ ∀ n ∈ (s.enterDisconnected l).notices, n ∈ s.notices
          ∨ n ∈ [Notice.line l, .alarm .stretchWarn (.line l), .alarm .strokeFailed (.line l)] := by
  have e : s.enterDisconnected l = ((s.switchedOff l).alarmGone .stretchWarn (.line l)).alarmGone .strokeFailed (.line l) := rfl
  have off : DeparturesTold l [] s (s.switchedOff l) := by
    have seq : DeparturesTold l [] s (s.modSeq l fun q => { q with state := .disconnected, grade := none, permit := false }) :=
      DeparturesTold.refl.modSeq _
    exact (seq.same (u := ((s.modSeq l _).modMeas l Meas.disconnected).modDrive l Drive.turnOff) rfl rfl).setTarget none
  rw [e]
  generalize s.switchedOff l = u at off ⊢
  have warn : Soft l u (u.alarmGone .stretchWarn (.line l)) := Soft.refl.gone _ _
  have stroke : Soft l (u.alarmGone .stretchWarn (.line l)) ((u.alarmGone .stretchWarn (.line l)).alarmGone .strokeFailed (.line l)) :=
    Soft.refl.gone _ _
  refine ⟨fun d => ?_, fun a ha => ?_, List.Subset.trans off.notices (warn.trans stroke).subset, fun n hn => ?_⟩
  · have du := off.distinct d
    exact ⟨State.not_present_alarmGone _ (warn.distinct du) (u.alarmGone_not_present _ _ du),
      State.alarmGone_not_present _ _ _ (warn.distinct du)⟩
  · simp only [List.mem_cons, List.not_mem_nil, or_false, not_or] at ha
    rw [State.mem_alarmGone_other _ ha.2, State.mem_alarmGone_other _ ha.1]
    exact off.alarms a fun _ h => absurd h List.not_mem_nil
  · rcases State.alarmGone_noticed _ _ _ n hn with hn | rfl
    · rcases State.alarmGone_noticed _ _ _ n hn with hn | rfl
      · rcases off.noticed n hn with hn | rfl | ⟨_, h, _⟩
        · exact .inl hn
        · exact .inr List.mem_cons_self
        · exact absurd h List.not_mem_nil
      · exact .inr (by simp)
    · exact .inr (by simp)

/-- R41, R94: a line whose lineup has gone, disconnected. -/
theorem Departed.disconnected {s t u : State} {l : LineId} (hs : (s.seq l).state = .connected)
    (rec : ∀ k ∈ s.lineup l, ∃ r, s.tank k = some r ∧ r.line = some l)
    (h : Departed (fun _ => true) l (s.lineup l) s t) (e : u = { t with
      seqs := vset t.seqs l { t.seq l with state := .disconnected, grade := none, permit := false, pump := false }
      rates := vset t.rates l { t.rate l with eff := none, governing := none }
      meass := vset t.meass l (t.meas l).disconnected
      drives := vset t.drives l { t.drive l with enabled := false, ramp := none, setpoint := 0, track := 0 }
      alarms := u.alarms, horn := u.horn, notices := u.notices }) :
    u.seq l = { s.seq l with
          state := .disconnected, grade := none, permit := false, pump := false
          holds := if 0 < s.countIn l .full then setErase .tankFull (s.seq l).holds else (s.seq l).holds }
      ∧ u.drive l = { s.drive l with enabled := false, ramp := none, setpoint := 0, track := 0 }
      ∧ u.rate l = { s.rate l with
          eff := none, governing := none
          throttle := if 0 < s.countIn l .topping then false else (s.rate l).throttle }
      ∧ u.meas l = (s.meas l).disconnected
      ∧ u.lineup l = [] ∧ (∀ k, u.tank k = t.tank k) ∧ u.link = t.link ∧ OnlyLine s u l
      ∧ u = { s with seqs := u.seqs, rates := u.rates, meass := u.meass, drives := u.drives, lineups := u.lineups,
                     tanks := u.tanks, link := u.link, alarms := u.alarms, horn := u.horn, notices := u.notices } := by
  obtain ⟨tdrive, tseq, trate, tmeas⟩ := h.line
  rw [State.remaining_lineup] at tseq trate
  simp only [← State.countIn_pos] at tseq trate
  have kept : t.meas l = s.meas l := tmeas.1.resolve_right fun g => by rw [hs] at g; cases g.1
  refine ⟨?_, ?_, ?_, ?_, ?_, fun k => by rw [e]; rfl, by rw [e], fun k hk => ?_, ?_⟩
  · rw [State.seq_of_seqs (congrArg State.seqs e), tseq]
    unfold State.leftFull
    by_cases c : 0 < s.countIn l .full <;> simp [c]
  · rw [State.drive_of_drives (congrArg State.drives e), tdrive]
  · rw [State.rate_of_rates (congrArg State.rates e), trate]
    unfold State.leftTopping State.formed
    by_cases c : 0 < s.countIn l .topping <;> simp [c, hs, LineState.formsTarget]
  · rw [State.meas_of_meass (congrArg State.meass e), kept]
  · have gone : u.lineup l = t.lineup l := by rw [e]; rfl
    rw [gone, h.lineup, List.filter_eq_nil_iff]
    intro k hk
    obtain ⟨r, hr, -⟩ := rec k hk
    simp [hk, hr]
  · obtain ⟨a, b, c, d, f⟩ := h.only k hk
    rw [← a, ← b, ← c, ← d, ← f, e]
    simp [State.seq, State.rate, State.drive, State.meas, State.lineup, vget_vset, hk]
  · rw [h.whole] at e
    rw [e]

/-- Settles O28: the departures of R94, then the entry to DISCONNECTED. -/
theorem disconnectTaken : Obligations.DisconnectTaken := by
  intro l s hr hs sound d
  have taken : exec (.disconnect (lineNumber l)) s =
      .next ((s.disconnectLine l).take ["DISCONNECT", numText (lineNumber l)] [LineState.disconnected.text]) := by
    show Host.Outcome.next (s.drained.takeDisconnect (lineNumber l)) = _
    rw [s.drained_ready hr, State.takeDisconnect, State.lineRequest_ready hr.1, if_pos hs]
  have gone : Departed (fun _ => true) l (s.lineup l) s (s.lineDisconnected l) := by
    rw [State.lineDisconnected_eq]
    exact Departed.foldl _ (sound.2.2 l) fun k hk => sound.record hk
  rw [State.disconnectLine_eq] at taken
  obtain ⟨ended, alarms, kept, told⟩ := (s.lineDisconnected l).enterDisconnected_told l
  obtain ⟨seq, drive, rate, meas, lineup, tank, link, lines, whole⟩ := gone.disconnected hs (fun k hk => sound.record hk)
    ((s.lineDisconnected l).enterDisconnected_eq l)
  generalize (s.lineDisconnected l).enterDisconnected l = u at *
  generalize s.lineDisconnected l = t at *
  obtain ⟨warn, stroke⟩ := ended (gone.heard.distinct d)
  refine ⟨_, taken, seq, drive, rate, meas, lineup, fun k hk r hr => ?_, fun k hk => (tank k).trans (gone.other k hk), warn, stroke,
    fun a ha hl => (alarms a ha).trans (gone.heard.alarms a hl), fun n hn hl => ⟨fun h => ?_, fun h => kept (gone.heard.notices h)⟩,
    ?_, ?_, lines, ?_⟩
  · exact (tank k).trans (gone.record k hk r hr)
  · refine (gone.heard.noticed n ((told n h).resolve_right hn)).resolve_right fun g => ?_
    rcases g with rfl | ⟨k, hk, g⟩
    · exact hn List.mem_cons_self
    · exact g.elim (hl k hk).1 (hl k hk).2
  · show u.link = _
    rw [link, gone.link]
    simp only [← tank]
    rfl
  · rw [State.take_eq, replied, whole]
    rfl
  · apply State.eq_of_fields <;> simp only [State.take_eq]
    all_goals rw [whole]

end Sys2Proof.Machine
end

section
/-! SUPPORT. RELEASE (R92): its list of tanks, what it does, and its refusals. -/

namespace Sys2Proof.Machine

/-! ### The list of tanks -/

theorem allNumbers_some (ns : List Nat) : allNumbers (ns.map some) = some ns := by
  induction ns with
  | nil => rfl
  | cons n ns ih => simp [allNumbers, ih]

theorem allNumbers_eq_some {fs : List NumField} {ns : List Nat} (h : allNumbers fs = some ns) : fs = ns.map some := by
  induction fs generalizing ns with
  | nil => obtain rfl := Option.some.inj h; rfl
  | cons f fs ih =>
    cases f with
    | none => cases h
    | some n =>
      obtain ⟨ms, hm, rfl⟩ := Option.map_eq_some_iff.mp h
      rw [ih hm]
      rfl

theorem tankOf_out (n : Nat) (h : n = 0 ∨ 16 < n) : tankOf n = none := by
  unfold tankOf
  rw [List.find?_eq_none]
  intro k _
  have := k.isLt
  have : tankNumber k ≠ n := by unfold tankNumber; omega
  simpa using this

theorem tanksOf_numbers (ks : List TankId) : tanksOf (ks.map tankNumber) = ks := by
  unfold tanksOf
  induction ks with
  | nil => rfl
  | cons k ks ih => simp [tankOf_tankNumber, ih]

theorem tankNumber_injective : Function.Injective tankNumber := fun a b h => by
  have e := tankOf_tankNumber a
  rw [h, tankOf_tankNumber] at e
  exact (Option.some.inj e).symm

theorem State.releaseRefusal_append (s : State) (l : LineId) {ks : List TankId} (h : ∀ k ∈ ks, k ∈ s.lineup l) (ns : List Nat) :
    s.releaseRefusal l (ks.map tankNumber ++ ns) = s.releaseRefusal l ns := by
  induction ks with
  | nil => rfl
  | cons k ks ih =>
    simp only [List.map_cons, List.cons_append, State.releaseRefusal, tankOf_tankNumber, if_pos (h k List.mem_cons_self)]
    exact ih fun j hj => h j (List.mem_cons_of_mem _ hj)

/-! ### RELEASE -/

theorem State.exec_release {s : State} (hr : Ready s) (l : LineId) (w : TankWords) :
    exec (.release (lineNumber l) w) s = .next (s.takeRelease (lineNumber l) w) := by
  show Host.Outcome.next (s.drained.takeRelease (lineNumber l) w) = _
  rw [s.drained_ready hr]

/-- R92: a list of tanks of the lineup, each once, is taken. -/
theorem State.exec_release_taken {s : State} {l : LineId} (hr : Ready s) (hs : (s.seq l).state ≠ .disconnected)
    {ks : List TankId} {w : TankWords} (nd : ks.Nodup) (hk : ∀ k ∈ ks, k ∈ s.lineup l)
    (hw : w = .list (ks.map fun k => some (tankNumber k)) ∧ ks ≠ [] ∨ w = .all ∧ ks = s.lineup l) :
    exec (.release (lineNumber l) w) s = .next (s.releaseTanks ks ["RELEASE", numText (lineNumber l)]) := by
  rw [State.exec_release hr, State.takeRelease, State.lineRequest_ready hr.1, if_neg hs]
  rcases hw with ⟨rfl, ne⟩ | ⟨rfl, rfl⟩
  · have numbers : allNumbers (ks.map fun k => some (tankNumber k)) = some (ks.map tankNumber) := by
      rw [← allNumbers_some, List.map_map]
      rfl
    have refused : s.releaseRefusal l (ks.map tankNumber) = none := by
      have := s.releaseRefusal_append l hk []
      rw [List.append_nil] at this
      rw [this]
      rfl
    have good : ¬ (ks.map tankNumber = [] ∨ ¬ (ks.map tankNumber).Nodup) := by
      simp [ne, nd, List.nodup_map_iff tankNumber_injective]
    simp only [numbers, if_neg good, refused, tanksOf_numbers]
  · rfl

theorem State.exec_release_syntax {s : State} {l : LineId} (hr : Ready s) (hs : (s.seq l).state ≠ .disconnected)
    {fs : List NumField} (h : fs = [] ∨ none ∈ fs ∨ ¬ fs.Nodup) :
    exec (.release (lineNumber l) (.list fs)) s = .next (s.refuse ["RELEASE", numText (lineNumber l)] ["SYNTAX"]) := by
  rw [State.exec_release hr, State.takeRelease, State.lineRequest_ready hr.1, if_neg hs]
  cases e : allNumbers fs with
  | none => simp only [e]
  | some ns =>
    have bad : ns = [] ∨ ¬ ns.Nodup := by
      rw [allNumbers_eq_some e] at h
      simpa [List.nodup_map_iff (Option.some_injective Nat)] using h
    simp only [e, if_pos bad]

theorem State.exec_release_refused {s : State} {l : LineId} (hr : Ready s) (hs : (s.seq l).state ≠ .disconnected)
    {before : List TankId} (hb : ∀ k ∈ before, k ∈ s.lineup l) {n : Nat} {after : List Nat}
    (nd : (before.map tankNumber ++ n :: after).Nodup) {why : List String} (h : s.releaseRefusal l (n :: after) = some why) :
    exec (.release (lineNumber l) (.list ((before.map tankNumber ++ n :: after).map some))) s =
      .next (s.refuse ["RELEASE", numText (lineNumber l)] why) := by
  rw [State.exec_release hr, State.takeRelease, State.lineRequest_ready hr.1, if_neg hs]
  have good : ¬ (before.map tankNumber ++ n :: after = [] ∨ ¬ (before.map tankNumber ++ n :: after).Nodup) := by
    simp [nd]
  simp only [allNumbers_some, if_neg good, State.releaseRefusal_append s l hb, h]

/-- R96, R65, R14: what a line is told of the TOPPING tanks that have departed from its lineup. -/
theorem Departed.throttled {leave : Tank → Bool} {l : LineId} {ks : List TankId} {s t : State} (h : Departed leave l ks s t)
    (rec : ∀ k ∈ ks, ∃ r, s.tank k = some r) :
    ((∀ k ∈ ks, s.tankState k ≠ some .topping) → t.rate l = s.rate l ∧ t.meas l = s.meas l)
      ∧ ((∃ k ∈ ks, s.tankState k = some .topping) →
          t.rate l = s.formed l { s.rate l with throttle := decide (0 < t.countIn l .topping) }
          ∧ ((s.seq l).state ≠ .delivering → t.meas l = s.meas l)
          ∧ (t.meas l = s.meas l ∨ t.meas l = (s.meas l).unsteady)
          ∧ ((s.seq l).state = .delivering → (s.rate l).eff ≠ (t.rate l).eff → t.meas l = (s.meas l).unsteady)) := by
  obtain ⟨-, -, rate, meas, changed, same⟩ := h.line
  rw [← h.countIn rec (by decide)] at rate
  refine ⟨fun hn => ?_, fun hy => ?_⟩
  · have none : decide (∃ k ∈ ks, s.tankState k = some .topping) = false := decide_eq_false fun ⟨k, hk, e⟩ => hn k hk e
    exact ⟨by rw [rate, none]; rfl, same none⟩
  · rw [decide_eq_true hy] at rate
    exact ⟨rate, fun hs => meas.resolve_right fun g => hs g.1, meas.imp id And.right, changed⟩

/-- Settles O39: the checks of the list in their order, and the departures of the tanks. -/
theorem releaseTaken : Obligations.ReleaseTaken := by
  refine ⟨fun l ks w s hr hs sound nd hk hw => ?_, fun l fs s hr hs h => ?_, fun l before after n s hr hs hb => ?_⟩
  · have done : Departed (fun r => decide (r.valve ≠ .opened)) l ks s (ks.foldl State.releaseTank s) := by
      rw [State.releaseTank_eq]
      exact Departed.foldl _ nd fun k hk' => sound.record (hk k hk')
    have records : ∀ k ∈ ks, ∃ r, s.tank k = some r := fun k hk' => (sound.record (hk k hk')).imp fun _ h => h.1
    have taken := State.exec_release_taken hr hs nd hk hw
    unfold State.releaseTanks at taken
    simp only [] at taken
    generalize ks.foldl State.releaseTank s = t at done taken
    obtain ⟨drive, seq, -, -⟩ := done.line
    rw [← done.countIn records (by decide)] at seq
    obtain ⟨untold, told⟩ := done.throttled records
    have only := done.only
    have whole := done.whole
    refine ⟨_, t.tankWords ks, taken, fun k hk' r hr => ?_, done.other, ?_, ?_, untold, fun ht => ?_, fun d k hk' st open' => ?_,
      done.heard.alarms, done.link, ?_, only, ?_⟩
    · have after := done.record k hk' r hr
      show if r.valve = .opened then k ∈ t.lineup l ∧ t.tank k = some (releasedAt s.clock r) else
        k ∉ t.lineup l ∧ t.tank k = unlined r
      rw [done.lineup]
      by_cases g : r.valve = .opened
      · simp only [g, ne_eq, not_true_eq_false, decide_false, Bool.false_eq_true, if_false] at after
        rw [if_pos g]
        exact ⟨by simp [hk k hk', hr, g], after⟩
      · simp only [g, ne_eq, not_false_eq_true, decide_true, if_true] at after
        rw [if_neg g]
        exact ⟨by simp [hk', hr, g], after⟩
    · show t.lineup l = _
      rw [done.lineup]
      refine List.filter_congr fun k _ => ?_
      by_cases e : k ∈ ks
      · obtain ⟨r, hr⟩ := records k e
        simp [hr]
      · simp [e]
    · show t.seq l = _
      rw [seq]
      unfold State.leftFull
      simp only [decide_eq_true_eq]
      rfl
    · obtain ⟨rate, meas, moved, changed⟩ := told ht
      refine ⟨fun hf => ?_, meas, fun hf lim hlim => ?_⟩
      · show t.rate l = _
        rw [rate, State.formed, if_neg (mt (LineState.formsTarget_iff _).mp hf)]
        rfl
      · rw [State.formed_of_limits hlim, if_pos ((LineState.formsTarget_iff _).mpr hf)] at rate
        rw [rate] at changed
        exact ⟨rate, moved, changed⟩
    · obtain ⟨r, hr⟩ := records k hk'
      rw [State.tankState, hr] at st
      rw [hr] at open'
      exact done.gone d k hk' r hr (Option.some.inj st) (by simpa using open')
    · rw [State.take_eq, replied, whole]
      rfl
    · apply State.eq_of_fields <;> simp only [State.take_eq]
      all_goals rw [whole]
  · rw [State.exec_release_syntax hr hs h]
    rfl
  · refine fun nd => ⟨fun h => ?_, fun k hn hk => ?_⟩
    · have why : s.releaseRefusal l (n :: after) = some ["RANGE", numText n] := by
        simp only [State.releaseRefusal, tankOf_out n h]
      rw [State.exec_release_refused hr hs hb nd why]
      rfl
    · have why : s.releaseRefusal l (n :: after) = some ["STATE", numText n] := by
        simp only [State.releaseRefusal, hn, tankOf_tankNumber, if_neg hk]
      rw [State.exec_release_refused hr hs hb nd why]
      rfl

end Sys2Proof.Machine
end

section
/-! SUPPORT. What an evaluation keeps (R99, R106), and FILL (R80, R81). -/

namespace Sys2Proof.Machine

/-! ### target_eff formed, as the statements say it -/

theorem State.targetFormed {s : State} {l : LineId} {r r' : Rate} {m : Meas} (he : r.eff = (s.rate l).eff)
    (hr : r' = s.formed l r) (hm : m = s.measAt l r'.eff) : TargetFormed s.link.gauging s l r r' m := by
  unfold TargetFormed
  rw [← LineState.formsTarget_iff]
  subst hm
  refine ⟨fun h => ?_, fun h lim hlim => ?_⟩
  · rw [State.formed, if_neg h] at hr
    subst hr
    exact ⟨rfl, by simp [State.measAt, he]⟩
  · rw [State.formed_of_limits hlim, if_pos h] at hr
    subst hr
    refine ⟨rfl, ?_⟩
    unfold State.measAt
    rw [he]
    rfl

theorem toldOfTopping {s t : State} {l : LineId} (hr : t.rate l = s.formed l (throttledBy s t l))
    (hm : t.meas l = s.measAt l (t.rate l).eff) (only : OnlyLine s t l) : ToldOfTopping s t l :=
  ⟨State.targetFormed rfl hr hm, only⟩

/-! ### What an evaluation keeps -/

theorem keepsBase_trans {s t u : State} (h : KeepsBase s t) (g : KeepsBase t u) : KeepsBase s u := by
  obtain ⟨a, b, c, d, e, f⟩ := h
  obtain ⟨a', b', c', d', e', f'⟩ := g
  exact ⟨a'.trans a, b'.trans b, c'.trans c, d'.trans d, e'.trans e, f'.trans f⟩

theorem keepsTrips_trans {s t u : State} (h : KeepsTrips s t) (g : KeepsTrips t u) : KeepsTrips s u := by
  obtain ⟨a, b, c⟩ := h
  obtain ⟨a', b', c'⟩ := g
  exact ⟨a'.trans a, b'.trans b, c'.trans c⟩

/-- From `s` to `t` tank `k` alone has been judged: it keeps its fill limit, and its state or one that an evaluation leads to. -/
structure Judged (k : TankId) (s t : State) : Prop where
  tank : ∀ r, s.tank k = some r → ∃ r', t.tank k = some r' ∧ r'.fl = r.fl
    ∧ (r'.state = r.state ∨ r'.state = .topping ∨ r'.state = .full)
  others : OnlyTank s t k
  lineups : t.lineups = s.lineups
  base : KeepsBase s t
  trips : KeepsTrips s t
  port : t.port = s.port

theorem Judged.refl {k : TankId} {s : State} : Judged k s s :=
  ⟨fun r h => ⟨r, h, rfl, .inl rfl⟩, fun _ _ => rfl, rfl, ⟨rfl, rfl, rfl, rfl, rfl, rfl⟩, ⟨rfl, rfl, rfl⟩, rfl⟩

theorem Judged.trans {k : TankId} {s t u : State} (h : Judged k s t) (g : Judged k t u) : Judged k s u := by
  refine ⟨fun r hr => ?_, fun j hj => (g.others j hj).trans (h.others j hj), g.lineups.trans h.lineups,
    keepsBase_trans h.base g.base, keepsTrips_trans h.trips g.trips, g.port.trans h.port⟩
  obtain ⟨r', hr', fl, st⟩ := h.tank r hr
  obtain ⟨r'', hr'', fl', st'⟩ := g.tank r' hr'
  refine ⟨r'', hr'', fl'.trans fl, ?_⟩
  rcases st' with e | e
  · rw [e]; exact st
  · exact .inr e

/-- What a line supervisor alone does judges no tank. -/
theorem Own.judged {l : LineId} {s t : State} (h : Own l s t) (k : TankId) : Judged k s t := by
  have e := h.elsewhere
  have tank : ∀ j, t.tank j = s.tank j := h.tank
  exact ⟨fun r hr => ⟨r, (tank k).trans hr, rfl, .inl rfl⟩, fun j _ => tank j, e.lineups,
    ⟨e.pending, e.clock, e.phase, e.key, e.settings, e.store⟩, ⟨e.esd, e.device, e.overfills⟩, e.port⟩

theorem State.modTankNoticed_judged (s : State) (k : TankId) {f : Tank → Tank} (hfl : ∀ r, (f r).fl = r.fl)
    (hst : ∀ r, (f r).state = r.state ∨ (f r).state = .topping ∨ (f r).state = .full) : Judged k s (s.modTankNoticed k f) := by
  refine ⟨fun r hr => ⟨f r, by simp [hr], hfl r, hst r⟩, fun j hj => by simp [hj], by simp, ?_, ?_, by simp⟩
  · unfold KeepsBase; simp
  · unfold KeepsTrips; simp

theorem State.modTank_judged (s : State) (k : TankId) {f : Tank → Tank} (hfl : ∀ r, (f r).fl = r.fl)
    (hst : ∀ r, (f r).state = r.state) : Judged k s (s.modTank k f) := by
  refine ⟨fun r hr => ⟨f r, by simp [hr], hfl r, .inl (hst r)⟩, fun j hj => by simp [hj], by simp, ?_, ?_, by simp⟩
  · unfold KeepsBase; simp
  · unfold KeepsTrips; simp

theorem State.alarmGone_judged (s : State) (k : TankId) (x : AlarmKind) (o : AlarmObject) : Judged k s (s.alarmGone x o) :=
  (Soft.refl.gone _ _ : Soft 0 _ _).own.judged k

theorem State.moveTank_judged (s : State) (k : TankId) {st : TankState} (h : st = .topping ∨ st = .full) :
    Judged k s (s.moveTank k st) := by
  have moved : Judged k s (s.modTankNoticed k (Tank.moved st s.clock)) :=
    s.modTankNoticed_judged k (fun _ => rfl) fun _ => .inr h
  unfold State.moveTank
  simp only []
  split
  · exact moved.trans (State.alarmGone_judged _ _ _ _)
  · exact moved

theorem State.queueAdvice_judged (s : State) (k j : TankId) (a : AdviceKind) : Judged k s (s.queueAdvice j a) := by
  unfold State.queueAdvice
  split
  · exact .refl
  · refine ⟨fun r hr => ⟨r, by simpa using hr, rfl, .inl rfl⟩, fun j _ => by simp, by simp, ?_, ?_, by simp⟩
    · unfold KeepsBase; simp
    · unfold KeepsTrips; simp

theorem State.enterFull_judged (s : State) (k : TankId) (l : LineId) : Judged k s (s.enterFull k l) := by
  have shifted : Judged k s (s.shiftTank k .full) := by
    have moved := s.moveTank_judged k (st := .full) (.inr rfl)
    unfold State.shiftTank
    split
    · exact .refl
    · simp only []
      split
      · split
        · exact moved
        · exact moved.trans ((State.tellDeparture_own _ _ _).judged k)
      · exact moved
  exact (shifted.trans ((State.addHold_own _ _ _).judged k)).trans (State.queueAdvice_judged _ _ _ _)

theorem State.enterTopping_judged (s : State) (k : TankId) (l : LineId) : Judged k s (s.enterTopping k l) :=
  ((s.moveTank_judged k (.inl rfl)).trans ((State.reportTopping_soft _ _ _).own.judged k)).trans (State.queueAdvice_judged _ _ _ _)

theorem State.actOn_judged (s : State) (k : TankId) (l : LineId) (r : Tank) (e : Results) : Judged k s (s.actOn k l r e) := by
  unfold State.actOn
  split
  · exact (s.addTrip_own l .overrun).judged k
  · split
    · exact s.enterFull_judged k l
    · split
      · split
        · exact s.enterTopping_judged k l
        · exact .refl
      · exact .refl

/-- R99, R106: an evaluation keeps everything but its own tank, the lines, the alarms and the link. -/
theorem State.evaluate_judged (s : State) (k : TankId) : Judged k s (s.evaluate k) := by
  have stale : Judged k s (s.judgeStale k) := s.modTankNoticed_judged k (fun _ => rfl) fun _ => .inl rfl
  have stored : ∀ e, Judged k (s.judgeStale k) ((s.judgeStale k).modTank k fun x => { x with results := some e }) := fun e =>
    State.modTank_judged _ k (fun _ => rfl) fun _ => rfl
  have acted : ∀ (l : LineId) (r : Tank) (e : Results),
      Judged k s (((s.judgeStale k).modTank k fun x => { x with results := some e }).actOn k l r e) := fun l r e =>
    (stale.trans (stored e)).trans (State.actOn_judged _ k l r e)
  unfold State.evaluate
  split
  · exact .refl
  · split
    · split
      · simp only []
        split
        · exact (acted _ _ _).trans ((State.addHold_own _ _ _).judged k)
        · exact acted _ _ _
      · exact .refl
    · exact .refl

/-- R99: a tank of a line in which no tank is evaluated is left as it is. -/
theorem State.evaluate_eq_self {s : State} {k : TankId} {r : Tank} {l : LineId} (h : s.tank k = some r) (hl : r.line = some l)
    (he : (s.seq l).state.evaluates = false) : s.evaluate k = s := by
  unfold State.evaluate
  simp only [h, hl]
  cases r.vRep <;> simp [he]

/-! ### FILL -/

theorem Tank.sameNoticed_fill (r : Tank) (used : Nat) : ({ r with fl := used } : Tank).sameNoticed r = decide (used = r.fl) := by
  simp [Tank.sameNoticed]

theorem State.storeFill_eq {s : State} {k : TankId} {r : Tank} (h : s.tank k = some r) (used : Nat) :
    (s.modTankNoticed k fun r => { r with fl := used }) = { s with
      tanks := vset s.tanks k (some { r with fl := used })
      notices := if used = r.fl then s.notices else noticesWith s (.tank k) } := by
  unfold State.modTankNoticed
  simp only [h, Tank.sameNoticed_fill, decide_eq_true_eq]
  split
  · rfl
  · rw [State.notify_eq]
    rfl

/-- R81, R96: a TOPPING tank whose limit is raised, returned to FILLING, before it is evaluated. -/
theorem State.startFilling_topping {s : State} {k : TankId} {r : Tank} (h : s.tank k = some r) (hs : r.state = .topping) :
    s.startFilling k = { s with
        seqs := (s.startFilling k).seqs, rates := (s.startFilling k).rates, meass := (s.startFilling k).meass
        notices := (s.startFilling k).notices
        tanks := vset s.tanks k (some { r with state := .filling, timer := none }) }
      ∧ ∀ l, r.line = some l → ToldOfTopping s (s.startFilling k) l
        ∧ (s.startFilling k).seq l =
          { s.seq l with holds := setErase .noOutlet (s.seq l).holds, pump := pumpPermit (s.seq l) s.esd.loop } := by
  have line : s.tankLine k = r.line := by simp [State.tankLine, h]
  have tank : Tank.moved .filling s.clock r = { r with state := .filling, timer := none } := by simp [Tank.moved]
  have moved : s.moveTank k .filling = { s with
      tanks := vset s.tanks k (some { r with state := .filling, timer := none })
      notices := (s.moveTank k .filling).notices } := by
    have e := State.moveTank_eq h .filling
    have quiet : s.moveTank k .filling = s.modTankNoticed k (Tank.moved .filling s.clock) := by
      simp [State.moveTank, State.tankState, h, hs]
    rw [tank] at e
    refine e.trans ?_
    rw [quiet]
    simp
  rcases Option.eq_none_or_eq_some r.line with hl | ⟨l, hl⟩
  · have e : s.startFilling k = s.moveTank k .filling := by
      simp [State.startFilling, State.shiftTank, line, h, hl]
    rw [e]
    refine ⟨?_, fun _ g => by rw [hl] at g; cases g⟩
    apply State.eq_of_fields <;> simp only []
    all_goals rw [moved]
  · have e : s.startFilling k = ((s.moveTank k .filling).tellDeparture l .topping).dropHold l .noOutlet := by
      simp [State.startFilling, State.shiftTank, line, h, hl, hs]
    have told := (s.moveTank k .filling).tellDeparture_eq l .topping
    have full : (s.moveTank k .filling).leftFull l = s.leftFull l := by funext f n; rw [moved]; rfl
    have topping : (s.moveTank k .filling).leftTopping l = s.leftTopping l := by funext f n; rw [moved]; rfl
    have meas : (s.moveTank k .filling).measAt l = s.measAt l := by funext x; rw [moved]; rfl
    rw [full, topping, meas] at told
    have whole : s.startFilling k = { s with
        seqs := (s.startFilling k).seqs, rates := (s.startFilling k).rates, meass := (s.startFilling k).meass
        notices := (s.startFilling k).notices
        tanks := vset s.tanks k (some { r with state := .filling, timer := none }) } := by
      apply State.eq_of_fields <;> simp only []
      all_goals rw [e, State.dropHold, State.modSeq_eq, told, moved]
    refine ⟨whole, fun j hj => ?_⟩
    obtain rfl := Option.some.inj (hl.symm.trans hj)
    have count : (s.moveTank k .filling).countIn l .topping = (s.startFilling k).countIn l .topping := by
      rw [whole, moved]
      rfl
    have rate : (s.startFilling k).rate l = s.formed l (throttledBy s (s.startFilling k) l) := by
      have r : (s.startFilling k).rate l = ((s.moveTank k .filling).tellDeparture l .topping).rate l := by
        rw [e]; simp [State.dropHold]
      rw [r, State.rate_of_rates (congrArg State.rates told), State.leftTopping, decide_eq_true rfl, if_pos rfl, count]
      rfl
    have own : Own l (s.moveTank k .filling) (s.startFilling k) := by
      rw [e]
      exact (State.tellDeparture_own _ l _).trans (State.dropHold_own _ l _)
    refine ⟨toldOfTopping rate ?_ fun i hi => ?_, ?_⟩
    · have m : (s.startFilling k).meas l = ((s.moveTank k .filling).tellDeparture l .topping).meas l := by
        rw [e]; simp [State.dropHold]
      have r : (s.startFilling k).rate l = ((s.moveTank k .filling).tellDeparture l .topping).rate l := by
        rw [e]; simp [State.dropHold]
      rw [m, r, State.meas_of_meass (congrArg State.meass told), State.rate_of_rates (congrArg State.rates told), if_pos rfl]
    · obtain ⟨a, b, c, d, f⟩ := own.only i hi
      rw [a, b, c, d, f, moved]
      exact ⟨rfl, rfl, rfl, rfl, rfl⟩
    · have q : ((s.moveTank k .filling).tellDeparture l .topping).seq l = s.seq l := by
        rw [State.seq_of_seqs (congrArg State.seqs told)]
        rfl
      have esd : ((s.moveTank k .filling).tellDeparture l .topping).esd = s.esd := by rw [told, moved]
      rw [e, State.dropHold_seq, if_pos rfl, q, esd]

theorem State.afterStartup_ready {s : State} (h : s.phase = .running) (name : List String) (body : State → State) :
    s.afterStartup name body = body s := by
  simp only [State.afterStartup, h]

theorem State.onTank_known {s : State} {k : TankId} {r : Tank} (h : s.tank k = some r) (name : List String)
    (body : State → TankId → Tank → State) : s.onTank name (tankNumber k) body = body s k r := by
  simp only [State.onTank, tankOf_tankNumber, h]

theorem State.onTank_unknown {s : State} {n : Nat} (h : n = 0 ∨ 16 < n ∨ ∃ k, n = tankNumber k ∧ s.tank k = none)
    (name : List String) (body : State → TankId → Tank → State) :
    s.onTank name n body = s.refuse (name ++ [numText n]) ["RANGE"] := by
  rcases h with h | h | ⟨k, rfl, h⟩
  · simp only [State.onTank, tankOf_out n (.inl h)]
  · simp only [State.onTank, tankOf_out n (.inr h)]
  · simp only [State.onTank, tankOf_tankNumber, h]

theorem State.exec_fill {s : State} (hr : Ready s) (n : Nat) (x : NumField) :
    exec (.fill n x) s = .next (s.takeFill n x) := by
  show Host.Outcome.next (s.drained.takeFill n x) = _
  rw [s.drained_ready hr]

theorem State.fillTank_stored {s : State} {k : TankId} {r : Tank} {used : Nat} (h : r.state ≠ .topping ∨ used ≤ r.fl) :
    s.fillTank k r used = s.modTankNoticed k fun r => { r with fl := used } :=
  if_neg fun g => h.elim (fun n => n g.1) fun n => by have := g.2; omega

theorem State.fillTank_raised {s : State} {k : TankId} {r : Tank} {used : Nat} (hs : r.state = .topping) (h : r.fl < used) :
    s.fillTank k r used = (((s.modTankNoticed k fun r => { r with fl := used }).startFilling k).evaluate k) :=
  if_pos ⟨hs, h⟩

/-- R81, R96, R113: a TOPPING tank whose limit is raised, before it is evaluated. -/
def State.refilled (s : State) (k : TankId) (used : Nat) : State :=
  (s.modTankNoticed k fun r => { r with fl := used }).startFilling k

theorem State.refilled_spec {s : State} {k : TankId} {r : Tank} (h : s.tank k = some r) (hs : r.state = .topping) (used : Nat) :
    s.refilled k used = { s with
        seqs := (s.refilled k used).seqs, rates := (s.refilled k used).rates, meass := (s.refilled k used).meass
        notices := (s.refilled k used).notices
        tanks := vset s.tanks k (some { r with fl := used, state := .filling, timer := none }) }
      ∧ ∀ l, r.line = some l → ToldOfTopping s (s.refilled k used) l
        ∧ (s.refilled k used).seq l =
          { s.seq l with holds := setErase .noOutlet (s.seq l).holds, pump := pumpPermit (s.seq l) s.esd.loop } := by
  have stored := State.storeFill_eq h used
  have tank : (s.modTankNoticed k fun r => { r with fl := used }).tank k = some { r with fl := used } := by simp [h]
  obtain ⟨whole, line⟩ := State.startFilling_topping tank hs
  unfold State.refilled
  generalize (s.modTankNoticed k fun r => { r with fl := used }) = v at *
  generalize v.startFilling k = b at *
  refine ⟨?_, fun l hl => ?_⟩
  · rw [stored] at whole
    refine whole.trans ?_
    apply State.eq_of_fields <;> simp only [vset_vset]
  · obtain ⟨⟨formed, only⟩, seq⟩ := line l hl
    rw [stored] at formed only seq
    exact ⟨⟨formed, only⟩, seq⟩

/-- Settles O40: the limit stored, and the tank returned to FILLING and evaluated where it rises. -/
theorem fillTaken : Obligations.FillTaken := by
  refine ⟨fun k asked s r hr h => ?_, fun n asked s hr h => ?_, fun k s hr h => ?_⟩
  · intro used words
    have run : exec (.fill (tankNumber k) (some asked)) s =
        .next ((s.fillTank k r used).take ["FILL", numText (tankNumber k)]
          ([numText used, numText (r.cap * used / 1000)] ++ clampedMark asked used)) := by
      rw [State.exec_fill hr, State.takeFill, State.afterStartup_ready hr.1, State.onTank_known h]
      rfl
    refine ⟨fun g => ?_, fun hs hu => ?_, fun hs hu => ?_⟩
    · rw [run, State.fillTank_stored g, State.storeFill_eq h]
      rfl
    all_goals
      rw [State.fillTank_raised hs hu] at run
      change exec _ s = .next (((s.refilled k used).evaluate k).take _ _) at run
      obtain ⟨whole, line⟩ := State.refilled_spec h hs used
      have judged := (s.refilled k used).evaluate_judged k
      have port : ((s.refilled k used).evaluate k).port = s.port := by rw [judged.port, whole]
      have reply : ∀ ws, replied ((s.refilled k used).evaluate k) ws = replied s ws := fun ws => by rw [replied, port]; rfl
    · have tank : (s.refilled k used).tank k = some { r with fl := used, state := .filling, timer := none } := by
        rw [whole, State.tank, vget_vset, if_pos rfl]
      obtain ⟨r', hr', fl, st⟩ := judged.tank _ tank
      refine ⟨_, r', run, hr', fl, st, fun j hj => ?_, fun l hl he => ?_, reply _, ?_, ?_, ?_⟩
      · refine (judged.others j hj).trans ?_
        rw [whole, State.tank, vget_vset, if_neg hj]
        rfl
      · have state : ((s.refilled k used).seq l).state.evaluates = false := by
          rw [(line l hl).2]
          exact he
        have same : (s.refilled k used).evaluate k = s.refilled k used := State.evaluate_eq_self tank hl state
        rw [same, tank] at hr'
        rw [← Option.some.inj hr']
      · refine judged.lineups.trans ?_
        rw [whole]
      · have base : KeepsBase s (s.refilled k used) := by
          unfold KeepsBase
          rw [whole]
          exact ⟨rfl, rfl, rfl, rfl, rfl, rfl⟩
        exact keepsBase_trans base judged.base
      · have trips : KeepsTrips s (s.refilled k used) := by
          unfold KeepsTrips
          rw [whole]
          exact ⟨rfl, rfl, rfl⟩
        exact keepsTrips_trans trips judged.trips
    · exact ⟨s.refilled k used, run.trans (by rw [State.take_eq, reply]; rfl), whole, line⟩
  · rw [State.exec_fill hr, State.takeFill, State.afterStartup_ready hr.1, State.onTank_unknown h]
    rfl
  · obtain ⟨r, h⟩ := Option.ne_none_iff_exists'.mp h
    rw [State.exec_fill hr, State.takeFill, State.afterStartup_ready hr.1, State.onTank_known h]
    rfl

end Sys2Proof.Machine
end

section
/-! SUPPORT. GAUGING (R141): target_eff formed on every line, and the exchange that the switch to LINKED begins (R135, R139). -/

namespace Sys2Proof.Machine

/-! ### target_eff formed on every line -/

theorem TargetFormed.congr {g : Gauging} {s v : State} {l : LineId} {r r' : Rate} {m : Meas} (h : TargetFormed g v l r r' m)
    (hs : (v.seq l).state = (s.seq l).state) (hm : v.meas l = s.meas l) (hr : v.store = s.store) (hc : v.clock = s.clock) :
    TargetFormed g s l r r' m := by
  unfold TargetFormed State.limits State.record State.surgeTerm at *
  rwa [hs, hm, hr, hc] at h

theorem State.formTarget_formed (s : State) (l : LineId) :
    TargetFormed s.link.gauging s l (s.rate l) ((s.formTarget l).rate l) ((s.formTarget l).meas l) := by
  have e := s.formTarget_eq l
  have rate := State.rate_of_rates (congrArg State.rates e)
  exact State.targetFormed rfl rate (by rw [State.meas_of_meass (congrArg State.meass e), rate])

theorem State.formTarget_aside (s : State) {l k : LineId} (h : l ≠ k) : Aside l s (s.formTarget k) :=
  (s.formTarget_soft k).own.aside h fun x => AlarmPresent.congr (by rw [s.formTarget_eq]) x _

theorem State.dropHold_aside (s : State) {l k : LineId} (c : HoldCause) (h : l ≠ k) : Aside l s (s.dropHold k c) :=
  (s.dropHold_own k c).aside h fun x => AlarmPresent.congr (by simp [State.dropHold]) x _

theorem State.eachLine_formTarget_eq (s : State) : s.eachLine State.formTarget = { s with
    rates := (s.eachLine State.formTarget).rates, meass := (s.eachLine State.formTarget).meass
    notices := (s.eachLine State.formTarget).notices } := by
  unfold State.eachLine
  induction allLines generalizing s with
  | nil => rfl
  | cons l ls ih =>
    rw [List.foldl_cons, ih, s.formTarget_eq l]

/-- R141: the lines as gauging becomes LINKED. -/
theorem State.eachLine_formTarget_formed (s : State) (l : LineId) :
    TargetFormed s.link.gauging s l (s.rate l) ((s.eachLine State.formTarget).rate l) ((s.eachLine State.formTarget).meas l) := by
  obtain ⟨a, before, after⟩ := s.eachLine_around (l := l) fun t k hk => t.formTarget_aside hk
  have h := a.formTarget_formed l
  rw [before.elsewhere.link, before.rate, ← after.rate, ← after.meas] at h
  exact h.congr (by rw [before.seq]) before.meas before.elsewhere.store before.elsewhere.clock

/-- R141: what the lines are told as gauging becomes MANUAL. -/
def State.manualOn (s : State) (l : LineId) : State := (s.dropHold l .link).formTarget l

theorem State.eachLine_manualOn_eq (s : State) : s.eachLine State.manualOn = { s with
    seqs := (s.eachLine State.manualOn).seqs, rates := (s.eachLine State.manualOn).rates
    meass := (s.eachLine State.manualOn).meass, notices := (s.eachLine State.manualOn).notices } := by
  unfold State.eachLine
  induction allLines generalizing s with
  | nil => rfl
  | cons l ls ih =>
    rw [List.foldl_cons, ih, State.manualOn, State.formTarget_eq, State.dropHold, State.modSeq_eq]

theorem State.eachLine_manualOn_line (s : State) (l : LineId) :
    TargetFormed s.link.gauging s l (s.rate l) ((s.eachLine State.manualOn).rate l) ((s.eachLine State.manualOn).meas l)
      ∧ (s.eachLine State.manualOn).seq l =
        { s.seq l with holds := setErase .link (s.seq l).holds, pump := pumpPermit (s.seq l) s.esd.loop } := by
  have aside : ∀ (t : State) (k : LineId), l ≠ k → Aside l t (t.manualOn k) := fun t k hk =>
    (t.dropHold_aside .link hk).trans (State.formTarget_aside _ hk)
  obtain ⟨a, before, after⟩ := s.eachLine_around aside
  have seq : (a.dropHold l .link).seq l =
      { s.seq l with holds := setErase .link (s.seq l).holds, pump := pumpPermit (s.seq l) s.esd.loop } := by
    rw [State.dropHold_seq, if_pos rfl, before.seq, before.elsewhere.esd]
  have h := (a.dropHold l .link).formTarget_formed l
  have link : (a.dropHold l .link).link = s.link := by simp [State.dropHold, before.elsewhere.link]
  have rate : (a.dropHold l .link).rate l = s.rate l := by simp [State.dropHold, before.rate]
  rw [link, rate] at h
  refine ⟨?_, ?_⟩
  · rw [after.rate, after.meas]
    exact h.congr (by rw [seq]) (by simp [State.dropHold, before.meas]) (by simp [State.dropHold, before.elsewhere.store])
      (by simp [State.dropHold, before.elsewhere.clock])
  · rw [after.seq, State.manualOn, (State.formTarget_soft _ l).seq, seq]

/-! ### The exchange chosen (R135, R139) -/

theorem State.isWatched_eq (s : State) : s.isWatched = watchedTank s := by
  funext k
  unfold State.isWatched watchedTank
  cases s.tankState k with
  | none => simp
  | some st => cases st <;> decide

theorem State.nearStop_eq (s : State) (k : TankId) : (s.tankState k).any TankState.nearStop = nearStopTank s k := by
  unfold nearStopTank
  cases s.tankState k with
  | none => simp
  | some st => cases st <;> decide

theorem pickTank_eq_none {watched : TankId → Bool} {polls : Nat} {poll : List TankId} (h : pickTank watched polls poll = none) :
    poll = [] := by
  cases poll with
  | nil => rfl
  | cons k ks =>
    unfold pickTank at h
    by_cases w : watched k = true
    · rw [List.find?_cons_of_pos w] at h
      split at h
      · split at h <;> cases h
      · cases h
      · next e => cases e
    · have u : (!watched k) = true := by simpa using w
      rw [List.find?_cons_of_pos (p := fun t => !watched t) u] at h
      split at h
      · split at h <;> cases h
      · cases h
      · cases h

/-- R139: the tank picked, and the queue that its query leaves. -/
theorem State.pollTank_picked (s : State) {k : TankId} (h : pickTank s.isWatched s.link.polls s.link.poll = some k) :
    ∃ poll polls, PollPicked (watchedTank s) (nearStopTank s) s.link.poll s.link.polls k poll polls
      ∧ (s.pollTank k).link = { s.link with
          exchange := some { query := .level k, refresh := false, window := s.settings.window, part := none }
          poll := poll, polls := polls } := by
  have first := pickTank_eq_some h
  rw [s.isWatched_eq] at first
  unfold State.pollTank State.sendQuery PollPicked
  simp only [s.isWatched_eq, s.nearStop_eq]
  by_cases w : watchedTank s k = true
  · refine ⟨if nearStopTank s k = true then insertBehind (watchedTank s) k (setErase k s.link.poll)
      else setErase k s.link.poll ++ [k], min 8 (s.link.polls + 1), ⟨first, ?_⟩, by simp [w]⟩
    rw [if_pos w]
    refine ⟨rfl, ?_⟩
    split
    · exact insertBehind_eq _ _ _
    · rfl
  · refine ⟨setErase k s.link.poll ++ [k], 0, ⟨first, ?_⟩, by simp [w]⟩
    rw [if_neg w]
    exact ⟨rfl, rfl⟩

theorem nextTelegram_eq (h : Option Header) (n : Nat) : nextTelegram h n = if h = none then .header else .entry n := by
  cases h <;> rfl

/-- R134, R135 orders 3 to 6. -/
theorem State.choosePoll_chosen (s : State) (ha : s.link.advices = []) (hq : s.link.queries = []) :
    ExchangeChosen (watchedTank s) (nearStopTank s) s.settings.window s.link s.choosePoll.link
      ∧ s.choosePoll.link.exchange.isSome = true := by
  unfold ExchangeChosen State.choosePoll
  simp only [ha, hq]
  cases hr : s.link.refresh with
  | none =>
    cases hp : pickTank s.isWatched s.link.polls s.link.poll with
    | none =>
      have empty := pickTank_eq_none hp
      exact ⟨⟨fun q e => (by cases e), fun _ ne => absurd empty ne, fun _ _ => by simp [State.sendQuery, ha, hq, hr]⟩, rfl⟩
    | some k =>
      obtain ⟨poll, polls, picked, link⟩ := s.pollTank_picked hp
      have ne : s.link.poll ≠ [] := fun e => by rw [e] at hp; cases hp
      exact ⟨⟨fun q e => (by cases e), fun _ _ => ⟨k, poll, polls, picked, by simp only [link, ha, hq, hr]⟩, fun _ e => absurd e ne⟩, by simp [link]⟩
  | some p =>
    have sent : (s.sendQuery (nextTelegram p.header p.next) true).link = { s.link with
        exchange := some { query := if p.header = none then .header else .entry p.next, refresh := true,
                           window := s.settings.window, part := none } } := by
      rw [← nextTelegram_eq]; rfl
    cases hp : pickTank s.isWatched s.link.polls s.link.poll with
    | none =>
      have empty := pickTank_eq_none hp
      refine ⟨⟨fun q e _ => ?_, fun _ ne => absurd empty ne, fun e => (by cases e)⟩, rfl⟩
      obtain rfl := Option.some.inj e
      simp only [sent, ha, hq, hr]
    | some k =>
      obtain ⟨poll, polls, picked, link⟩ := s.pollTank_picked hp
      have ne : s.link.poll ≠ [] := fun e => by rw [e] at hp; cases hp
      by_cases sp : s.link.spacing = 15
      · simp only [if_pos sp]
        refine ⟨⟨fun q e _ => ?_, fun g => absurd sp (g.resolve_left fun e => by cases e), fun e => (by cases e)⟩, rfl⟩
        obtain rfl := Option.some.inj e
        simp only [sent, ha, hq, hr]
      · simp only [if_neg sp]
        exact ⟨⟨fun q _ g => absurd (g.resolve_left sp) ne, fun _ _ => ⟨k, poll, polls, picked, by simp only [link, ha, hq, hr]⟩, fun e => (by cases e)⟩,
          by simp [link]⟩

/-- R135: the choice of the next exchange in LINKED gauging. -/
theorem State.chooseLinked_chosen (s : State) :
    ExchangeChosen (watchedTank s) (nearStopTank s) s.settings.window s.link s.chooseLinked.link
      ∧ s.chooseLinked.link.exchange.isSome = true := by
  unfold State.chooseLinked
  cases ha : s.link.advices with
  | cons a rest =>
    refine ⟨?_, rfl⟩
    unfold ExchangeChosen
    simp only [ha]
    rfl
  | nil =>
    cases hq : s.link.queries with
    | cons l rest =>
      refine ⟨?_, rfl⟩
      unfold ExchangeChosen
      simp [State.sendQuery, ha, hq]
    | nil => exact s.choosePoll_chosen ha hq

theorem State.chooseLinked_eq (s : State) : s.chooseLinked = { s with link := s.chooseLinked.link } := by
  have poll : s.choosePoll = { s with link := s.choosePoll.link } := by
    unfold State.choosePoll State.pollTank State.sendQuery
    split
    · split <;> rfl
    · rfl
    · rfl
    · rfl
  unfold State.chooseLinked
  split
  · rfl
  · rfl
  · exact poll

theorem State.chooseLinked_kept (s : State) :
    s.chooseLinked.link.gauging = s.link.gauging ∧ s.chooseLinked.link.state = s.link.state := by
  have polled : ∀ k, (s.pollTank k).link.gauging = s.link.gauging ∧ (s.pollTank k).link.state = s.link.state := fun k => by
    unfold State.pollTank State.sendQuery
    simp only [State.modLink_link]
    split <;> exact ⟨rfl, rfl⟩
  have poll : s.choosePoll.link.gauging = s.link.gauging ∧ s.choosePoll.link.state = s.link.state := by
    unfold State.choosePoll
    split
    · split
      · exact ⟨rfl, rfl⟩
      · exact polled _
    · exact ⟨rfl, rfl⟩
    · exact polled _
    · exact ⟨rfl, rfl⟩
  unfold State.chooseLinked
  split
  · exact ⟨rfl, rfl⟩
  · exact ⟨rfl, rfl⟩
  · exact poll

theorem State.chooseNext_busy {s : State} {x : Exchange} (h : s.link.exchange = some x) : s.chooseNext = s := by
  simp only [State.chooseNext, h]

theorem State.chooseNext_linked {s : State} (h : s.link.exchange = none) (hs : s.link.state ∈ [LinkState.good, .poor])
    (hg : s.link.gauging = .linked) : s.chooseNext = s.chooseLinked := by
  simp only [List.mem_cons, List.not_mem_nil, or_false] at hs
  rcases hs with e | e <;> simp only [State.chooseNext, h, e, hg, if_true]

/-! ### GAUGING (R141) -/

theorem linkState_carries_iff (k : LinkState) : k.carries = true ↔ k ∈ [LinkState.good, .poor] := by cases k <;> decide

/-- R141: gauging MANUAL, before the lines are told. -/
def State.manualLink (s : State) : State :=
  (s.modLinkNoticed fun k => { k with gauging := .manual, advices := [], refresh := none }).dropQueries

theorem State.manualLink_eq (s : State) : s.manualLink = { s with
    link := { s.link with gauging := .manual, advices := [], refresh := none, queries := [],
                          outcomes := s.manualLink.link.outcomes }
    notices := s.manualLink.notices } := by
  unfold State.manualLink State.dropQueries
  rw [(foldl_setOutcome _ _ _).1]
  apply State.eq_of_fields <;> simp

theorem State.manualLink_outcomes (s : State) : ∀ l ∈ s.link.queries, vget s.manualLink.link.outcomes l = some .noReply := by
  have h := (foldl_setOutcome .noReply s.link.queries ((s.modLinkNoticed fun k =>
    { k with gauging := .manual, advices := [], refresh := none }).modLink fun k => { k with queries := [] })).2.1
  unfold State.manualLink State.dropQueries
  simpa using h

/-- R64: target_eff as a line's mode of gauging forms it. -/
theorem TargetFormed.eff {g : Gauging} {s : State} {l : LineId} {r r' : Rate} {m : Meas} (h : TargetFormed g s l r r' m)
    (hs : (s.seq l).state ∈ [LineState.opening, .delivering, .holding, .held, .finishing]) {lim : Limits}
    (hl : s.limits l = some lim) : r'.eff = (leastTerm (targetTerms r lim (s.surgeTerm l) g)).map (·.1) := by
  rw [(h.2 hs lim hl).1]

/-- R141: gauging LINKED with the lines told, before an exchange is begun. -/
def State.linkedLines (s : State) : State := (s.modLinkNoticed fun k => { k with gauging := .linked }).eachLine State.formTarget

theorem State.linkedLines_eq (s : State) : s.linkedLines = { s with
    rates := s.linkedLines.rates, meass := s.linkedLines.meass, link := { s.link with gauging := .linked }
    notices := s.linkedLines.notices } := by
  unfold State.linkedLines
  rw [State.eachLine_formTarget_eq]
  apply State.eq_of_fields <;> simp

theorem State.linkedLines_formed (s : State) (l : LineId) :
    TargetFormed .linked s l (s.rate l) (s.linkedLines.rate l) (s.linkedLines.meas l) := by
  have h := (s.modLinkNoticed fun k => { k with gauging := .linked }).eachLine_formTarget_formed l
  rw [State.modLinkNoticed_link, State.modLinkNoticed_rate] at h
  exact h.congr (by simp) (by simp) (by simp) (by simp)

/-- R141, R135: the switch to LINKED, with an exchange in flight and without one. -/
theorem State.toLinked_spec (s : State) (hs : s.link.state ∈ [LinkState.good, .poor]) :
    (s.toLinked.link.gauging = .linked ∧ s.toLinked.link.state = s.link.state ∧ s.toLinked.link.exchange.isSome = true)
      ∧ (∀ x, s.link.exchange = some x → s.toLinked.link = { s.link with gauging := .linked })
      ∧ (s.link.exchange = none → ExchangeChosen (watchedTank s) (nearStopTank s) s.settings.window
          { s.link with gauging := .linked } s.toLinked.link)
      ∧ s.toLinked = { s.linkedLines with link := s.toLinked.link } := by
  have e : s.toLinked = s.linkedLines.chooseNext := rfl
  have w := s.linkedLines_eq
  rw [e]
  generalize s.linkedLines = v at w ⊢
  have link : v.link = { s.link with gauging := .linked } := by rw [w]
  cases hx : s.link.exchange with
  | some x =>
    have busy : v.chooseNext = v := State.chooseNext_busy (x := x) (by rw [link]; exact hx)
    rw [busy, link]
    refine ⟨⟨rfl, rfl, by rw [hx]; rfl⟩, fun _ _ => rfl, fun h => (by cases h), ?_⟩
    rw [← link]
  | none =>
    have free : v.chooseNext = v.chooseLinked := State.chooseNext_linked (by rw [link]; exact hx) (by rw [link]; exact hs)
      (by rw [link])
    obtain ⟨chosen, sent⟩ := v.chooseLinked_chosen
    rw [free]
    refine ⟨⟨?_, ?_, sent⟩, fun _ h => (by cases h), fun _ => ?_, v.chooseLinked_eq⟩
    · rw [v.chooseLinked_kept.1, link]
    · rw [v.chooseLinked_kept.2, link]
    · rw [link] at chosen
      rw [w] at chosen ⊢
      exact chosen

/-- Settles O45: the two switches line by line, and the exchange that LINKED begins. -/
theorem gaugingTaken : Obligations.GaugingTaken := by
  have manual : ∀ s : State, Ready s → exec .gaugingManual s =
      .next ((if s.link.gauging = .linked then s.toManual else s).take ["GAUGING"] ["MANUAL"]) := fun s hr => by
    show Host.Outcome.next s.drained.takeGaugingManual = _
    rw [s.drained_ready hr, State.takeGaugingManual, State.afterStartup_ready hr.1]
  have linked : ∀ s : State, Ready s → exec .gaugingLinked s = .next (if s.link.state.carries then
      (if s.link.gauging = .manual then s.toLinked else s).take ["GAUGING"] ["LINKED"]
      else s.refuse ["GAUGING"] ["LINK", s.link.state.text]) := fun s hr => by
    show Host.Outcome.next s.drained.takeGaugingLinked = _
    rw [s.drained_ready hr, State.takeGaugingLinked, State.afterStartup_ready hr.1]
  refine ⟨fun s hr hg => ?_, fun s hr hg => ?_, fun s hr hs hg => ?_, fun s hr hs hg => ?_, fun s hr hs => ?_⟩
  · have run := manual s hr
    have e : s.toManual = s.manualLink.eachLine State.manualOn := rfl
    rw [if_pos hg, e] at run
    have m := s.manualLink_eq
    have lines := s.manualLink.eachLine_manualOn_line
    have whole := s.manualLink.eachLine_manualOn_eq
    have outcomes := s.manualLink_outcomes
    generalize s.manualLink.eachLine State.manualOn = t at *
    generalize s.manualLink = v at *
    have link : t.link = v.link := by rw [whole]
    have formed : ∀ l, TargetFormed .manual s l (s.rate l) (t.rate l) (t.meas l) := fun l => by
      have h := (lines l).1
      rw [m] at h
      exact h.congr rfl rfl rfl rfl
    refine ⟨_, run, ?_, ?_, ?_, ?_, fun l hl => ?_, ?_, ?_, ?_, fun l => ?_, fun l hl lim hlim => (formed l).eff hl hlim, formed, ?_⟩
    · show t.link.gauging = _; rw [link, m]
    · show t.link.advices = _; rw [link, m]
    · show t.link.queries = _; rw [link, m]
    · show t.link.refresh = _; rw [link, m]
    · show vget t.link.outcomes l = _; rw [link]; exact outcomes l hl
    · show t.link.state = _; rw [link, m]
    · show t.link.exchange = _; rw [link, m]
    · show t.link.poll = _; rw [link, m]
    · have h := (lines l).2
      rw [m] at h
      exact h
    · rw [m] at whole
      apply State.eq_of_fields <;> simp only [State.take_eq]
      all_goals rw [whole]
      rfl
  · rw [manual s hr, if_neg (by rw [hg]; decide)]
    rfl
  · have run := linked s hr
    rw [if_pos ((linkState_carries_iff _).mpr hs), if_pos hg] at run
    obtain ⟨⟨gauging, state, sent⟩, busy, chosen, whole⟩ := s.toLinked_spec hs
    have lines := s.linkedLines_formed
    have all := s.linkedLines_eq
    generalize s.linkedLines = v at lines all whole
    have formed : ∀ l, TargetFormed .linked s l (s.rate l) (s.toLinked.rate l) (s.toLinked.meas l) := fun l => by
      rw [whole]
      exact lines l
    generalize s.toLinked = t at *
    refine ⟨_, run, gauging, state, sent, busy, chosen, fun l hl lim hlim => (formed l).eff hl hlim, formed, ?_⟩
    apply State.eq_of_fields <;> simp only [State.take_eq]
    all_goals rw [whole, all]
    rfl
  · rw [linked s hr, if_pos ((linkState_carries_iff _).mpr hs), if_neg (by rw [hg]; decide)]
    rfl
  · rw [linked s hr, if_neg (mt (linkState_carries_iff _).mp hs)]
    rfl

end Sys2Proof.Machine
end

section
/-! SUPPORT. The resets (R173, R183): every block at its reset values, and the store as it is read (R176, R177, R181). -/

namespace Sys2Proof.Machine

/-! ### What every reset sets -/

/-- R146, R183: a reset, whole. -/
theorem State.resetBlocks_far (s : State) : s.resetBlocks.farAtReset = { s.resetBlocks with
    device := if s.esd.far = .opened then [.esdIn] else []
    alarms := if s.esd.far = .opened then
      [{ kind := .esdIn, object := .loop, acked := false, present := true, time := 0 }] else []
    horn := decide (s.esd.far = .opened)
    notices := if s.esd.far = .opened then [Notice.trip, .alarm .esdIn .loop].filter fun n => n.allowed s.port.mask else [] } := by
  unfold State.farAtReset
  have far : s.resetBlocks.esd.far = s.esd.far := rfl
  rw [far]
  by_cases h : s.esd.far = .opened
  · have joined : s.resetBlocks.joinDevice .esdIn =
        { s.resetBlocks with device := [.esdIn], notices := noticesWith s.resetBlocks .trip } := by
      have fresh : DeviceTrip.esdIn ∉ s.resetBlocks.device := List.not_mem_nil
      rw [State.joinDevice, if_neg fresh, State.notify_eq]
      rfl
    have raised : ∀ t : State, t.alarms = [] → t.raiseAlarm .esdIn .loop = { t with
        alarms := [{ kind := .esdIn, object := .loop, acked := false, present := true, time := t.clock }], horn := true
        notices := noticesWith t (.alarm .esdIn .loop) } := fun t ht => by
      simp only [State.raiseAlarm, ht, List.find?_nil, State.notify_eq, State.setAlarms, List.nil_append]
      rfl
    rw [if_pos h, joined, raised _ rfl]
    simp only [h, if_true, decide_true]
    apply State.eq_of_fields <;> simp only []
    · rfl
    · by_cases a : Notice.trip.allowed s.port.mask = true <;>
        by_cases b : (Notice.alarm .esdIn .loop).allowed s.port.mask = true <;>
          simp [noticesWith, State.resetBlocks, a, b]
  · simp only [h, if_false, decide_false]
    rfl

/-! ### The store as it is read -/

theorem Store.afterReset_records (x : Store) (l : LineId) : vget x.afterReset.records l =
    LineRecord.reread (if ∃ w, x.write = some w ∧ w.line = l then { fields := none, crc := 0, status := .blank }
      else vget x.records l) := by
  unfold Store.afterReset Store.cutShort
  cases h : x.write with
  | none => simp
  | some w => by_cases e : w.line = l <;> simp [vget_vset, e, eq_comm]

/-- R176: the limits of a line whose record has been read. -/
theorem State.limits_of_reread {t : State} {l : LineId} {r : LineRecord} (h : t.record l = r.reread) :
    t.limits l = if r.checks = true then r.fields else none := by
  unfold State.limits
  rw [h, LineRecord.reread]
  by_cases c : r.checks = true <;> simp [c]

theorem LineState.busy_iff (st : LineState) :
    st.busy = true ↔ st ∈ [LineState.stroking, .opening, .delivering, .holding, .finishing] := by
  cases st <;> decide

/-- R173: RESTART with no line moving and no write in flight. -/
theorem State.exec_restart {s : State} (hr : Ready s)
    (hs : ∀ l, (s.seq l).state ∉ [LineState.stroking, .opening, .delivering, .holding, .finishing]) (hw : s.store.write = none) :
    exec .restart s = .next s.restart := by
  have still : (allLines.find? fun l => (s.seq l).state.busy) = none :=
    List.find?_eq_none.mpr fun l _ => mt (LineState.busy_iff _).mp (hs l)
  show Host.Outcome.next s.drained.takeRestart = _
  rw [s.drained_ready hr, State.takeRestart, State.afterStartup_ready hr.1]
  simp only [still, hw]

/-- Settles O59: `State.resetBlocks_far` from the state that each reset prepares. -/
theorem resetsTaken : Obligations.ResetsTaken := by
  unfold Obligations.ResetsTaken
  intro blocks
  have all : ∀ s : State, blocks s.resetBlocks.farAtReset := fun s => by
    rw [s.resetBlocks_far]
    exact ⟨rfl, rfl, rfl, fun l => vget_replicate _ l, fun l => vget_replicate _ l, fun l => vget_replicate _ l,
      fun l => vget_map resetMeas s.store.records l, fun l => vget_replicate _ l, fun k => vget_replicate _ k,
      rfl, rfl, rfl, rfl, rfl, rfl, rfl, rfl, rfl, rfl⟩
  refine ⟨fun s lp far => ?_, fun s hr hs hw => ?_⟩
  · have store : (s.hardReset lp far).store = s.store.afterReset := by
      unfold State.hardReset
      rw [State.resetBlocks_far]
      rfl
    have limits : ∀ l (r : LineRecord), vget s.store.afterReset.records l = r.reread →
        (s.hardReset lp far).limits l = if r.checks = true then r.fields else none := fun l r h =>
      State.limits_of_reread (by rw [State.record, store]; exact h)
    have written : s.store.afterReset.write = none ∧ s.store.afterReset.storedLock = s.store.storedLock := by
      unfold Store.afterReset Store.cutShort
      cases h : s.store.write with
      | none => exact ⟨h, rfl⟩
      | some w => exact ⟨rfl, rfl⟩
    refine ⟨s.hardReset lp far, rfl, rfl, all _, ?_, ?_, store ▸ written.1, ?_, ?_, ?_, store ▸ written.2, ?_,
      fun w hw => ?_, fun l hl => ?_⟩
    · unfold State.hardReset; rw [State.resetBlocks_far]; rfl
    · unfold State.hardReset; rw [State.resetBlocks_far]; rfl
    · unfold State.hardReset; rw [State.resetBlocks_far]; rfl
    · unfold State.hardReset; rw [State.resetBlocks_far]; rfl
    · unfold State.hardReset; rw [State.resetBlocks_far]; rfl
    · rw [store]
      show readLock s.store.cutShort.storedLock = _
      have kept : s.store.cutShort.storedLock = s.store.storedLock := written.2
      rw [kept]
      rfl
    · have cut := s.store.afterReset_records w.line
      rw [if_pos ⟨w, hw, rfl⟩] at cut
      exact (limits _ _ cut).trans rfl
    · have kept := s.store.afterReset_records l
      rw [if_neg fun ⟨w, hw, e⟩ => by simp [State.writing, hw, e] at hl] at kept
      exact limits _ _ kept
  · refine ⟨s.restart, State.exec_restart hr hs hw, all _, ?_⟩
    unfold State.restart
    rw [State.resetBlocks_far]
    exact ⟨rfl, rfl, rfl, rfl, rfl, rfl⟩

end Sys2Proof.Machine
end

section
/-! SUPPORT. What time brings (R93, R179, R182): each judgement at a ds, the ds as a whole, and the passing of time. -/

namespace Sys2Proof.Machine

/-! ### What the passing of time never touches -/

/-- A ds leaves the lines' sequences, drives and lineups, the link, the trips, the settings and the port as they are, and
takes no notice out of the pending set. -/
structure TimeKeeps (s t : State) : Prop where
  pending : t.pending = s.pending
  key : t.key = s.key
  settings : t.settings = s.settings
  seqs : t.seqs = s.seqs
  drives : t.drives = s.drives
  lineups : t.lineups = s.lineups
  link : t.link = s.link
  device : t.device = s.device
  overfills : t.overfills = s.overfills
  port : t.port = s.port
  linkResult : t.linkResult = s.linkResult
  notices : s.notices ⊆ t.notices

theorem TimeKeeps.refl (s : State) : TimeKeeps s s :=
  ⟨rfl, rfl, rfl, rfl, rfl, rfl, rfl, rfl, rfl, rfl, rfl, List.Subset.refl _⟩

theorem TimeKeeps.trans {s t u : State} (a : TimeKeeps s t) (b : TimeKeeps t u) : TimeKeeps s u :=
  ⟨b.pending.trans a.pending, b.key.trans a.key, b.settings.trans a.settings, b.seqs.trans a.seqs, b.drives.trans a.drives,
    b.lineups.trans a.lineups, b.link.trans a.link, b.device.trans a.device, b.overfills.trans a.overfills,
    b.port.trans a.port, b.linkResult.trans a.linkResult, List.Subset.trans a.notices b.notices⟩

/-! ### The end of start-up -/

theorem State.judgeStartup_of_none {s : State} (h : NoStartupEnd s s.clock) : s.judgeStartup = s := by
  unfold State.judgeStartup
  cases e : s.phase
  · rw [if_neg]
    rcases h with h | h
    · rw [e] at h; cases h
    · exact Nat.not_le.mpr h
  · rfl

theorem State.judgeStartup_of_due {s : State} (h : s.phase = .starting) (due : 20 ≤ s.clock) :
    s.judgeStartup = s.endStartup := by
  unfold State.judgeStartup; rw [h]; exact if_pos due

/-- R144, R182: the end of start-up, whole. -/
theorem State.endStartup_eq (s : State) : s.endStartup = { s with
    phase := .running, esd := { s.esd with contact := .closed }, notices := s.endStartup.notices } := by
  apply State.eq_of_fields <;> simp [State.endStartup]

theorem State.endStartup_subset (s : State) : s.notices ⊆ s.endStartup.notices :=
  List.Subset.trans (s.setContact_subset .closed)
    (State.notify_subset { s.setContact .closed with phase := .running } .ready)

theorem State.endStartup_ready (s : State) : Notice.ready ∈ s.endStartup.notices := State.mem_notify _ _ rfl

/-- The end of start-up touches the phase and the contact. -/
theorem State.judgeStartup_eq (s : State) : s.judgeStartup = { s with
    phase := s.judgeStartup.phase, esd := s.judgeStartup.esd, notices := s.judgeStartup.notices } := by
  unfold State.judgeStartup
  split
  · split
    · rw [State.endStartup_eq]
    · rfl
  · rfl

theorem State.judgeStartup_keeps (s : State) : TimeKeeps s s.judgeStartup := by
  unfold State.judgeStartup
  split
  · split
    · refine ⟨?_, ?_, ?_, ?_, ?_, ?_, ?_, ?_, ?_, ?_, ?_, s.endStartup_subset⟩ <;> simp [State.endStartup]
    · exact .refl s
  · exact .refl s

/-! ### The end of a write -/

/-- R7, R180: the measurement state of the written line once its write has ended. -/
def State.foldedMeas (s : State) (w : Write) : Meas :=
  if (s.limits w.line).any (fun old => old.f ≠ w.record.f) then
    { s.meas w.line with dBase := s.delivered w.line, pTot := 0 }
  else s.meas w.line

/-- R7, R75, R180: what the end of a write has made of the store, the rates and the measurements. -/
structure WriteEnded (s t : State) (w : Write) : Prop where
  store : t.store =
    { s.store with records := vset s.store.records w.line (soundRecord w.record), write := none }
  rates : t.rates = vset s.rates w.line { s.rate w.line with target := min (s.rate w.line).target w.record.qMax }
  meass : t.meass = vset s.meass w.line (s.foldedMeas w)
  told : NoticeKind.done ∈ s.port.mask → Notice.doneLimits w.line ∈ t.notices

theorem State.meas_unchanged (s : State) (l : LineId) : { s with meass := vset s.meass l (s.meas l) } = s := by
  rw [State.meas, vset_vget]

theorem State.rate_unchanged (s : State) (l : LineId) : { s with rates := vset s.rates l (s.rate l) } = s := by
  rw [State.rate, vset_vget]

theorem State.foldTotal_eq (s : State) (w : Write) :
    s.foldTotal w.line w.record.f = { s with meass := vset s.meass w.line (s.foldedMeas w) } := by
  unfold State.foldTotal State.foldedMeas
  cases s.limits w.line with
  | none => exact (s.meas_unchanged w.line).symm
  | some old =>
    by_cases h : old.f = w.record.f
    · simpa [h] using (s.meas_unchanged w.line).symm
    · simp only [h, Option.any_some, ne_eq, not_false_eq_true, decide_true, if_true, if_false]
      rfl

/-- R75: the console target after the end of a write. -/
theorem State.lowerTarget_eq (s : State) (l : LineId) (qMax : Nat) : s.lowerTarget l qMax = { s with
    rates := vset s.rates l { s.rate l with target := min (s.rate l).target qMax }
    notices := (s.lowerTarget l qMax).notices } := by
  unfold State.lowerTarget
  split
  next h => apply State.eq_of_fields <;> simp [Nat.min_eq_right (Nat.le_of_lt h)]
  next h =>
    rw [Nat.min_eq_left (Nat.not_lt.mp h)]
    exact (s.rate_unchanged l).symm

theorem State.lowerTarget_subset (s : State) (l : LineId) (qMax : Nat) : s.notices ⊆ (s.lowerTarget l qMax).notices := by
  unfold State.lowerTarget
  split
  · exact State.notify_subset (s.modRate l _) _
  · exact List.Subset.refl _

/-- R7, R180: the state with the new record in force, before the target and the notices. -/
def State.writeStored (s : State) (w : Write) : State := { s with
  store := { s.store with records := vset s.store.records w.line (soundRecord w.record), write := none }
  meass := vset s.meass w.line (s.foldedMeas w) }

theorem State.endWrite_stored (s : State) (w : Write) :
    s.endWrite w = ((s.writeStored w).lowerTarget w.line w.record.qMax).notify (.doneLimits w.line) := by
  unfold State.endWrite
  rw [State.foldTotal_eq]
  rfl

/-- R180: the end of a write, whole. -/
theorem State.endWrite_eq (s : State) (w : Write) : s.endWrite w = { s with
    store := { s.store with records := vset s.store.records w.line (soundRecord w.record), write := none }
    rates := vset s.rates w.line { s.rate w.line with target := min (s.rate w.line).target w.record.qMax }
    meass := vset s.meass w.line (s.foldedMeas w)
    notices := (s.endWrite w).notices } := by
  rw [State.endWrite_stored, State.lowerTarget_eq]
  apply State.eq_of_fields <;> simp [State.rate, State.writeStored]

theorem State.endWrite_subset (s : State) (w : Write) : s.notices ⊆ (s.endWrite w).notices := by
  have lowered := (s.writeStored w).lowerTarget_subset w.line w.record.qMax
  rw [State.endWrite_stored]
  exact List.Subset.trans lowered (State.notify_subset _ _)

theorem State.endWrite_writeEnded (s : State) (w : Write) : WriteEnded s (s.endWrite w) w := by
  refine ⟨?_, ?_, ?_, fun hm => ?_⟩
  · rw [State.endWrite_eq]
  · rw [State.endWrite_eq]
  · rw [State.endWrite_eq]
  · rw [State.endWrite_stored, State.lowerTarget_eq]
    exact State.mem_notify _ _ (decide_eq_true hm)

theorem State.judgeWrite_of_none {s : State} (h : NoWriteEnd s s.clock) : s.judgeWrite = s := by
  unfold State.judgeWrite
  cases e : s.store.write with
  | none => rfl
  | some w => exact if_neg (Nat.not_le.mpr (h w e))

theorem State.judgeWrite_of_due {s : State} {w : Write} (h : s.store.write = some w) (due : w.since + 4 ≤ s.clock) :
    s.judgeWrite = s.endWrite w := by
  unfold State.judgeWrite; rw [h]; exact if_pos due

/-- The end of a write touches the store, the rates and the measurements. -/
theorem State.judgeWrite_eq (s : State) : s.judgeWrite = { s with
    store := s.judgeWrite.store, rates := s.judgeWrite.rates, meass := s.judgeWrite.meass
    notices := s.judgeWrite.notices } := by
  unfold State.judgeWrite
  split
  · split
    · rw [State.endWrite_eq]
    · rfl
  · rfl

theorem State.judgeWrite_keeps (s : State) : TimeKeeps s s.judgeWrite := by
  unfold State.judgeWrite
  split
  · split
    next w _ _ =>
      refine ⟨?_, ?_, ?_, ?_, ?_, ?_, ?_, ?_, ?_, ?_, ?_, s.endWrite_subset w⟩ <;> rw [State.endWrite_eq]
    · exact .refl s
  · exact .refl s

/-! ### Change-over timers -/

/-- R93: a running timer whose run has reached the timeout stops at its run. -/
def ChangeTimer.judged (changeover now : Nat) (c : ChangeTimer) : ChangeTimer :=
  if c.expired = none ∧ changeover ≤ now - c.since then { c with expired := some (now - c.since) } else c

/-- R93: a tank's record after its timer has been judged. -/
def Tank.timed (changeover now : Nat) (r : Tank) : Tank := { r with timer := r.timer.map (ChangeTimer.judged changeover now) }

theorem State.runningTimer_some (s : State) (k : TankId) (c : ChangeTimer) :
    s.runningTimer k = some c ↔ ∃ r, s.tank k = some r ∧ r.timer = some c ∧ c.expired = none := by
  simp only [State.runningTimer, Option.filter_eq_some_iff, Option.bind_eq_some_iff, Option.isNone_iff_eq_none, and_assoc,
    ← exists_and_right]

/-- R93: a timer that is not due is left alone. -/
theorem State.judgeChange_of_none {s : State} {k : TankId} (h : NoTimerEnd s s.clock k) : s.judgeChange k = s := by
  unfold State.judgeChange
  cases e : (s.tank k).bind (·.timer) with
  | none => rfl
  | some c =>
    unfold State.expireChange
    rw [e]
    cases x : c.expired with
    | some n => simp [x]
    | none =>
      have running : s.runningTimer k = some c := by rw [State.runningTimer, e]; simp [x]
      exact if_neg (Nat.not_le.mpr (h c running))

/-- R93: a timer that is due expires, with its alarm. -/
theorem State.judgeChange_of_due {s : State} {k : TankId} {c : ChangeTimer} (h : s.runningTimer k = some c)
    (due : s.settings.changeover ≤ c.run s.clock) :
    s.judgeChange k = ((s.modTank k fun r => { r with timer := some { c with expired := some (s.clock - c.since) } }).notify
      (.tank k)).raiseAlarm .changeoverLate (.tank k) := by
  obtain ⟨r, hr, ht, x⟩ := (s.runningTimer_some k c).mp h
  have e : (s.tank k).bind (·.timer) = some c := by rw [hr]; exact ht
  unfold State.judgeChange State.expireChange
  rw [e]
  simp [due, x]

/-- The judgement of a timer touches the tanks and the alarms. -/
theorem State.judgeChange_eq (s : State) (k : TankId) : s.judgeChange k = { s with
    tanks := (s.judgeChange k).tanks, alarms := (s.judgeChange k).alarms, horn := (s.judgeChange k).horn
    notices := (s.judgeChange k).notices } := by
  by_cases h : NoTimerEnd s s.clock k
  · rw [State.judgeChange_of_none h]
  · obtain ⟨c, running, due⟩ := not_forall₂.mp h
    rw [State.judgeChange_of_due running (Nat.not_lt.mp due)]
    apply State.eq_of_fields <;> simp

theorem State.judgeChange_subset (s : State) (k : TankId) : s.notices ⊆ (s.judgeChange k).notices := by
  by_cases h : NoTimerEnd s s.clock k
  · rw [State.judgeChange_of_none h]; exact List.Subset.refl _
  · obtain ⟨c, running, due⟩ := not_forall₂.mp h
    rw [State.judgeChange_of_due running (Nat.not_lt.mp due)]
    refine List.Subset.trans ?_ (subset_of_noticesWith (State.raiseAlarm_eq_notify _ _ _))
    refine List.Subset.trans ?_ (State.notify_subset _ _)
    rw [State.modTank_notices]
    exact List.Subset.refl _

theorem State.judgeChange_keeps (s : State) (k : TankId) : TimeKeeps s (s.judgeChange k) := by
  refine ⟨?_, ?_, ?_, ?_, ?_, ?_, ?_, ?_, ?_, ?_, ?_, s.judgeChange_subset k⟩ <;> rw [State.judgeChange_eq]

theorem ChangeTimer.judged_of_none {changeover now : Nat} {c : ChangeTimer}
    (h : c.expired = none → now - c.since < changeover) : c.judged changeover now = c :=
  if_neg fun ⟨x, due⟩ => Nat.not_le.mpr (h x) due

/-- R93: what the judgement of a timer makes of the tanks. -/
theorem State.judgeChange_tank (s : State) (k j : TankId) : (s.judgeChange k).tank j =
    if j = k then (s.tank k).map (Tank.timed s.settings.changeover s.clock) else s.tank j := by
  by_cases h : NoTimerEnd s s.clock k
  · rw [State.judgeChange_of_none h]
    by_cases hj : j = k
    · rw [if_pos hj, hj]
      cases e : s.tank k with
      | none => rfl
      | some r =>
        have same : r.timer.map (ChangeTimer.judged s.settings.changeover s.clock) = r.timer := by
          cases ht : r.timer with
          | none => rfl
          | some c =>
            refine congrArg some (ChangeTimer.judged_of_none fun x => ?_)
            have := h c ((s.runningTimer_some k c).mpr ⟨r, e, ht, x⟩)
            rwa [ChangeTimer.run, x] at this
        rw [Option.map_some, Tank.timed, same]
    · rw [if_neg hj]
  · obtain ⟨c, running, due⟩ := not_forall₂.mp h
    obtain ⟨r, hr, ht, x⟩ := (s.runningTimer_some k c).mp running
    have due := Nat.not_lt.mp due
    rw [State.judgeChange_of_due running due, State.raiseAlarm_tank, State.notify_tank, State.modTank_tank]
    rw [ChangeTimer.run, x] at due
    congr 1
    rw [hr, Option.map_some, Option.map_some, Tank.timed, ht, Option.map_some, ChangeTimer.judged, if_pos ⟨x, due⟩]

/-! ### Every timer judged -/

theorem judgeChanges_eq (s : State) (ks : List TankId) : ks.foldl State.judgeChange s = { s with
    tanks := (ks.foldl State.judgeChange s).tanks, alarms := (ks.foldl State.judgeChange s).alarms
    horn := (ks.foldl State.judgeChange s).horn, notices := (ks.foldl State.judgeChange s).notices } := by
  induction ks generalizing s with
  | nil => rfl
  | cons k ks ih =>
    rw [List.foldl_cons, ih (s.judgeChange k), State.judgeChange_eq s k]

theorem judgeChanges_keeps (s : State) (ks : List TankId) : TimeKeeps s (ks.foldl State.judgeChange s) := by
  induction ks generalizing s with
  | nil => exact .refl s
  | cons k ks ih => exact (s.judgeChange_keeps k).trans (ih _)

theorem judgeChanges_of_none {s : State} (h : ∀ k, NoTimerEnd s s.clock k) (ks : List TankId) :
    ks.foldl State.judgeChange s = s := by
  induction ks with
  | nil => rfl
  | cons k ks ih => rw [List.foldl_cons, State.judgeChange_of_none (h k), ih]

theorem judgeChanges_tank_other (s : State) {ks : List TankId} {j : TankId} (hj : j ∉ ks) :
    (ks.foldl State.judgeChange s).tank j = s.tank j := by
  induction ks generalizing s with
  | nil => rfl
  | cons k ks ih =>
    obtain ⟨hk, hks⟩ := not_or.mp (mt List.mem_cons.mpr hj)
    rw [List.foldl_cons, ih _ hks, State.judgeChange_tank, if_neg hk]

/-- R93: each tank's timer is judged once. -/
theorem judgeChanges_tank (s : State) {ks : List TankId} (nd : ks.Nodup) {j : TankId} (hj : j ∈ ks) :
    (ks.foldl State.judgeChange s).tank j = (s.tank j).map (Tank.timed s.settings.changeover s.clock) := by
  induction ks generalizing s with
  | nil => cases hj
  | cons k ks ih =>
    obtain ⟨hk, nd⟩ := List.nodup_cons.mp nd
    rw [List.foldl_cons]
    by_cases e : j = k
    · rw [judgeChanges_tank_other _ (e ▸ hk), State.judgeChange_tank, if_pos e, e]
    · rw [ih _ nd ((List.mem_cons.mp hj).resolve_left e), State.judgeChange_tank, if_neg e, State.judgeChange_clock,
        (s.judgeChange_keeps k).settings]

/-- R93: what an expired timer has told. -/
def LateTold (s : State) (k : TankId) : Prop :=
  AlarmPresent s .changeoverLate (.tank k) ∧ (NoticeKind.tank ∈ s.port.mask → Notice.tank k ∈ s.notices)

theorem LateTold.congr {s t : State} {k : TankId} (h : LateTold s k) (alarms : t.alarms = s.alarms)
    (port : t.port = s.port) (notices : s.notices ⊆ t.notices) : LateTold t k :=
  ⟨(AlarmPresent.congr alarms _ _).mpr h.1, fun m => notices (h.2 (port ▸ m))⟩

/-- R93: a timer that expires tells of it. -/
theorem State.judgeChange_told {s : State} {k : TankId} {c : ChangeTimer} (h : s.runningTimer k = some c)
    (due : s.settings.changeover ≤ c.run s.clock) : LateTold (s.judgeChange k) k := by
  rw [State.judgeChange_of_due h due]
  refine ⟨State.raiseAlarm_alarmPresent _ _ _, fun m => ?_⟩
  refine subset_of_noticesWith (State.raiseAlarm_eq_notify _ _ _) (State.mem_notify _ _ (decide_eq_true ?_))
  simpa using m

theorem LateTold.judgeChange {s : State} {k : TankId} (told : LateTold s k) (j : TankId) : LateTold (s.judgeChange j) k := by
  by_cases h : NoTimerEnd s s.clock j
  · rw [State.judgeChange_of_none h]; exact told
  · obtain ⟨c, running, due⟩ := not_forall₂.mp h
    have due := Nat.not_lt.mp due
    by_cases e : k = j
    · rw [e]; exact State.judgeChange_told running due
    · refine ⟨?_, fun m => s.judgeChange_subset j (told.2 ((s.judgeChange_keeps j).port ▸ m))⟩
      rw [State.judgeChange_of_due running due, State.alarmPresent_raiseAlarm_other _ (by simpa using e)]
      exact (AlarmPresent.congr (by simp) _ _).mpr told.1

theorem LateTold.judgeChanges {s : State} {k : TankId} (told : LateTold s k) (ks : List TankId) :
    LateTold (ks.foldl State.judgeChange s) k := by
  induction ks generalizing s with
  | nil => exact told
  | cons j ks ih => exact ih (told.judgeChange j)

theorem judgeChanges_told {s : State} {k : TankId} {c : ChangeTimer} (h : s.runningTimer k = some c)
    (due : s.settings.changeover ≤ c.run s.clock) {ks : List TankId} (hk : k ∈ ks) :
    LateTold (ks.foldl State.judgeChange s) k := by
  induction ks generalizing s with
  | nil => cases hk
  | cons j ks ih =>
    rw [List.foldl_cons]
    by_cases e : k = j
    · rw [← e]; exact (State.judgeChange_told h due).judgeChanges ks
    · refine ih ?_ ?_ ((List.mem_cons.mp hk).resolve_left e)
      · rw [State.runningTimer, State.judgeChange_tank, if_neg e]; exact h
      · rw [(s.judgeChange_keeps j).settings, State.judgeChange_clock]; exact due

end Sys2Proof.Machine
end

section
/-! SUPPORT. One ds, and as many ds as it takes (R184): start-up, the write and the timers, each on its own. -/

namespace Sys2Proof.Machine

/-! ### One ds -/

theorem State.nextDs_keeps (s : State) : TimeKeeps s s.nextDs :=
  ⟨rfl, rfl, rfl, rfl, rfl, rfl, rfl, rfl, rfl, rfl, rfl, List.Subset.refl _⟩

theorem State.tick_keeps (s : State) : TimeKeeps s s.tick :=
  ((s.nextDs_keeps.trans s.nextDs.judgeStartup_keeps).trans (State.judgeWrite_keeps _)).trans (judgeChanges_keeps _ _)

/-- The end of start-up at a ds. -/
theorem State.tick_startup (s : State) : s.tick.phase = s.nextDs.judgeStartup.phase
    ∧ s.tick.esd = s.nextDs.judgeStartup.esd ∧ s.nextDs.judgeStartup.notices ⊆ s.tick.notices := by
  refine ⟨?_, ?_, List.Subset.trans (State.judgeWrite_keeps _).notices (judgeChanges_keeps _ _).notices⟩ <;>
    rw [State.tick, judgeChanges_eq, State.judgeWrite_eq]

/-- What the end of a write reads is the same in two states. -/
structure SameRecords (s t : State) : Prop where
  store : t.store = s.store
  rates : t.rates = s.rates
  meass : t.meass = s.meass

theorem SameRecords.refl (s : State) : SameRecords s s := ⟨rfl, rfl, rfl⟩

theorem SameRecords.trans {s t u : State} (a : SameRecords s t) (b : SameRecords t u) : SameRecords s u :=
  ⟨b.store.trans a.store, b.rates.trans a.rates, b.meass.trans a.meass⟩

theorem SameRecords.foldedMeas {s t : State} (h : SameRecords s t) (w : Write) : t.foldedMeas w = s.foldedMeas w := by
  have limits : t.limits w.line = s.limits w.line := by
    unfold State.limits State.record; rw [h.store]
  have meas : t.meas w.line = s.meas w.line := by
    unfold State.meas; rw [h.meass]
  have delivered : t.delivered w.line = s.delivered w.line := by
    unfold State.delivered; rw [limits, meas]
  rw [State.foldedMeas, State.foldedMeas, limits, meas, delivered]

theorem WriteEnded.later {s t u : State} {w : Write} (h : WriteEnded s t w) (same : SameRecords t u)
    (keeps : TimeKeeps t u) : WriteEnded s u w :=
  ⟨same.store.trans h.store, same.rates.trans h.rates, same.meass.trans h.meass, fun m => keeps.notices (h.told m)⟩

theorem WriteEnded.before {s t u : State} {w : Write} (h : WriteEnded t u w) (same : SameRecords s t)
    (port : t.port = s.port) : WriteEnded s u w where
  store := by rw [h.store, same.store]
  rates := by rw [h.rates, State.rate, State.rate, same.rates]
  meass := by rw [h.meass, same.foldedMeas, same.meass]
  told m := h.told (port ▸ m)

/-- The judgement of the write at a ds, with what stands around it. -/
theorem State.tick_write (s : State) : ∃ a b, SameRecords s a ∧ a.clock = s.clock + 1 ∧ a.port = s.port
    ∧ b = a.judgeWrite ∧ SameRecords b s.tick ∧ TimeKeeps b s.tick := by
  refine ⟨_, _, ⟨?_, ?_, ?_⟩, State.judgeStartup_clock s.nextDs, s.nextDs.judgeStartup_keeps.port, rfl, ⟨?_, ?_, ?_⟩,
    judgeChanges_keeps _ _⟩
  iterate 3 rw [State.judgeStartup_eq]; rfl
  all_goals rw [State.tick, judgeChanges_eq]

theorem State.tick_write_of_none {s : State} (h : NoWriteEnd s (s.clock + 1)) : SameRecords s s.tick := by
  obtain ⟨a, b, same, clock, -, e, after, -⟩ := s.tick_write
  have none : NoWriteEnd a a.clock := by rw [NoWriteEnd, same.store, clock]; exact h
  rw [State.judgeWrite_of_none none] at e
  exact same.trans (e ▸ after)

theorem State.tick_write_of_due {s : State} {w : Write} (h : s.store.write = some w) (due : w.since + 4 ≤ s.clock + 1) :
    WriteEnded s s.tick w := by
  obtain ⟨a, b, same, clock, port, e, after, keeps⟩ := s.tick_write
  rw [State.judgeWrite_of_due (same.store ▸ h) (clock ▸ due)] at e
  exact ((e ▸ a.endWrite_writeEnded w : WriteEnded a b w).later after keeps).before same port

/-- The judgement of the timers at a ds, with what stands before it. -/
theorem State.tick_timers (s : State) : ∃ a, a.tanks = s.tanks ∧ a.alarms = s.alarms ∧ a.horn = s.horn
    ∧ a.settings = s.settings ∧ a.clock = s.clock + 1 ∧ s.tick = allTanks.foldl State.judgeChange a := by
  refine ⟨_, ?_, ?_, ?_, ?_, ?_, rfl⟩
  iterate 3 rw [State.judgeWrite_eq, State.judgeStartup_eq]; rfl
  · exact ((s.nextDs_keeps.trans s.nextDs.judgeStartup_keeps).trans (State.judgeWrite_keeps _)).settings
  · rw [State.judgeWrite_clock, State.judgeStartup_clock]; rfl

theorem State.runningTimer_congr {s t : State} {k : TankId} (h : t.tank k = s.tank k) :
    t.runningTimer k = s.runningTimer k := by
  rw [State.runningTimer, h]; rfl

theorem State.tank_of_tanks {s t : State} (h : t.tanks = s.tanks) (k : TankId) : t.tank k = s.tank k := by
  rw [State.tank, State.tank, h]

/-- R93: each tank's timer is judged at the new clock. -/
theorem State.tick_tank (s : State) (k : TankId) :
    s.tick.tank k = (s.tank k).map (Tank.timed s.settings.changeover (s.clock + 1)) := by
  obtain ⟨a, tanks, -, -, settings, clock, e⟩ := s.tick_timers
  rw [e, judgeChanges_tank a (by decide) (tank_mem_all k), settings, clock, State.tank_of_tanks tanks]

theorem State.tick_timers_of_none {s : State} (h : ∀ k, NoTimerEnd s (s.clock + 1) k) :
    s.tick.tanks = s.tanks ∧ s.tick.alarms = s.alarms ∧ s.tick.horn = s.horn := by
  obtain ⟨a, tanks, alarms, horn, settings, clock, e⟩ := s.tick_timers
  have none : ∀ k, NoTimerEnd a a.clock k := by
    intro k
    rw [NoTimerEnd, State.runningTimer_congr (State.tank_of_tanks tanks k), settings, clock]
    exact h k
  rw [e, judgeChanges_of_none none]
  exact ⟨tanks, alarms, horn⟩

theorem State.tick_told {s : State} {k : TankId} {c : ChangeTimer} (h : s.runningTimer k = some c)
    (due : s.settings.changeover ≤ c.run (s.clock + 1)) : LateTold s.tick k := by
  obtain ⟨a, tanks, -, -, settings, clock, e⟩ := s.tick_timers
  rw [e]
  refine judgeChanges_told ((State.runningTimer_congr (State.tank_of_tanks tanks k)).trans h) ?_ (tank_mem_all k)
  rw [settings, clock]
  exact due

theorem LateTold.tick {s : State} {k : TankId} (told : LateTold s k) : LateTold s.tick k := by
  obtain ⟨a, e, port, notices, alarms⟩ : ∃ a, s.tick = allTanks.foldl State.judgeChange a ∧ a.port = s.port
      ∧ s.notices ⊆ a.notices ∧ a.alarms = s.alarms := by
    have keeps := (s.nextDs_keeps.trans s.nextDs.judgeStartup_keeps).trans (State.judgeWrite_keeps _)
    refine ⟨_, rfl, keeps.port, keeps.notices, ?_⟩
    rw [State.judgeWrite_eq, State.judgeStartup_eq]
    rfl
  rw [e]
  exact (told.congr alarms port notices).judgeChanges allTanks

/-! ### As many ds as it takes -/

theorem State.ticks_keeps (s : State) (n : Nat) : TimeKeeps s (s.ticks n) := by
  induction n with
  | zero => exact .refl s
  | succ n ih => exact ih.trans (State.tick_keeps _)

/-- R182: start-up does not end before its moment. -/
theorem State.ticks_startup_of_none {s : State} {n : Nat} (h : NoStartupEnd s (s.clock + n)) :
    (s.ticks n).phase = s.phase ∧ (s.ticks n).esd = s.esd := by
  induction n with
  | zero => exact ⟨rfl, rfl⟩
  | succ n ih =>
    obtain ⟨phase, esd⟩ := ih (h.imp_right (by omega))
    have none : NoStartupEnd (s.ticks n).nextDs (s.ticks n).nextDs.clock := by
      refine h.imp (fun running => phase.trans running) fun before => ?_
      show (s.ticks n).clock + 1 < 20
      rw [State.ticks_clock]
      omega
    obtain ⟨tickPhase, tickEsd, -⟩ := (s.ticks n).tick_startup
    rw [State.judgeStartup_of_none none] at tickPhase tickEsd
    exact ⟨tickPhase.trans phase, tickEsd.trans esd⟩

/-- R144, R182: start-up ends at its moment. -/
theorem State.ticks_startup_of_due {s : State} {n : Nat} (h : s.phase = .starting) (before : s.clock < 20)
    (due : 20 ≤ s.clock + n) : (s.ticks n).phase = .running ∧ (s.ticks n).esd = { s.esd with contact := .closed }
      ∧ Notice.ready ∈ (s.ticks n).notices := by
  induction n with
  | zero => exact absurd before (Nat.not_lt.mpr due)
  | succ n ih =>
    obtain ⟨tickPhase, tickEsd, told⟩ := (s.ticks n).tick_startup
    by_cases past : 20 ≤ s.clock + n
    · obtain ⟨phase, esd, ready⟩ := ih past
      rw [State.judgeStartup_of_none (s := (s.ticks n).nextDs) (.inl phase)] at tickPhase tickEsd
      exact ⟨tickPhase.trans phase, tickEsd.trans esd, (State.tick_keeps _).notices ready⟩
    · obtain ⟨phase, esd⟩ := State.ticks_startup_of_none (s := s) (n := n) (.inr (Nat.not_le.mp past))
      have reached : 20 ≤ (s.ticks n).nextDs.clock := by
        show 20 ≤ (s.ticks n).clock + 1
        rw [State.ticks_clock]
        omega
      rw [State.judgeStartup_of_due (s := (s.ticks n).nextDs) (phase.trans h) reached] at tickPhase tickEsd told
      rw [State.endStartup_eq] at tickPhase tickEsd
      refine ⟨tickPhase, tickEsd.trans ?_, told (State.endStartup_ready _)⟩
      show { (s.ticks n).esd with contact := Contact.closed } = _
      rw [esd]

/-- R179: no write ends before its moment. -/
theorem State.ticks_write_of_none {s : State} {n : Nat} (h : NoWriteEnd s (s.clock + n)) : SameRecords s (s.ticks n) := by
  induction n with
  | zero => exact .refl s
  | succ n ih =>
    have same := ih fun w hw => by have := h w hw; omega
    refine same.trans (State.tick_write_of_none fun w hw => ?_)
    have := h w (same.store ▸ hw)
    rw [State.ticks_clock]
    omega

/-- R179, R180: a write ends at its moment. -/
theorem State.ticks_write_of_due {s : State} {w : Write} {n : Nat} (h : s.store.write = some w)
    (before : s.clock < w.since + 4) (due : w.since + 4 ≤ s.clock + n) : WriteEnded s (s.ticks n) w := by
  induction n with
  | zero => exact absurd before (Nat.not_lt.mpr due)
  | succ n ih =>
    by_cases past : w.since + 4 ≤ s.clock + n
    · have ended := ih past
      refine ended.later (State.tick_write_of_none fun x hx => ?_) (State.tick_keeps _)
      rw [ended.store] at hx
      cases hx
    · have same : SameRecords s (s.ticks n) :=
        State.ticks_write_of_none fun x hx => by
          cases h.symm.trans hx
          exact Nat.not_le.mp past
      exact (State.tick_write_of_due (same.store ▸ h) (by rw [State.ticks_clock]; exact due)).before same
        (s.ticks_keeps n).port

/-- R93: a run grows with the clock. -/
theorem ChangeTimer.run_mono (c : ChangeTimer) {m n : Nat} (h : m ≤ n) : c.run m ≤ c.run n := by
  unfold ChangeTimer.run
  cases c.expired with
  | some x => exact Nat.le_refl x
  | none => exact Nat.sub_le_sub_right h _

theorem Tank.timed_of_none {r : Tank} {changeover now : Nat}
    (h : ∀ c, r.timer = some c → c.expired = none → now - c.since < changeover) : r.timed changeover now = r := by
  have same : r.timer.map (ChangeTimer.judged changeover now) = r.timer := by
    cases ht : r.timer with
    | none => rfl
    | some c => exact congrArg some (ChangeTimer.judged_of_none (h c ht))
  rw [Tank.timed, same]

/-- R93: a tank whose timer does not fall due is left alone. -/
theorem State.ticks_tank_of_none {s : State} {n : Nat} {k : TankId} (h : NoTimerEnd s (s.clock + n) k) :
    (s.ticks n).tank k = s.tank k := by
  induction n with
  | zero => rfl
  | succ n ih =>
    have same := ih fun c hc => Nat.lt_of_le_of_lt (c.run_mono (by omega)) (h c hc)
    rw [State.ticks, State.tick_tank, same, (s.ticks_keeps n).settings, State.ticks_clock]
    cases e : s.tank k with
    | none => rfl
    | some r =>
      refine congrArg some (Tank.timed_of_none fun c ht x => ?_)
      have := h c ((s.runningTimer_some k c).mpr ⟨r, e, ht, x⟩)
      rwa [ChangeTimer.run, x] at this

theorem State.ticks_timers_of_none {s : State} {n : Nat} (h : ∀ k, NoTimerEnd s (s.clock + n) k) :
    (s.ticks n).tanks = s.tanks ∧ (s.ticks n).alarms = s.alarms ∧ (s.ticks n).horn = s.horn := by
  induction n with
  | zero => exact ⟨rfl, rfl, rfl⟩
  | succ n ih =>
    have earlier : ∀ k, NoTimerEnd s (s.clock + n) k := fun k c hc =>
      Nat.lt_of_le_of_lt (c.run_mono (by omega)) (h k c hc)
    obtain ⟨tanks, alarms, horn⟩ := ih earlier
    have none : ∀ k, NoTimerEnd (s.ticks n) ((s.ticks n).clock + 1) k := by
      intro k
      rw [NoTimerEnd, State.runningTimer_congr (State.tank_of_tanks tanks k), (s.ticks_keeps n).settings, State.ticks_clock]
      exact h k
    obtain ⟨tickTanks, tickAlarms, tickHorn⟩ := State.tick_timers_of_none none
    exact ⟨tickTanks.trans tanks, tickAlarms.trans alarms, tickHorn.trans horn⟩

/-- R93: the record of a tank whose timer has stopped at the timeout in force. -/
def Tank.stopped (r : Tank) (since changeover : Nat) : Tank :=
  { r with timer := some { since := since, expired := some changeover } }

theorem Tank.timed_stopped (r : Tank) (since changeover now : Nat) :
    (r.stopped since changeover).timed changeover now = r.stopped since changeover :=
  Tank.timed_of_none fun c ht x => by cases ht; cases x

/-- R93: a running timer either runs still or has stopped at the timeout, with what it tells. -/
theorem State.ticks_timer {s : State} {k : TankId} {r : Tank} {since : Nat} (hr : s.tank k = some r)
    (ht : r.timer = some { since := since, expired := none }) (before : s.clock < since + s.settings.changeover) (n : Nat) :
    ((s.ticks n).tank k = some r ∧ s.clock + n < since + s.settings.changeover)
      ∨ ((s.ticks n).tank k = some (r.stopped since s.settings.changeover) ∧ LateTold (s.ticks n) k) := by
  induction n with
  | zero => exact .inl ⟨hr, before⟩
  | succ n ih =>
    have settings := (s.ticks_keeps n).settings
    have tank := (s.ticks n).tick_tank k
    rw [settings, State.ticks_clock] at tank
    rcases ih with ⟨same, running⟩ | ⟨stopped, told⟩
    · by_cases due : s.settings.changeover ≤ s.clock + n + 1 - since
      · right
        have run : s.clock + n + 1 - since = s.settings.changeover := by omega
        constructor
        · rw [State.ticks, tank, same, Option.map_some, Tank.timed, ht, Option.map_some, ChangeTimer.judged,
            if_pos ⟨rfl, due⟩, run]
          rfl
        · refine State.tick_told (c := { since := since, expired := none }) ?_ ?_
          · exact (State.runningTimer_some _ k _).mpr ⟨r, same, ht, rfl⟩
          · rw [settings, State.ticks_clock]; exact due
      · left
        constructor
        · rw [State.ticks, tank, same]
          refine congrArg some (Tank.timed_of_none fun c hc _ => ?_)
          cases ht.symm.trans hc
          exact Nat.not_le.mp due
        · omega
    · right
      refine ⟨?_, told.tick⟩
      rw [State.ticks, tank, stopped, Option.map_some, Tank.timed_stopped]

end Sys2Proof.Machine
end

section
/-! SUPPORT. The events that time brings (R93, R179, R182), settled. -/

namespace Sys2Proof.Machine

/-! ### What falls due on the way -/

/-- R175, R180: the new record is in force. -/
theorem WriteEnded.limits {s t : State} {w : Write} (h : WriteEnded s t w) : t.limits w.line = some w.record := by
  have record : t.record w.line = soundRecord w.record := by
    rw [State.record, h.store, vget_vset, if_pos rfl]
  rw [State.limits, record]
  rfl

theorem dueMade_of_clock {s t : State} (h : t.clock = s.clock) : DueMade s t :=
  ⟨fun _ _ before due => absurd before (Nat.not_lt.mpr (h ▸ due)),
    fun _ _ _ before due => absurd before (Nat.not_lt.mpr (h ▸ due))⟩

theorem State.ticks_dueMade (s : State) (n : Nat) : DueMade s (s.ticks n) := by
  constructor
  · intro w hw before due
    have ended := State.ticks_write_of_due (n := n) hw before (s.ticks_clock n ▸ due)
    exact ⟨by rw [ended.store], ended.limits⟩
  · intro k since running before due
    obtain ⟨r, hr, ht, -⟩ := (s.runningTimer_some k _).mp running
    rcases State.ticks_timer hr ht before n with ⟨-, early⟩ | ⟨stopped, -⟩
    · exact absurd early (Nat.not_lt.mpr (s.ticks_clock n ▸ due))
    · rw [stopped]; rfl

/-- The passing of time, whole. -/
theorem State.ticks_eq (s : State) (n : Nat) : s.ticks n = { s with
    clock := (s.ticks n).clock, phase := (s.ticks n).phase, store := (s.ticks n).store, rates := (s.ticks n).rates
    meass := (s.ticks n).meass, tanks := (s.ticks n).tanks, esd := (s.ticks n).esd, alarms := (s.ticks n).alarms
    horn := (s.ticks n).horn, notices := (s.ticks n).notices } := by
  have keeps := s.ticks_keeps n
  exact State.eq_of_fields keeps.pending rfl rfl keeps.key keeps.settings rfl keeps.seqs rfl rfl keeps.drives keeps.lineups
    rfl keeps.link rfl keeps.device keeps.overfills rfl rfl keeps.port rfl keeps.linkResult

/-! ### The end of a write -/

/-- R179: either the write ends at its moment as time passes, or its moment is over and it ends now. -/
theorem State.writeDone_cases {s : State} {w : Write} (hw : s.store.write = some w) :
    (∃ n, s.writeDone = s.ticks n ∧ s.clock < w.since + 4 ∧ s.clock + n = w.since + 4)
      ∨ (s.writeDone = s.endWrite w ∧ w.since + 4 ≤ s.clock) := by
  unfold State.writeDone
  rw [hw]
  simp only [State.passTo]
  rcases Nat.lt_or_ge s.clock (w.since + 4) with before | past
  · have reached : s.clock + (w.since + 4 - s.clock) = w.since + 4 := by omega
    refine .inl ⟨_, State.judgeWrite_of_none fun x hx => ?_, before, reached⟩
    rw [(State.ticks_write_of_due hw before reached.ge).store] at hx
    cases hx
  · rw [Nat.sub_eq_zero_of_le past]
    exact .inr ⟨State.judgeWrite_of_due hw past, past⟩

theorem State.writeDone_ended {s : State} {w : Write} (hw : s.store.write = some w) :
    WriteEnded s s.writeDone w ∧ TimeKeeps s s.writeDone ∧ s.writeDone.clock = max s.clock (w.since + 4)
      ∧ DueMade s s.writeDone := by
  rcases State.writeDone_cases hw with ⟨n, e, before, reached⟩ | ⟨e, past⟩ <;> rw [e]
  · refine ⟨State.ticks_write_of_due hw before reached.ge, s.ticks_keeps n, ?_, s.ticks_dueMade n⟩
    rw [State.ticks_clock]
    omega
  · have clock := s.endWrite_clock w
    have judged := State.judgeWrite_of_due hw past
    exact ⟨s.endWrite_writeEnded w, judged ▸ s.judgeWrite_keeps, by rw [clock, Nat.max_eq_left past],
      dueMade_of_clock clock⟩

/-- R180: where nothing else falls due, the end of a write touches the store, the rates and the measurements alone. -/
theorem State.writeDone_frame {s : State} {w : Write} (hw : s.store.write = some w)
    (startup : NoStartupEnd s s.writeDone.clock) (timers : ∀ j, NoTimerEnd s s.writeDone.clock j) :
    s.writeDone = { s with clock := s.writeDone.clock, store := s.writeDone.store, meass := s.writeDone.meass
                           rates := s.writeDone.rates, notices := s.writeDone.notices } := by
  rcases State.writeDone_cases hw with ⟨n, e, -, -⟩ | ⟨e, -⟩
  · rw [e] at startup timers ⊢
    rw [State.ticks_clock] at startup timers
    obtain ⟨phase, esd⟩ := State.ticks_startup_of_none startup
    obtain ⟨tanks, alarms, horn⟩ := State.ticks_timers_of_none timers
    have whole := s.ticks_eq n
    rw [phase, esd, tanks, alarms, horn] at whole
    exact whole
  · rw [e, State.endWrite_eq]

theorem WriteEnded.onlyLine {s t : State} {w : Write} (h : WriteEnded s t w) (keeps : TimeKeeps s t) :
    OnlyLine s t w.line := by
  intro k hk
  simp only [State.seq, State.rate, State.meas, State.drive, State.lineup, keeps.seqs, h.rates, h.meass, keeps.drives,
    keeps.lineups, vget_vset, if_neg hk, and_self]

/-- R7: the measurement state of the written line. -/
theorem WriteEnded.meas {s t : State} {w : Write} (h : WriteEnded s t w) : t.meas w.line = s.foldedMeas w := by
  rw [State.meas, h.meass, vget_vset, if_pos rfl]

theorem State.foldedMeas_other {s : State} {w : Write} {old : Limits} (ho : s.limits w.line = some old)
    (hf : old.f ≠ w.record.f) : s.foldedMeas w = { s.meas w.line with dBase := s.delivered w.line, pTot := 0 } := by
  rw [State.foldedMeas, ho]; exact if_pos (decide_eq_true hf)

theorem State.foldedMeas_same {s : State} {w : Write} {old : Limits} (ho : s.limits w.line = some old)
    (hf : old.f = w.record.f) : s.foldedMeas w = s.meas w.line := by
  rw [State.foldedMeas, ho]; exact if_neg (by simp [hf])

/-! ### A change-over timer -/

/-- R93: either the timer expires at its moment as time passes, or its moment is over and it expires now. -/
theorem State.changeLate_cases {s : State} {k : TankId} {r : Tank} {since : Nat} (hr : s.tank k = some r)
    (ht : r.timer = some { since := since, expired := none }) :
    (∃ n, s.changeLate k = s.ticks n ∧ s.clock < since + s.settings.changeover
        ∧ s.clock + n = since + s.settings.changeover)
      ∨ (s.changeLate k = s.judgeChange k ∧ since + s.settings.changeover ≤ s.clock) := by
  have running : s.runningTimer k = some { since := since, expired := none } :=
    (s.runningTimer_some k _).mpr ⟨r, hr, ht, rfl⟩
  unfold State.changeLate
  rw [running]
  simp only [State.passTo]
  rcases Nat.lt_or_ge s.clock (since + s.settings.changeover) with before | past
  · have reached : s.clock + (since + s.settings.changeover - s.clock) = since + s.settings.changeover := by omega
    refine .inl ⟨_, State.judgeChange_of_none fun c hc => ?_, before, reached⟩
    obtain ⟨x, hx, hxt, none⟩ := (State.runningTimer_some _ k c).mp hc
    rcases State.ticks_timer hr ht before (since + s.settings.changeover - s.clock) with ⟨-, early⟩ | ⟨stopped, -⟩
    · omega
    · cases stopped.symm.trans hx
      cases hxt
      cases none
  · rw [Nat.sub_eq_zero_of_le past]
    exact .inr ⟨rfl, past⟩

theorem State.changeLate_stopped {s : State} {k : TankId} {r : Tank} {since : Nat} (hr : s.tank k = some r)
    (ht : r.timer = some { since := since, expired := none }) :
    (s.changeLate k).clock = max s.clock (since + s.settings.changeover)
      ∧ (s.changeLate k).tank k = some (r.stopped since ((s.changeLate k).clock - since))
      ∧ LateTold (s.changeLate k) k ∧ TimeKeeps s (s.changeLate k) ∧ DueMade s (s.changeLate k) := by
  rcases State.changeLate_cases hr ht with ⟨n, e, before, reached⟩ | ⟨e, past⟩ <;> rw [e]
  · rw [State.ticks_clock]
    rcases State.ticks_timer hr ht before n with ⟨-, early⟩ | ⟨stopped, told⟩
    · omega
    · have run : s.clock + n - since = s.settings.changeover := by omega
      rw [run]
      exact ⟨by omega, stopped, told, s.ticks_keeps n, s.ticks_dueMade n⟩
  · have running := (s.runningTimer_some k _).mpr ⟨r, hr, ht, rfl⟩
    have due : s.settings.changeover ≤ s.clock - since := by omega
    have clock := s.judgeChange_clock k
    rw [clock]
    refine ⟨(Nat.max_eq_left past).symm, ?_, State.judgeChange_told running due, s.judgeChange_keeps k,
      dueMade_of_clock clock⟩
    rw [State.judgeChange_tank, if_pos rfl, hr, Option.map_some, Tank.timed, ht, Option.map_some, ChangeTimer.judged,
      if_pos ⟨rfl, due⟩]
    rfl

/-- R93: where nothing else falls due, the expiry touches the tank and its alarm alone. -/
theorem State.changeLate_frame {s : State} {k : TankId} {r : Tank} {since : Nat} (hr : s.tank k = some r)
    (ht : r.timer = some { since := since, expired := none }) (startup : NoStartupEnd s (s.changeLate k).clock)
    (write : NoWriteEnd s (s.changeLate k).clock) (timers : ∀ j, j ≠ k → NoTimerEnd s (s.changeLate k).clock j) :
    OnlyTank s (s.changeLate k) k ∧ s.changeLate k = { s with
      clock := (s.changeLate k).clock, tanks := (s.changeLate k).tanks, alarms := (s.changeLate k).alarms
      horn := (s.changeLate k).horn, notices := (s.changeLate k).notices } := by
  rcases State.changeLate_cases hr ht with ⟨n, e, -, -⟩ | ⟨e, -⟩
  · rw [e] at startup write timers ⊢
    rw [State.ticks_clock] at startup write timers
    refine ⟨fun j hj => State.ticks_tank_of_none (timers j hj), ?_⟩
    obtain ⟨phase, esd⟩ := State.ticks_startup_of_none startup
    have records := State.ticks_write_of_none write
    have whole := s.ticks_eq n
    rw [phase, esd, records.store, records.rates, records.meass] at whole
    exact whole
  · rw [e]
    refine ⟨fun j hj => by rw [State.judgeChange_tank, if_neg hj], ?_⟩
    rw [State.judgeChange_eq]

/-! ### The end of start-up -/

/-- R182: either start-up ends at its moment as time passes, or its moment is over and it ends now. -/
theorem State.startupDone_cases {s : State} (h : s.phase = .starting) :
    (∃ n, s.startupDone = s.ticks n ∧ s.clock < 20 ∧ s.clock + n = 20)
      ∨ (s.startupDone = s.endStartup ∧ 20 ≤ s.clock) := by
  unfold State.startupDone
  rw [h]
  simp only [State.passTo]
  rcases Nat.lt_or_ge s.clock 20 with before | past
  · have reached : s.clock + (20 - s.clock) = 20 := by omega
    exact .inl ⟨_, State.judgeStartup_of_none (.inl (State.ticks_startup_of_due h before reached.ge).1), before, reached⟩
  · rw [Nat.sub_eq_zero_of_le past]
    exact .inr ⟨State.judgeStartup_of_due h past, past⟩

theorem State.startupDone_running {s : State} (h : s.phase = .starting) :
    s.startupDone.phase = .running ∧ s.startupDone.esd = { s.esd with contact := .closed }
      ∧ s.startupDone.clock = max s.clock 20 ∧ Notice.ready ∈ s.startupDone.notices ∧ DueMade s s.startupDone := by
  rcases State.startupDone_cases h with ⟨n, e, before, reached⟩ | ⟨e, past⟩ <;> rw [e]
  · obtain ⟨phase, esd, ready⟩ := State.ticks_startup_of_due h before reached.ge
    refine ⟨phase, esd, ?_, ready, s.ticks_dueMade n⟩
    rw [State.ticks_clock]
    omega
  · have clock : s.endStartup.clock = s.clock := by rw [State.endStartup_eq]
    refine ⟨by rw [State.endStartup_eq], by rw [State.endStartup_eq], ?_, s.endStartup_ready, dueMade_of_clock clock⟩
    rw [clock, Nat.max_eq_left past]

/-- R182: where nothing else falls due, the end of start-up touches the phase and the contact alone. -/
theorem State.startupDone_frame {s : State} (h : s.phase = .starting) (write : NoWriteEnd s s.startupDone.clock)
    (timers : ∀ j, NoTimerEnd s s.startupDone.clock j) : s.startupDone = { s with
      clock := s.startupDone.clock, phase := s.startupDone.phase, esd := s.startupDone.esd
      notices := s.startupDone.notices } := by
  rcases State.startupDone_cases h with ⟨n, e, -, -⟩ | ⟨e, -⟩
  · rw [e] at write timers ⊢
    rw [State.ticks_clock] at write timers
    have records := State.ticks_write_of_none write
    obtain ⟨tanks, alarms, horn⟩ := State.ticks_timers_of_none timers
    have whole := s.ticks_eq n
    rw [records.store, records.rates, records.meass, tanks, alarms, horn] at whole
    exact whole
  · rw [e, State.endStartup_eq]

/-! ### The obligation -/

/-- Settles O58: each of the three events is the passing of time up to its moment, or one judgement once that is over. -/
theorem timedEventsEnd : Obligations.TimedEventsEnd := by
  unfold Obligations.TimedEventsEnd
  refine ⟨fun s w hw => ?_, fun s k r since hr ht => ?_, fun s h => ?_⟩
  · obtain ⟨ended, keeps, clock, dueMade⟩ := State.writeDone_ended hw
    refine ⟨s.writeDone, rfl, by rw [ended.store], ended.limits, fun l hl => ?_, by rw [ended.store], clock, ?_, ?_, ?_,
      ended.told, ended.onlyLine keeps, dueMade, State.writeDone_frame hw⟩
    · rw [State.record, ended.store, vget_vset, if_neg hl]; rfl
    · rw [State.rate, ended.rates, vget_vset, if_pos rfl]
    · intro old ho hf
      rw [ended.meas, State.foldedMeas_other ho hf]
      exact ⟨rfl, rfl⟩
    · intro old ho hf
      rw [ended.meas, State.foldedMeas_same ho hf]
  · obtain ⟨clock, tank, told, keeps, dueMade⟩ := State.changeLate_stopped hr ht
    exact ⟨s.changeLate k, rfl, clock, tank, told.1, fun m => told.2 (keeps.port ▸ m), dueMade,
      State.changeLate_frame hr ht⟩
  · obtain ⟨phase, esd, clock, ready, dueMade⟩ := State.startupDone_running h
    exact ⟨s.startupDone, rfl, phase, esd, clock, ready, dueMade, State.startupDone_frame h⟩

end Sys2Proof.Machine
end

section
/-! SUPPORT. R6: what counts up. Which writes let no delivered total fall (`Counts`), and that every request but CONNECT and
RESTART makes only such writes. -/

namespace Sys2Proof.Machine

/-! ### Totals that do not fall -/

/-- R6: a line connected at the end was connected at the beginning, and its delivered total has not fallen. -/
def Counts (s t : State) : Prop :=
  ∀ l, (t.seq l).state ≠ .disconnected → (s.seq l).state ≠ .disconnected ∧ s.delivered l ≤ t.delivered l

theorem Counts.refl {s : State} : Counts s s := fun _ h => ⟨h, Nat.le_refl _⟩

theorem Counts.trans {s t u : State} (a : Counts s t) (b : Counts t u) : Counts s u := fun l h =>
  let ⟨mid, le⟩ := b l h
  let ⟨first, le'⟩ := a l mid
  ⟨first, Nat.le_trans le' le⟩

theorem State.delivered_eq (s : State) (l : LineId) :
    s.delivered l = (s.meas l).dBase + (s.limits l).elim 0 fun lim => (s.meas l).pTot * 100 / lim.f := by
  unfold State.delivered
  cases s.limits l <;> rfl

theorem State.limits_of_records {s t : State} (h : t.store.records = s.store.records) (l : LineId) :
    t.limits l = s.limits l := by
  unfold State.limits State.record; rw [h]

/-- Writes that touch neither sequence states, measurements nor records let the totals stand. -/
theorem Counts.of_same {s t : State} (seqs : t.seqs = s.seqs) (meass : t.meass = s.meass)
    (records : t.store.records = s.store.records) : Counts s t := by
  intro l h
  have total : t.delivered l = s.delivered l := by
    rw [State.delivered_eq, State.delivered_eq, State.limits_of_records records, State.meas, meass, State.meas]
  rw [State.seq, seqs] at h
  exact ⟨h, total.ge⟩

/-- R6: a base that stays and pulses that only rise. -/
theorem State.delivered_mono {s t : State} {l : LineId} (limits : t.limits l = s.limits l)
    (m : MeasMove (s.meas l) (t.meas l)) : s.delivered l ≤ t.delivered l := by
  rw [State.delivered_eq, State.delivered_eq, limits, m.dBase]
  refine Nat.add_le_add_left ?_ _
  cases s.limits l with
  | none => exact Nat.le_refl _
  | some lim => exact Nat.div_le_div_right (Nat.mul_le_mul_right _ m.pTot)

theorem Lawful.store {s t : State} (h : Lawful s t) : t.store = s.store := by
  induction h with
  | refl => rfl
  | soft l _ hs ih => exact hs.elsewhere.store.trans ih
  | trip l c _ ih => exact (State.addTrip_own _ l c).elsewhere.store.trans ih
  | _ => rename_i ih; simpa using ih

theorem Lawful.counts {s t : State} (h : Lawful s t) : Counts s t := fun l ht =>
  let ⟨connected, move⟩ := h.total l ht
  ⟨connected, State.delivered_mono (State.limits_of_records (congrArg Store.records h.store) l) move⟩

theorem Soft.counts {l : LineId} {s t : State} (h : Soft l s t) : Counts s t := h.lawful.counts

theorem Counts.foldl {α : Type} {f : State → α → State} (hf : ∀ t x, Counts t (f t x)) (xs : List α) (s : State) :
    Counts s (xs.foldl f s) := by
  induction xs generalizing s with
  | nil => exact .refl
  | cons x xs ih => exact (hf s x).trans (ih _)

/-! ### The frame of a request -/

theorem State.answer_counts (s : State) (fs : List String) : Counts s (s.answer fs) := .of_same rfl rfl rfl

theorem State.refuse_counts (s : State) (a b : List String) : Counts s (s.refuse a b) := s.answer_counts _

theorem State.take_counts (s : State) (a b : List String) : Counts s (s.take a b) := s.answer_counts _

theorem Counts.take {s t : State} (h : Counts s t) (a b : List String) : Counts s (t.take a b) := h.trans (t.take_counts a b)

theorem State.afterStartup_counts (s : State) (name : List String) {body : State → State} (h : Counts s (body s)) :
    Counts s (s.afterStartup name body) := by
  unfold State.afterStartup
  split
  · exact s.refuse_counts _ _
  · exact h

theorem State.onTank_counts (s : State) (name : List String) (n : Nat) {body : State → TankId → Tank → State}
    (h : ∀ k r, Counts s (body s k r)) : Counts s (s.onTank name n body) := by
  unfold State.onTank
  split
  · split
    · exact h _ _
    · exact s.refuse_counts _ _
  · exact s.refuse_counts _ _

theorem State.lineRequest_counts (s : State) (kw : String) (n : Nat) {body : State → LineId → List String → State}
    (h : ∀ l hd, Counts s (body s l hd)) : Counts s (s.lineRequest kw n body) := by
  refine s.afterStartup_counts _ ?_
  unfold State.onLine
  split
  · exact h _ _
  · exact s.refuse_counts _ _

/-! ### Requests of the lines -/

theorem State.takeDisconnect_counts (s : State) (n : Nat) : Counts s (s.takeDisconnect n) := by
  refine s.lineRequest_counts _ n fun l hd => ?_
  split
  · next h =>
    have connected : ((s.lineDisconnected l).seq l).state = .connected := (s.lineDisconnected_state l l).trans h
    have left := ((s.lineDisconnected_lawful l).leave l connected).soft l (State.dropTarget_soft _ l)
    exact ((left.gone .stretchWarn (.line l)).gone .strokeFailed (.line l)).counts.take _ _
  · exact s.refuse_counts _ _

theorem SeqMove.stroking {q : Seq} (h : q.state = .connected) (g : ¬q.permit = true) :
    SeqMove q { q with state := .stroking } :=
  ⟨fun a b => by simpa [h] using a b, fun a b => by simpa [h] using a b, fun _ b => absurd b g, by simp [h]⟩

theorem State.takeStroke_counts (s : State) (n : Nat) : Counts s (s.takeStroke n) := by
  refine s.lineRequest_counts _ n fun l hd => ?_
  split
  · next h =>
    split
    · exact s.refuse_counts _ _
    · next g =>
      have begun := Lawful.refl.seq (s := s) l (fun q => { q with state := .stroking }) (SeqMove.stroking h g)
      exact (begun.soft l ((Soft.refl.drive Drive.startStroke rfl).trans (State.dropTarget_soft _ l))).counts.take _ _
  all_goals exact s.refuse_counts _ _

theorem State.takeStrokeset_counts (s : State) (n : Nat) (t : Option Nat) : Counts s (s.takeStrokeset n t) := by
  refine s.lineRequest_counts _ n fun l hd => ?_
  have kept : ∀ x : Option Nat, Counts s (s.modDrive l fun d => { d with tOvr := x }) := fun x => .of_same rfl rfl rfl
  split
  · exact (kept _).take _ _
  · split
    · exact (kept _).take _ _
    · exact s.refuse_counts _ _

theorem State.takePermitQuery_counts (s : State) (n : Nat) : Counts s (s.takePermitQuery n) := by
  refine s.lineRequest_counts _ n fun l hd => ?_
  split
  · exact s.refuse_counts _ _
  · split
    · exact s.refuse_counts _ _
    · exact (s.queuePermit_lawful l).counts.take _ _

/-- A change of the sequence state that connects no line lets the totals stand. -/
theorem State.modSeq_counts (s : State) (l : LineId) {f : Seq → Seq}
    (h : (s.seq l).state = .disconnected → (f (s.seq l)).state = .disconnected) : Counts s (s.modSeq l f) := by
  intro k hk
  have total : (s.modSeq l f).delivered k = s.delivered k := by
    rw [State.delivered_eq, State.delivered_eq, State.modSeq_meas,
      State.limits_of_records (congrArg Store.records (s.modSeq_store l f))]
  refine ⟨fun out => hk ?_, total.ge⟩
  rw [State.modSeq_seq]
  split
  · next e => exact h (e ▸ out)
  · exact out

theorem State.takePermitConfirm_counts (s : State) (n : Nat) : Counts s (s.takePermitConfirm n) := by
  refine s.lineRequest_counts _ n fun l hd => ?_
  split
  · exact s.refuse_counts _ _
  · split
    · exact s.refuse_counts _ _
    · exact (s.modSeq_counts l id).take _ _

/-- R46: OPENING is entered by a line that is connected. -/
theorem State.enterOpening_counts (s : State) (l : LineId) (h : (s.seq l).state ≠ .disconnected) :
    Counts s (s.enterOpening l) := by
  have entered := (s.modSeq_counts l (f := fun q => { q with state := .opening, holds := setErase .operator q.holds })
    fun out => absurd out h).trans (State.formTarget_soft _ l).counts
  unfold State.enterOpening
  simp only []
  split
  · exact entered.trans (.of_same rfl rfl rfl)
  · exact entered

theorem State.startLine_counts (s : State) (l : LineId) (n : Nat) (h : (s.seq l).state = .connected) :
    Counts s (s.startLine l n) := by
  have set : Counts s (s.modRate l fun r => { r with target := n }) := .of_same rfl rfl rfl
  exact set.trans (State.enterOpening_counts _ l (by rw [State.modRate_seq, h]; decide))

theorem State.takeStart_counts (s : State) (n : Nat) (r : NumField) : Counts s (s.takeStart n r) := by
  refine s.lineRequest_counts _ n fun l hd => ?_
  split
  · exact s.refuse_counts _ _
  · split
    · exact s.refuse_counts _ _
    · next h => exact (s.startLine_counts l _ (s.startRefusal_state l h)).take _ _

theorem State.setRate_counts (s : State) (l : LineId) (n : Nat) : Counts s (s.setRate l n) := by
  have formed : Soft l s ((s.modRate l fun r => { r with target := n }).formTarget l) :=
    (Soft.refl.rate _).trans (State.formTarget_soft _ l)
  unfold State.setRate
  simp only []
  split
  · exact formed.counts
  · exact formed.counts.trans (State.clearRings_lawful _ l).counts

theorem State.storeRate_counts (s : State) (l : LineId) (n : Nat) : Counts s (s.storeRate l n) := by
  have stored : Counts s (s.modRate l fun r => { r with pendingTarget := some n }) := .of_same rfl rfl rfl
  unfold State.storeRate
  simp only []
  split
  · exact stored
  · exact stored.trans (State.clearRings_lawful _ l).counts

theorem State.takeRate_counts (s : State) (n : Nat) (r : NumField) : Counts s (s.takeRate n r) := by
  refine s.lineRequest_counts _ n fun l hd => ?_
  split
  · exact s.refuse_counts _ _
  · simp only []
    split
    iterate 2 exact (s.setRate_counts l _).take _ _
    iterate 2 exact (s.storeRate_counts l _).take _ _
    all_goals exact s.refuse_counts _ _

theorem State.takeLoop_counts (s : State) (n : Nat) (m : Option LoopWord) : Counts s (s.takeLoop n m) := by
  refine s.lineRequest_counts _ n fun l hd => ?_
  split
  · exact s.refuse_counts _ _
  · split
    · exact s.refuse_counts _ _
    · exact (s.setLoop_soft l _).counts.take _ _

theorem State.takeHold_counts (s : State) (n : Nat) : Counts s (s.takeHold n) := by
  refine s.lineRequest_counts _ n fun l hd => ?_
  split
  · exact (s.addHold_lawful l _).counts.take _ _
  · exact s.refuse_counts _ _

theorem State.clearRings_seq (s : State) (l k : LineId) : (s.clearRings l).seq k = s.seq k := by
  unfold State.clearRings
  generalize s.lineup l = ts
  induction ts generalizing s with
  | nil => rfl
  | cons t ts ih => exact (ih _).trans (State.modTank_seq _ _ _ _)

theorem LineState.paused_connected {x : LineState} (h : x.paused = true) : x ≠ .disconnected := by
  rintro rfl
  cases h

theorem State.resumeLine_counts (s : State) (l : LineId) (h : (s.seq l).state.paused = true) :
    Counts s (s.resumeLine l) := by
  have cleared := (s.clearRings_lawful l).counts
  have state : (((s.clearRings l).modRate l fun r =>
      { r with target := r.pendingTarget.getD r.target, pendingTarget := none }).seq l).state ≠ .disconnected := by
    rw [State.modRate_seq, State.clearRings_seq]
    exact LineState.paused_connected h
  exact (cleared.trans (.of_same rfl rfl rfl)).trans (State.enterOpening_counts _ l state)

theorem State.takeResume_counts (s : State) (n : Nat) : Counts s (s.takeResume n) := by
  refine s.lineRequest_counts _ n fun l hd => ?_
  simp only []
  split
  · exact s.refuse_counts _ _
  · next h =>
    split
    · exact s.refuse_counts _ _
    · split
      · exact s.refuse_counts _ _
      · split
        · exact s.refuse_counts _ _
        · exact (s.resumeLine_counts l (by simpa using h)).take _ _

theorem State.takeFinish_counts (s : State) (n : Nat) : Counts s (s.takeFinish n) := by
  refine s.lineRequest_counts _ n fun l hd => ?_
  have left := s.leaveDelivering_soft l
  split
  iterate 2
    next h =>
      have finishing := State.enterFinishing_lawful (s.leaveDelivering l) l (by rw [left.seq]; simp [h])
      exact (left.counts.trans (finishing.soft l (State.closeOnProfile_soft _ l)).counts).take _ _
  · next h => exact (s.enterFinishing_lawful l (.inr (.inr h))).counts.take _ _
  · next h =>
    refine Counts.take ((s.clearPermit_lawful l).trans (State.finishLine_lawful _ l ?_ fun g => Seq.trips_nil g ?_ ?_)).counts
      _ _
    all_goals simp [State.clearPermit, h]
  all_goals exact s.refuse_counts _ _

theorem State.takeClear_counts (s : State) (n : Nat) : Counts s (s.takeClear n) := by
  refine s.lineRequest_counts _ n fun l hd => ?_
  split
  · exact s.refuse_counts _ _
  · next h =>
    split
    · exact s.refuse_counts _ _
    · exact (s.clearLine_lawful l (not_not.mp h)).counts.take _ _

/-! ### Requests of the tank watch -/

theorem State.assignTank_counts (s : State) (l : LineId) (k : TankId) : Counts s (s.assignTank l k) := by
  unfold State.assignTank
  split
  · exact .refl
  · simp only []
    have joined : ∀ f : Tank → Tank,
        Counts s (((s.modTankNoticed k f).setLineup l (s.lineup l ++ [k])).notify (.line l)) := fun f =>
      ((s.modTankNoticed_lawful k f).counts.trans (.of_same rfl rfl rfl)).trans (Lawful.refl.notify _).counts
    split
    · exact (joined _).trans (State.dropHold_lawful _ l _).counts
    · exact joined _

theorem State.takeAssign_counts (s : State) (n : Nat) (ts : List NumField) : Counts s (s.takeAssign n ts) := by
  refine s.lineRequest_counts _ n fun l hd => ?_
  split
  · exact s.refuse_counts _ _
  · split
    · exact s.refuse_counts _ _
    · split
      · exact s.refuse_counts _ _
      · split
        · exact s.refuse_counts _ _
        · exact (Counts.foldl (fun t k => t.assignTank_counts l k) _ s).take _ _

theorem State.releaseTank_counts (s : State) (k : TankId) : Counts s (s.releaseTank k) := by
  unfold State.releaseTank
  split
  · exact .refl
  · split
    · exact (s.shiftTank_lawful k _).counts
    all_goals exact (s.listTank_lawful k _).counts

theorem State.releaseTanks_counts (s : State) (ks : List TankId) (hd : List String) : Counts s (s.releaseTanks ks hd) :=
  (Counts.foldl (fun t k => t.releaseTank_counts k) ks s).take _ _

theorem State.takeRelease_counts (s : State) (n : Nat) (ts : TankWords) : Counts s (s.takeRelease n ts) := by
  refine s.lineRequest_counts _ n fun l hd => ?_
  split
  · exact s.refuse_counts _ _
  · split
    · exact s.releaseTanks_counts _ _
    · split
      · exact s.refuse_counts _ _
      · split
        · exact s.refuse_counts _ _
        · split
          · exact s.refuse_counts _ _
          · exact s.releaseTanks_counts _ _

theorem State.fillTank_counts (s : State) (k : TankId) (r : Tank) (n : Nat) : Counts s (s.fillTank k r n) := by
  have stored : Counts s (s.modTankNoticed k fun r => { r with fl := n }) := (s.modTankNoticed_lawful k _).counts
  unfold State.fillTank
  simp only []
  split
  · exact (stored.trans (State.startFilling_lawful _ k).counts).trans (State.evaluate_lawful _ k).counts
  · exact stored

theorem State.takeFill_counts (s : State) (n : Nat) (v : NumField) : Counts s (s.takeFill n v) := by
  refine s.afterStartup_counts _ (s.onTank_counts _ n fun k r => ?_)
  split
  · exact s.refuse_counts _ _
  · exact (s.fillTank_counts k r _).take _ _

theorem State.takeSound_counts (s : State) (n : Nat) (v : NumField) (w : Option ValveWord) :
    Counts s (s.takeSound n v w) := by
  refine s.afterStartup_counts _ ?_
  split
  · exact s.refuse_counts _ _
  · refine s.onTank_counts _ n fun k r => ?_
    split
    · exact (s.levelReport_lawful _).counts.take _ _
    · exact s.refuse_counts _ _

theorem State.takeClearTank_counts (s : State) (n : Nat) : Counts s (s.takeClearTank n) := by
  refine s.afterStartup_counts _ (s.onTank_counts _ n fun k r => ?_)
  simp only []
  split
  · exact s.refuse_counts _ _
  · split
    · exact s.refuse_counts _ _
    · exact ((s.listTank_lawful k _).overfills _).counts.take _ _

/-! ### Requests of the link, the trip unit, the settings and the store -/

theorem State.takeLinkstart_counts (s : State) : Counts s s.takeLinkstart := by
  refine s.afterStartup_counts _ ?_
  split
  · exact s.refuse_counts _ _
  · exact s.beginAcquisition_lawful.counts.take _ _

theorem State.takeGaugingManual_counts (s : State) : Counts s s.takeGaugingManual := by
  refine s.afterStartup_counts _ ?_
  split
  · exact s.toManual_lawful.counts.take _ _
  · exact s.take_counts _ _

theorem State.takeGaugingLinked_counts (s : State) : Counts s s.takeGaugingLinked := by
  refine s.afterStartup_counts _ ?_
  split
  · split
    · exact s.toLinked_lawful.counts.take _ _
    · exact s.take_counts _ _
  · exact s.refuse_counts _ _

theorem State.takeEsd_counts (s : State) : Counts s s.takeEsd :=
  s.afterStartup_counts _ ((s.deviceTrip_lawful _).counts.take _ _)

theorem State.emptyDevice_counts (s : State) : Counts s s.emptyDevice := by
  have emptied := ((Lawful.refl.device (s := s) []).notify .trip).trans (State.setContact_lawful _ .closed)
  refine emptied.counts.trans (Counts.foldl (fun t d => ?_) _ _)
  cases d with
  | esdIn => exact .refl
  | stretchTrip l => exact (t.stretchTripGone_soft l).counts
  | _ => exact (Lawful.refl.gone _ _).counts

theorem State.takeClearAll_counts (s : State) : Counts s s.takeClearAll := by
  refine s.afterStartup_counts _ ?_
  split
  · exact s.refuse_counts _ _
  · have cleared : Counts s ((if s.device = [] then s else s.emptyDevice).eachLine State.clearIfFit) := by
      refine Counts.trans ?_ (State.eachLine_lawful _ _ fun u l => u.clearIfFit_lawful l).counts
      split
      · exact .refl
      · exact s.emptyDevice_counts
    generalize (if s.device = [] then s else s.emptyDevice).eachLine State.clearIfFit = u at cleared
    simp only []
    split
    · exact cleared.take _ _
    · exact s.refuse_counts _ _

theorem State.takeAck_counts (s : State) (os : Option (List ObjectWord)) (ks : Option (List (Option AlarmKind))) :
    Counts s (s.takeAck os ks) := by
  refine s.afterStartup_counts _ ?_
  split
  · exact s.refuse_counts _ _
  · split
    · exact s.refuse_counts _ _
    · refine Counts.take (Counts.trans (.of_same ?_ ?_ ?_) (Counts.foldl (fun _ _ => (Lawful.refl.notify _).counts) _ _)) _ _
      all_goals rfl

theorem State.setOne_counts (s : State) (p : SettingName × Nat) : Counts s (s.setOne p) := by
  have stored : Counts s { s with settings := p.1.store p.2 s.settings } := .of_same rfl rfl rfl
  unfold State.setOne
  simp only []
  split
  · exact stored.trans (Counts.foldl (fun t k => (t.modTank_lawful k _).counts) _ _)
  · exact stored.trans (Counts.foldl (fun t k => (t.judgeChange_lawful k).counts) _ _)
  all_goals exact stored

theorem State.takeSet_counts (s : State) (fs : List Field) : Counts s (s.takeSet fs) := by
  refine s.afterStartup_counts _ ?_
  split
  · exact s.refuse_counts _ _
  · split
    · exact s.refuse_counts _ _
    · exact (Counts.foldl State.setOne_counts _ s).take _ _

theorem State.takeMask_counts (s : State) (ws : List String) : Counts s (s.takeMask ws) := by
  refine s.afterStartup_counts _ ?_
  simp only []
  split
  · exact s.refuse_counts _ _
  · split
    · exact Counts.take (.of_same rfl rfl rfl) _ _
    · exact s.refuse_counts _ _

theorem State.takeLimits_counts (s : State) (n : Nat) (vs : List NumField) : Counts s (s.takeLimits n vs) := by
  refine s.lineRequest_counts _ n fun l hd => ?_
  split
  · exact s.refuse_counts _ _
  · split
    · exact s.refuse_counts _ _
    · split
      · exact s.refuse_counts _ _
      · split
        · exact s.refuse_counts _ _
        · exact Counts.take (.of_same rfl rfl rfl) _ _

theorem State.takeLock_counts (s : State) : Counts s s.takeLock := by
  refine s.afterStartup_counts _ ?_
  split
  · exact s.take_counts _ _
  · exact Counts.take (.of_same rfl rfl rfl) _ _

theorem State.takeUnlock_counts (s : State) : Counts s s.takeUnlock := by
  refine s.afterStartup_counts _ ?_
  split
  · split
    · exact Counts.take (.of_same rfl rfl rfl) _ _
    · exact s.take_counts _ _
  · exact s.refuse_counts _ _

end Sys2Proof.Machine
end

section
/-! SUPPORT. R6: CONNECT and the resets, the records of the console, the loop readings and what time brings; and every
command. -/

namespace Sys2Proof.Machine

/-! ### A record names a request or is answered -/

theorem elim_of {Q : State → Prop} (o : Option Nat) {d : State} {f : Nat → State} (hd : Q d) (hf : ∀ n, Q (f n)) :
    Q (o.elim d f) := by
  cases o with
  | none => exact hd
  | some n => exact hf n

section Dispatch

variable {Q : State → Prop} {s : State} (answers : ∀ fs, Q (s.answer fs))
include answers

theorem State.malformed_of (name args : List String) : Q (s.malformed name args) := by
  unfold State.malformed State.afterStartup
  split <;> exact answers _

theorem State.onLine_of (name : List String) (n : Nat) {body : State → LineId → State} (h : ∀ l, Q (body s l)) :
    Q (s.onLine name n body) := by
  unfold State.onLine
  split
  · exact h _
  · exact answers _

theorem State.afterStartup_of (name : List String) {body : State → State} (h : Q (body s)) :
    Q (s.afterStartup name body) := by
  unfold State.afterStartup
  split
  · exact answers _
  · exact h

theorem State.oneNumber_of (name args : List String) {take : Nat → State} (h : ∀ n, Q (take n)) :
    Q (s.oneNumber name args take) := by
  unfold State.oneNumber
  split
  · split
    · exact h _
    · exact State.malformed_of answers _ _
  · exact State.malformed_of answers _ _

theorem State.noFields_of (name args : List String) {t : State} (h : Q t) : Q (s.noFields name args t) := by
  unfold State.noFields
  split
  · exact h
  · exact State.malformed_of answers _ _

theorem State.numberFirst_of (name args : List String) {take : Nat → List String → State} (h : ∀ n r, Q (take n r)) :
    Q (s.numberFirst name args take) := by
  unfold State.numberFirst
  split
  · split
    · exact h _ _
    · exact State.malformed_of answers _ _
  · exact State.malformed_of answers _ _

theorem lastField_of (name args rest : List String) {take : NumField → State} (h : ∀ n, Q (take n)) :
    Q (lastField s name args rest take) := by
  unfold lastField
  split
  · exact h _
  · exact h _
  · exact State.malformed_of answers _ _

/-- R169 to R171: a READ is answered. -/
theorem State.readFields_of (ws : List String) : Q (s.readFields ws) := by
  unfold State.readFields
  split
  iterate 3 split <;> exact answers _
  · split
    · exact elim_of _ (answers _) fun n => State.onLine_of answers _ _ fun _ => answers _
    · exact answers _
  · split
    · refine elim_of _ (answers _) fun n => ?_
      unfold State.takeReadTank
      split <;> exact answers _
    · exact answers _
  · split
    · exact elim_of _ (answers _) fun n => State.onLine_of answers _ _ fun _ => answers _
    · exact answers _
  · exact answers _

end Dispatch

section Requests

variable {Q : State → Prop} {s : State} (answers : ∀ fs, Q (s.drained.answer fs))
  (requests : ∀ c t, isRequest c = true → exec c s = .next t → Q t)
include answers requests

theorem State.lineFields_of {kw : String} {args : List String} {t : State}
    (h : s.drained.lineFields kw args = some t) : Q t := by
  unfold State.lineFields at h
  split at h
  all_goals cases h
  · refine State.numberFirst_of answers _ _ fun n r => ?_
    split
    · exact elim_of _ (State.malformed_of answers _ _) fun m => requests (.connect n m) _ rfl rfl
    · exact State.malformed_of answers _ _
  · exact State.oneNumber_of answers _ _ fun n => requests (.disconnect n) _ rfl rfl
  · exact State.oneNumber_of answers _ _ fun n => requests (.stroke n) _ rfl rfl
  · refine State.numberFirst_of answers _ _ fun n r => ?_
    split
    · exact requests (.strokeset n none) _ rfl rfl
    · exact elim_of _ (State.malformed_of answers _ _) fun m => requests (.strokeset n (some m)) _ rfl rfl
    · exact State.malformed_of answers _ _
  · refine State.numberFirst_of answers _ _ fun n r => ?_
    split
    · exact requests (.permit n) _ rfl rfl
    · exact requests (.permitConfirm n) _ rfl rfl
    · exact State.malformed_of answers _ _
  · exact State.numberFirst_of answers _ _ fun n r => lastField_of answers _ _ _ fun v => requests (.start n v) _ rfl rfl
  · exact State.numberFirst_of answers _ _ fun n r => lastField_of answers _ _ _ fun v => requests (.rate n v) _ rfl rfl
  · exact State.numberFirst_of answers _ _ fun n r => requests (.loop n _) _ rfl rfl
  · exact State.oneNumber_of answers _ _ fun n => requests (.hold n) _ rfl rfl
  · exact State.oneNumber_of answers _ _ fun n => requests (.resume n) _ rfl rfl
  · exact State.oneNumber_of answers _ _ fun n => requests (.finish n) _ rfl rfl

theorem State.tankFields_of {kw : String} {args : List String} {t : State}
    (h : s.drained.tankFields kw args = some t) : Q t := by
  unfold State.tankFields at h
  split at h
  all_goals cases h
  · exact State.numberFirst_of answers _ _ fun n r => requests (.assign n _) _ rfl rfl
  · refine State.numberFirst_of answers _ _ fun n r => ?_
    split
    · exact requests (.release n _) _ rfl rfl
    · exact requests (.release n _) _ rfl rfl
  · exact State.numberFirst_of answers _ _ fun n r => lastField_of answers _ _ _ fun v => requests (.fill n v) _ rfl rfl
  · refine State.numberFirst_of answers _ _ fun n r => ?_
    split
    iterate 3 exact requests (.sound n _ _) _ rfl rfl
    exact State.malformed_of answers _ _
  · exact State.numberFirst_of answers _ _ fun n r => requests (.limits n _) _ rfl rfl
  · exact State.noFields_of answers _ _ (requests .lock _ rfl rfl)
  · exact State.noFields_of answers _ _ (requests .unlock _ rfl rfl)

theorem State.clearFields_of (ws : List String) : Q (s.drained.clearFields ws) := by
  unfold State.clearFields
  split
  · exact State.malformed_of answers _ _
  · exact State.noFields_of answers _ _ (requests .clearAll _ rfl rfl)
  · exact State.oneNumber_of answers _ _ fun n => requests (.clearTank n) _ rfl rfl
  · split
    · split
      · exact requests (.clear _) _ rfl rfl
      · exact State.malformed_of answers _ _
    · exact answers _

theorem State.systemFields_of {kw : String} {args : List String} {t : State}
    (h : s.drained.systemFields kw args = some t) : Q t := by
  unfold State.systemFields at h
  split at h
  all_goals cases h
  · exact State.readFields_of answers _
  · exact State.noFields_of answers _ _ (requests .linkstart _ rfl rfl)
  · split
    · exact requests .gaugingManual _ rfl rfl
    · exact requests .gaugingLinked _ rfl rfl
    · exact State.malformed_of answers _ _
  · exact State.noFields_of answers _ _ (requests .esd _ rfl rfl)
  · exact State.clearFields_of answers requests _
  · exact requests (.ack _ _) _ rfl rfl
  · exact requests (.set _) _ rfl rfl
  · exact requests (.mask _) _ rfl rfl
  · exact State.noFields_of answers _ _ (requests .restart _ rfl rfl)

/-- R161, R162: what the fields of a record do is a request's doing or an answer. -/
theorem State.takeFields_of (ws : List String) : Q (s.drained.takeFields ws) := by
  unfold State.takeFields
  split
  · exact answers _
  · split
    · exact State.lineFields_of answers requests (by assumption)
    · exact State.tankFields_of answers requests (by assumption)
    · exact State.systemFields_of answers requests (by assumption)
    · exact answers _

end Requests

/-! ### Totals that do not fall while a line stays connected -/

/-- R6: the delivered total of a line connected before and after has not fallen. -/
def TotalsKept (s t : State) : Prop :=
  ∀ l, (s.seq l).state ≠ .disconnected → (t.seq l).state ≠ .disconnected → s.delivered l ≤ t.delivered l

theorem Counts.kept {s t : State} (h : Counts s t) : TotalsKept s t := fun l _ ht => (h l ht).2

/-- The console port is none of what counts. -/
theorem TotalsKept.port {s t : State} {p : Port} (h : TotalsKept { s with port := p } t) : TotalsKept s t := h

theorem TotalsKept.take {s t : State} (h : TotalsKept s t) (a b : List String) : TotalsKept s (t.take a b) := h

/-- R40: the line that connects was disconnected, and the others are not touched. -/
theorem State.connectLine_kept (s : State) (l : LineId) (g : Nat) (h : (s.seq l).state = .disconnected) :
    TotalsKept s (s.connectLine l g) := by
  intro k hk _
  have other : k ≠ l := fun e => hk (e ▸ h)
  rw [State.connectLine_eq s l g h, State.delivered_eq, State.delivered_eq, State.meas, State.meas, vget_vset, if_neg other]
  exact Nat.le_refl _

theorem State.takeConnect_kept (s : State) (n g : Nat) : TotalsKept s (s.takeConnect n g) := by
  have answers : ∀ fs, TotalsKept s (s.answer fs) := fun fs => (s.answer_counts fs).kept
  refine State.afterStartup_of answers _ (State.onLine_of answers _ _ fun l => ?_)
  beta_reduce
  split
  · exact answers _
  · next h =>
    split
    · exact answers _
    · split
      · exact answers _
      · exact (s.connectLine_kept l g (not_not.mp h)).take _ _

/-- R183: no line is connected after a reset. -/
theorem State.resetBlocks_kept (s u : State) : TotalsKept s u.resetBlocks.farAtReset := by
  intro l _ connected
  refine absurd ?_ connected
  rw [State.resetBlocks_far]
  exact congrArg Seq.state (State.resetBlocks_seq u l)

theorem State.takeRestart_kept (s : State) : TotalsKept s s.takeRestart := by
  have answers : ∀ fs, TotalsKept s (s.answer fs) := fun fs => (s.answer_counts fs).kept
  refine State.afterStartup_of answers _ ?_
  split
  · exact answers _
  · exact answers _
  · exact s.resetBlocks_kept _

theorem State.drained_port {s : State} (h : s.port.held = none) : ∃ p, s.drained = { s with port := p } := by
  cases e : s.port.waiting with
  | none => exact ⟨s.port, s.drained_of_none e⟩
  | some r =>
    have gone : s.replyGone = { s with port := { s.port with waiting := none, out := some (written r) } } := by
      simp [State.replyGone, State.sendWaiting, e, h]
    refine ⟨{ s.port with waiting := none, out := some (written r) }, ?_⟩
    rw [State.drained, gone]
    rfl

/-- R6: a request, taken on the state without the reply that waited. -/
theorem request_kept {c : Instr} {s t : State} (held : s.port.held = none) (hc : isRequest c = true)
    (h : exec c s = .next t) : TotalsKept s t := by
  obtain ⟨p, e⟩ := s.drained_port held
  suffices kept : TotalsKept s.drained t by rw [e] at kept; exact kept.port
  generalize hu : s.drained = u
  cases c <;> cases hc <;> cases h <;> rw [hu]
  case connect n g => exact u.takeConnect_kept n g
  case restart => exact u.takeRestart_kept
  case disconnect n => exact (u.takeDisconnect_counts n).kept
  case stroke n => exact (u.takeStroke_counts n).kept
  case strokeset n x => exact (u.takeStrokeset_counts n x).kept
  case permit n => exact (u.takePermitQuery_counts n).kept
  case permitConfirm n => exact (u.takePermitConfirm_counts n).kept
  case start n r => exact (u.takeStart_counts n r).kept
  case rate n r => exact (u.takeRate_counts n r).kept
  case loop n m => exact (u.takeLoop_counts n m).kept
  case hold n => exact (u.takeHold_counts n).kept
  case resume n => exact (u.takeResume_counts n).kept
  case finish n => exact (u.takeFinish_counts n).kept
  case assign n ts => exact (u.takeAssign_counts n ts).kept
  case release n ts => exact (u.takeRelease_counts n ts).kept
  case fill n v => exact (u.takeFill_counts n v).kept
  case sound n v w => exact (u.takeSound_counts n v w).kept
  case linkstart => exact u.takeLinkstart_counts.kept
  case gaugingManual => exact u.takeGaugingManual_counts.kept
  case gaugingLinked => exact u.takeGaugingLinked_counts.kept
  case esd => exact u.takeEsd_counts.kept
  case clear n => exact (u.takeClear_counts n).kept
  case clearAll => exact u.takeClearAll_counts.kept
  case clearTank n => exact (u.takeClearTank_counts n).kept
  case ack os ks => exact (u.takeAck_counts os ks).kept
  case set fs => exact (u.takeSet_counts fs).kept
  case limits n vs => exact (u.takeLimits_counts n vs).kept
  case lock => exact u.takeLock_counts.kept
  case unlock => exact u.takeUnlock_counts.kept
  case mask ws => exact (u.takeMask_counts ws).kept

/-! ### The console's records and notices -/

theorem State.answerLine_kept {s : State} (held : s.port.held = none) (waiting : s.port.waiting = none) (e : EndedLine) :
    TotalsKept s (s.answerLine e) := by
  have answers : ∀ fs, TotalsKept s (s.answer fs) := fun fs => (s.answer_counts fs).kept
  have fields : ∀ ws, TotalsKept s (s.drained.takeFields ws) := State.takeFields_of
    (by rw [s.drained_of_none waiting]; exact answers) fun c t hc h => request_kept held hc h
  rw [s.drained_of_none waiting] at fields
  unfold State.answerLine
  split
  · exact answers _
  · split
    · exact answers _
    · exact fields _

theorem State.lineFeed_kept {s : State} (held : s.port.held = none) (cs : String) : TotalsKept s (s.lineFeed cs) := by
  have cleared : ∀ p, TotalsKept s { s with port := p } := fun p => (Counts.refl (s := s)).kept
  have answered : ∀ e, s.port.waiting = none →
      TotalsKept s (({ s with port := { s.port with rx := "" } }).answerLine e) := fun e waiting =>
    TotalsKept.port (p := { s.port with rx := "" })
      (State.answerLine_kept (s := { s with port := { s.port with rx := "" } }) held waiting e)
  unfold State.lineFeed
  simp only []
  split
  · exact cleared _
  · split
    · next waiting => exact answered _ waiting
    · exact cleared _
    · exact cleared _

theorem State.replyGone_kept {s : State} (held : s.port.held = none) : TotalsKept s s.replyGone := by
  have sent : s.sendWaiting.port.held = none := by
    unfold State.sendWaiting
    split
    · exact held
    · exact held
  unfold State.replyGone
  simp only [sent]
  split
  · exact (Counts.refl (s := s)).kept
  · unfold State.sendWaiting
    split
    · exact (Counts.refl (s := s)).kept
    · exact (Counts.refl (s := s)).kept

theorem State.sendNotice_counts (s : State) : Counts s s.sendNotice := by
  unfold State.sendNotice
  split
  · next n rest _ _ =>
    have sent : Counts s { s with
        notices := rest, port := { s.port with out := some (written ("!" :: s.noticeText n)) } } := .of_same rfl rfl rfl
    refine sent.trans ?_
    cases n with
    | loop l => exact .of_same rfl rfl rfl
    | link => exact .of_same rfl rfl rfl
    | _ => exact .refl
  · exact .refl
  · exact .refl

/-! ### The loop readings -/

theorem State.setLoopReading_counts (s : State) (x : Contact) : Counts s (s.setLoopReading x) := by
  unfold State.setLoopReading
  split
  · exact .refl
  · have read : Counts s { s with esd := { s.esd with loop := x } } := .of_same rfl rfl rfl
    have judged := read.trans ((Lawful.refl.notify .trip).trans (State.judgePumps_lawful _)).counts
    simp only []
    split
    · exact judged.trans (State.eachLine_lawful _ _ fun t l => t.addTrip_lawful l _).counts
    · exact judged

theorem State.setFarReading_counts (s : State) (x : Contact) : Counts s (s.setFarReading x) := by
  unfold State.setFarReading
  split
  · exact .refl
  · have read : Counts s { s with esd := { s.esd with far := x } } := .of_same rfl rfl rfl
    have told := read.trans (Lawful.refl.notify .trip).counts
    simp only []
    split
    · exact told.trans ((State.joinDevice_lawful _ _).raise _ _).counts
    · exact told.trans ((State.leaveDevice_lawful _ _).gone _ _).counts

/-! ### What time brings -/

/-- R7: the fold leaves the total as it was. -/
theorem WriteEnded.counts {s t : State} {w : Write} (h : WriteEnded s t w) (seqs : t.seqs = s.seqs) : Counts s t := by
  intro l connected
  rw [State.seq, seqs] at connected
  refine ⟨connected, ?_⟩
  by_cases e : l = w.line
  · subst e
    rw [t.delivered_eq, h.limits, h.meas, State.foldedMeas]
    split
    · exact Nat.le_add_right _ _
    · next same =>
      rw [s.delivered_eq]
      cases ho : s.limits w.line with
      | none => exact Nat.le_add_right _ _
      | some old =>
        rw [ho] at same
        have factor : old.f = w.record.f := by simpa using same
        exact (congrArg (fun f => (s.meas w.line).dBase + (s.meas w.line).pTot * 100 / f) factor).le
  · have record : t.record l = s.record l := by
      rw [State.record, h.store, vget_vset, if_neg e]; rfl
    have limits : t.limits l = s.limits l := by
      unfold State.limits; rw [record]
    rw [s.delivered_eq, t.delivered_eq, limits, State.meas, State.meas, h.meass, vget_vset, if_neg e]

theorem SameRecords.counts {s t : State} (h : SameRecords s t) (seqs : t.seqs = s.seqs) : Counts s t :=
  .of_same seqs h.meass (congrArg Store.records h.store)

theorem State.tick_counts (s : State) : Counts s s.tick := by
  by_cases h : NoWriteEnd s (s.clock + 1)
  · exact (State.tick_write_of_none h).counts s.tick_keeps.seqs
  · obtain ⟨w, hw, due⟩ := not_forall₂.mp h
    exact (State.tick_write_of_due hw (Nat.not_lt.mp due)).counts s.tick_keeps.seqs

theorem State.passTo_counts (s : State) (m : Nat) : Counts s (s.passTo m) := by
  unfold State.passTo
  generalize m - s.clock = n
  induction n with
  | zero => exact .refl
  | succ n ih => exact ih.trans (State.tick_counts _)

theorem State.judgeWrite_counts (s : State) : Counts s s.judgeWrite := by
  unfold State.judgeWrite
  split
  · split
    · exact (s.endWrite_writeEnded _).counts (by rw [State.endWrite_eq])
    · exact .refl
  · exact .refl

theorem State.judgeStartup_counts (s : State) : Counts s s.judgeStartup :=
  .of_same s.judgeStartup_keeps.seqs (by rw [State.judgeStartup_eq]) (by rw [State.judgeStartup_eq])

theorem State.changeLate_counts (s : State) (k : TankId) : Counts s (s.changeLate k) := by
  unfold State.changeLate
  split
  · exact (s.passTo_counts _).trans (State.judgeChange_lawful _ k).counts
  · exact .refl

theorem State.writeDone_counts (s : State) : Counts s s.writeDone := by
  unfold State.writeDone
  split
  · exact (s.passTo_counts _).trans (State.judgeWrite_counts _)
  · exact .refl

theorem State.startupDone_counts (s : State) : Counts s s.startupDone := by
  unfold State.startupDone
  split
  · exact (s.passTo_counts _).trans (State.judgeStartup_counts _)
  · exact .refl

/-! ### The obligation -/

/-- R6: every command that is no request. -/
theorem event_kept {c : Instr} {s t : State} (held : s.port.held = none) (hc : isRequest c = false)
    (h : exec c s = .next t) : TotalsKept s t := by
  have reads : ∀ f : State → State, (∀ u, Counts u (f u)) → TotalsKept s (f s.drained) := by
    intro f hf
    obtain ⟨p, e⟩ := s.drained_port held
    rw [e]
    exact (hf { s with port := p }).kept.port
  cases c <;> cases hc <;> cases h
  case sampleEvent l x => exact (s.sampleEvent_lawful l x).counts.kept
  case sensorFault l => exact (s.judgeSensorFault_lawful l).counts.kept
  case overpressure l => exact (s.judgeOverpressure_lawful l).counts.kept
  case stretchWarnClear l => exact (s.judgeStretchClear_lawful l).counts.kept
  case stretchTrip l => exact (s.judgeStretchTrip_lawful l).counts.kept
  case enterSteady l => exact (s.judgeSteady_soft l).counts.kept
  case flowUnsteady l => exact (s.judgeUnsteady_soft l).counts.kept
  case trackingCheckFail l => exact (s.judgeTracking_lawful l).counts.kept
  case openTimeout l => exact (s.judgeOpenTimeout_lawful l).counts.kept
  case settleEnd l => exact (s.judgeSettleEnd_soft l).counts.kept
  case closeTimeout l => exact (s.judgeCloseTimeout_lawful l).counts.kept
  case takeover l => exact (s.judgeTakeover_soft l).counts.kept
  case readStatus => exact reads State.takeReadStatus fun u => u.take_counts _ _
  case readTanks => exact reads State.takeReadTanks fun u => u.take_counts _ _
  case readSet => exact reads State.takeReadSet fun u => u.take_counts _ _
  case readLine n =>
    exact reads (State.takeReadLine · n) fun u => State.onLine_of u.answer_counts _ _ fun _ => u.take_counts _ _
  case readLimits n =>
    exact reads (State.takeReadLimits · n) fun u => State.onLine_of u.answer_counts _ _ fun _ => u.take_counts _ _
  case readTank n =>
    refine reads (State.takeReadTank · n) fun u => ?_
    unfold State.takeReadTank
    split
    · exact u.take_counts _ _
    · exact u.refuse_counts _ _
  case recordRejected cs => exact State.lineFeed_kept held cs
  case heldLine cs => exact State.lineFeed_kept held cs
  case replySent => exact State.replyGone_kept held
  case noticeSent => exact s.sendNotice_counts.kept
  case headerReply b => exact (s.takeReply_lawful _ _ b).counts.kept
  case entryReply b => exact (s.takeReply_lawful _ _ b).counts.kept
  case entryReplyMore b => exact (s.takeReply_lawful _ _ b).counts.kept
  case continuation b => exact (s.takeContinuation_lawful b).counts.kept
  case continuationTimeout => exact s.continuationLate_lawful.counts.kept
  case levelReply b => exact (s.takeReply_lawful _ _ b).counts.kept
  case permitReply b => exact (s.takeReply_lawful _ _ b).counts.kept
  case adviceReply b => exact (s.takeReply_lawful _ _ b).counts.kept
  case aliveReply b => exact (s.takeReply_lawful _ _ b).counts.kept
  case replyWindowExpired => exact s.windowOut_lawful.counts.kept
  case linkLost => exact s.judgeLost_lawful.counts.kept
  case linkRecovered => exact s.judgeRecovered_lawful.counts.kept
  case loopReadingChange x => exact (s.setLoopReading_counts x).kept
  case farLoopReadingChange x => exact (s.setFarReading_counts x).kept
  case keyInputChange b => exact (Counts.refl (s := s)).kept
  case changeoverLate k => exact (s.changeLate_counts k).kept
  case limitsWriteEnd => exact s.writeDone_counts.kept
  case powerOn l f => exact s.resetBlocks_kept _
  case resetInput l f => exact s.resetBlocks_kept _
  case startupEnd => exact s.startupDone_counts.kept

/-- Settles O14: each command makes only writes that let no total fall, but for a line that connects by it. -/
theorem totalNeverFalls : Obligations.TotalNeverFalls := by
  unfold Obligations.TotalNeverFalls
  intro c s t l held h before after
  cases hc : isRequest c
  · exact event_kept held hc h l before after
  · exact request_kept held hc h l before after

end Sys2Proof.Machine
end

section
/-! SUPPORT. The drive step of a line that ramps or closes (R24, R27, R28, R46, R50, R54, R57, R77). -/

namespace Sys2Proof.Machine

/-! ### The tracking check -/

theorem State.modDrive_congr (s : State) (l : LineId) {f g : Drive → Drive} (h : f (s.drive l) = g (s.drive l)) :
    s.modDrive l f = s.modDrive l g := by
  unfold State.modDrive; rw [h]

theorem Drive.trackStep_eq (d : Drive) (pos : Option Nat) : d.trackStep pos = { d with track := (d.trackStep pos).track } := by
  unfold Drive.trackStep
  split <;> rfl

/-- R28: the check reads the last position, the stroke time and the timer alone. -/
theorem TracksTo.congr {d e : Drive} {sp : Nat} {pos : Option Nat} {n : Nat} (h : TracksTo d sp pos n)
    (last : e.lastPos = d.lastPos) (stroke : e.tStroke = d.tStroke) (track : e.track = d.track) : TracksTo e sp pos n := by
  unfold TracksTo at h ⊢
  rw [last, stroke, track]
  exact h

/-- R28: the allowance of the check, and the timer it has run to. -/
def State.tracked (s : State) (l : LineId) (n : Nat) : State := s.modDrive l fun d => { d with track := n }

theorem State.modDrive_trackStep {s : State} {l : LineId} {pos : Option Nat} {n : Nat}
    (hn : TracksTo (s.drive l) (s.drive l).setpoint pos n) : s.modDrive l (Drive.trackStep pos) = s.tracked l n := by
  refine s.modDrive_congr l ?_
  rw [Drive.trackStep_eq, ((s.drive l).trackStep_tracks pos).unique hn]

theorem State.tracked_fails (s : State) (l : LineId) (n : Nat) (ht : (s.seq l).state.tracked = true) :
    (s.tracked l n).trackingFails l = decide (20 + ceilDiv ((s.drive l).tStroke.getD 1800) 10 < n) := by
  have drive : (s.tracked l n).drive l = { s.drive l with track := n } := by simp [State.tracked]
  have state : ((s.tracked l n).seq l).state.tracked = true := ht
  rw [State.trackingFails, state, drive]
  rfl

/-- R28: the check of a drive step has passed, and the position's transitions follow. -/
theorem State.trackAndMove_of_passed {s : State} {l : LineId} {pos : Option Nat} {n : Nat}
    (ht : (s.seq l).state.tracked = true) (hn : TracksTo (s.drive l) (s.drive l).setpoint pos n)
    (le : n ≤ 20 + ceilDiv ((s.drive l).tStroke.getD 1800) 10) :
    s.trackAndMove l pos = (s.tracked l n).positionTransition l pos := by
  unfold State.trackAndMove
  rw [if_pos ht, State.modDrive_trackStep hn]
  exact if_neg (by rw [State.tracked_fails s l n ht]; simpa using le)

/-- R28, R29: the check of a drive step has failed. -/
theorem State.trackAndMove_of_failed {s : State} {l : LineId} {pos : Option Nat} {n : Nat}
    (ht : (s.seq l).state.tracked = true) (hn : TracksTo (s.drive l) (s.drive l).setpoint pos n)
    (lt : 20 + ceilDiv ((s.drive l).tStroke.getD 1800) 10 < n) :
    s.trackAndMove l pos = (s.tracked l n).failTracking l := by
  unfold State.trackAndMove
  rw [if_pos ht, State.modDrive_trackStep hn]
  exact if_pos (by rw [State.tracked_fails s l n ht]; simpa using lt)

theorem State.trackAndMove_of_untracked {s : State} {l : LineId} (pos : Option Nat)
    (ht : (s.seq l).state.tracked = false) : s.trackAndMove l pos = s := by
  unfold State.trackAndMove; rw [ht]; rfl

theorem State.tracked_eq (s : State) (l : LineId) (n : Nat) :
    s.tracked l n = { s with drives := vset s.drives l { s.drive l with track := n } } := rfl

/-- R27: the last valid position after a drive step. -/
theorem Drive.keepPos_eq (d : Drive) (pos : Option Nat) : d.keepPos pos = { d with lastPos := (d.keepPos pos).lastPos } := by
  cases pos <;> rfl

/-! ### The ramp step -/

theorem Drive.rampStep_fields (d : Drive) : d.rampStep = { d with setpoint := d.rampStep.setpoint, ramp := d.rampStep.ramp } := by
  unfold Drive.rampStep
  split
  · rfl
  · split
    · rfl
    · split <;> rfl

/-- R24, R64: a ramping line, with its setpoint moved and target_eff formed. -/
def State.rampLine (s : State) (l : LineId) : State := (s.modDrive l Drive.rampStep).formTarget l

theorem State.rampLine_eq {s : State} {l : LineId} (h : (s.seq l).state ≠ .delivering) : s.rampLine l = { s with
    drives := vset s.drives l (s.drive l).rampStep
    rates := vset s.rates l (s.formed l (s.rate l))
    notices := (s.rampLine l).notices } := by
  have e := (s.modDrive l Drive.rampStep).formTarget_eq l
  have formed : (s.modDrive l Drive.rampStep).formed l = s.formed l := rfl
  have meas : ∀ x, (s.modDrive l Drive.rampStep).measAt l x = s.meas l := fun x => if_neg fun g => h g.1
  rw [formed, meas] at e
  unfold State.rampLine
  rw [e]
  apply State.eq_of_fields <;> simp [State.meas, vset_vget]

theorem State.driveStage_ramping {s : State} {l : LineId} (pos : Option Nat)
    (h : (s.seq l).state ∈ [LineState.opening, .holding, .held, .finishing]) :
    s.driveStage l pos = ((s.rampLine l).trackAndMove l pos).modDrive l (Drive.keepPos pos) := by
  unfold State.driveStage State.rampLine
  simp only [List.mem_cons, List.not_mem_nil, or_false] at h
  rcases h with h | h | h | h <;> simp only [h]

theorem State.driveStage_standing {s : State} {l : LineId} (pos : Option Nat)
    (h : (s.seq l).state ∈ [LineState.disconnected, .connected, .tripping, .tripped]) :
    s.driveStage l pos = (s.trackAndMove l pos).modDrive l (Drive.keepPos pos) := by
  unfold State.driveStage
  simp only [List.mem_cons, List.not_mem_nil, or_false] at h
  rcases h with h | h | h | h <;> simp only [h]

/-! ### The transitions on the position -/

/-- R46: entry to DELIVERING, whole. -/
theorem State.enterDelivering_eq (s : State) (l : LineId) : s.enterDelivering l = { s with
    seqs := vset s.seqs l { s.seq l with
      state := .delivering
      pump := (s.seq l).permit && (s.seq l).trips.isEmpty && decide (s.esd.loop = .closed) }
    drives := vset s.drives l { s.drive l with ramp := none, track := 0 }
    rates := vset s.rates l { s.rate l with surgeRun := 0, maxRun := 0, loopWaits := true }
    meass := vset s.meass l { s.meas l with inRun := 0, outRun := 0 }
    notices := (s.enterDelivering l).notices } := by
  apply State.eq_of_fields <;>
    simp [State.enterDelivering, pumpPermit, Drive.release, Drive.trackFrom0]

/-- R50: entry to HELD, whole. -/
theorem State.enterHeld_eq (s : State) (l : LineId) : s.enterHeld l = { s with
    seqs := vset s.seqs l { s.seq l with state := .held, pump := false }
    drives := vset s.drives l { s.drive l with ramp := none, setpoint := 0, track := 0 }
    notices := (s.enterHeld l).notices } := by
  apply State.eq_of_fields <;> simp [State.enterHeld, pumpPermit, Drive.rest, Drive.trackFrom0]

theorem closedPos_iff (pos : Option Nat) : closedPos pos = true ↔ ∃ p, pos = some p ∧ p ≤ 20 := by
  cases pos <;> simp [closedPos]

theorem closedPos_eq_false {pos : Option Nat} (h : ∀ p, pos = some p → 20 < p) : closedPos pos = false := by
  cases pos with
  | none => rfl
  | some p => simpa [closedPos] using h p rfl

end Sys2Proof.Machine
end

section
/-! SUPPORT. What the drive step of a ramping line leaves, whole, outcome by outcome (R46, R50, R54, R57, R64). -/

namespace Sys2Proof.Machine

/-- R27: the last valid position that a drive step leaves. -/
def Drive.lastAfter (d : Drive) (pos : Option Nat) : Option Nat := (d.keepPos pos).lastPos

theorem Drive.keepPos_of {d e : Drive} (pos : Option Nat) (h : e.lastPos = d.lastPos) :
    e.keepPos pos = { e with lastPos := d.lastAfter pos } := by
  unfold Drive.lastAfter
  cases pos with
  | none => cases e; simp_all [Drive.keepPos]
  | some p => rfl

/-- A state whose drive `l` then keeps its position. -/
theorem State.keepPos_eq {s t : State} {l : LineId} {d : Drive} (pos : Option Nat) (h : t.drive l = d)
    (last : d.lastPos = (s.drive l).lastPos) :
    t.modDrive l (Drive.keepPos pos) = { t with drives := vset t.drives l { d with lastPos := (s.drive l).lastAfter pos } } := by
  unfold State.modDrive
  rw [h, Drive.keepPos_of pos last]

section Ramping

variable {v : State} {l : LineId} {pos : Option Nat} {n : Nat}

theorem State.rampLine_line (h : (v.seq l).state ≠ .delivering) : (v.rampLine l).seq l = v.seq l
    ∧ (v.rampLine l).drive l = (v.drive l).rampStep ∧ (v.rampLine l).limits l = v.limits l := by
  rw [State.rampLine_eq h]
  exact ⟨rfl, by simp [State.drive], rfl⟩

theorem Drive.rampStep_kept (d : Drive) : d.rampStep.lastPos = d.lastPos ∧ d.rampStep.tStroke = d.tStroke
    ∧ d.rampStep.track = d.track := by
  rw [Drive.rampStep_fields]
  exact ⟨rfl, rfl, rfl⟩

/-- R28: the check that a ramping line passes or fails is that of its moved setpoint. -/
theorem TracksTo.ramped (hs : (v.seq l).state ≠ .delivering)
    (hn : TracksTo (v.drive l) (v.drive l).rampStep.setpoint pos n) :
    TracksTo ((v.rampLine l).drive l) ((v.rampLine l).drive l).setpoint pos n := by
  obtain ⟨last, stroke, track⟩ := (v.drive l).rampStep_kept
  rw [(State.rampLine_line hs).2.1]
  exact hn.congr last stroke track

theorem LineState.ramping_tracked {st : LineState} (h : st ∈ [LineState.opening, .holding, .finishing]) :
    st.tracked = true ∧ st ≠ .delivering ∧ st ∈ [LineState.opening, .holding, .held, .finishing] := by
  revert h
  cases st <;> decide

theorem State.driveStage_passed (hs : (v.seq l).state ∈ [LineState.opening, .holding, .finishing])
    (hn : TracksTo (v.drive l) (v.drive l).rampStep.setpoint pos n)
    (le : n ≤ 20 + ceilDiv ((v.drive l).tStroke.getD 1800) 10) : v.driveStage l pos =
      ((((v.rampLine l).tracked l n).positionTransition l pos).modDrive l (Drive.keepPos pos)) := by
  obtain ⟨tracked, still, ramping⟩ := LineState.ramping_tracked hs
  obtain ⟨seq, drive, -⟩ := State.rampLine_line still
  obtain ⟨-, stroke, -⟩ := (v.drive l).rampStep_kept
  rw [State.driveStage_ramping pos ramping,
    State.trackAndMove_of_passed (by rw [seq]; exact tracked) (hn.ramped still) (by rw [drive, stroke]; exact le)]

theorem State.driveStage_failed (hs : (v.seq l).state ∈ [LineState.opening, .holding, .finishing])
    (hn : TracksTo (v.drive l) (v.drive l).rampStep.setpoint pos n)
    (lt : 20 + ceilDiv ((v.drive l).tStroke.getD 1800) 10 < n) : v.driveStage l pos =
      ((((v.rampLine l).tracked l n).failTracking l).modDrive l (Drive.keepPos pos)) := by
  obtain ⟨tracked, still, ramping⟩ := LineState.ramping_tracked hs
  obtain ⟨seq, drive, -⟩ := State.rampLine_line still
  obtain ⟨-, stroke, -⟩ := (v.drive l).rampStep_kept
  rw [State.driveStage_ramping pos ramping,
    State.trackAndMove_of_failed (by rw [seq]; exact tracked) (hn.ramped still) (by rw [drive, stroke]; exact lt)]

/-- A ramping line after its check, whole. -/
theorem State.rampLine_tracked_eq (hs : (v.seq l).state ≠ .delivering) (n : Nat) : (v.rampLine l).tracked l n = { v with
    drives := vset v.drives l { (v.drive l).rampStep with track := n }
    rates := vset v.rates l (v.formed l (v.rate l))
    notices := (v.rampLine l).notices } := by
  rw [State.tracked_eq, State.rampLine_eq hs]
  apply State.eq_of_fields <;> simp [State.drive, vset_vset]

theorem State.rampLine_tracked_line (hs : (v.seq l).state ≠ .delivering) (n : Nat) :
    ((v.rampLine l).tracked l n).seq l = v.seq l
      ∧ ((v.rampLine l).tracked l n).drive l = { (v.drive l).rampStep with track := n }
      ∧ ((v.rampLine l).tracked l n).rate l = v.formed l (v.rate l)
      ∧ ((v.rampLine l).tracked l n).limits l = v.limits l := by
  rw [State.rampLine_tracked_eq hs]
  exact ⟨rfl, by simp [State.drive], by simp [State.rate], rfl⟩

/-- R46, R50, R54: the position brings no transition. -/
theorem State.driveStage_goesOn (hs : (v.seq l).state ∈ [LineState.opening, .holding, .finishing])
    (hn : TracksTo (v.drive l) (v.drive l).rampStep.setpoint pos n)
    (le : n ≤ 20 + ceilDiv ((v.drive l).tStroke.getD 1800) 10)
    (far : (v.seq l).state = .opening → ∀ lim p, v.limits l = some lim → pos = some p → 20 < absDiff p lim.startOpening)
    (ajar : (v.seq l).state ≠ .opening → closedPos pos = false) : v.driveStage l pos = { v with
      drives := vset v.drives l { (v.drive l).rampStep with track := n, lastPos := (v.drive l).lastAfter pos }
      rates := vset v.rates l (v.formed l (v.rate l))
      notices := (v.rampLine l).notices } := by
  obtain ⟨-, still, -⟩ := LineState.ramping_tracked hs
  obtain ⟨seq, drive, -, limits⟩ := State.rampLine_tracked_line still n
  have stays : ((v.rampLine l).tracked l n).positionTransition l pos = (v.rampLine l).tracked l n := by
    unfold State.positionTransition
    simp only [List.mem_cons, List.not_mem_nil, or_false] at hs
    rw [seq, limits]
    rcases hs with h | h | h
    · rw [h]
      simp only []
      split
      · next lim p hl => exact if_neg (Nat.not_le.mpr (far h lim p hl rfl))
      · rfl
    · rw [h]; simp [ajar (by rw [h]; decide)]
    · rw [h]; simp [ajar (by rw [h]; decide)]
  rw [State.driveStage_passed hs hn le, stays,
    State.keepPos_eq (s := v) pos drive (v.drive l).rampStep_kept.1, State.rampLine_tracked_eq still]
  apply State.eq_of_fields <;> simp [vset_vset]

/-- R46: the valve has reached the start opening. -/
theorem State.driveStage_delivers (hs : (v.seq l).state = .opening) {lim : Limits} (hl : v.limits l = some lim)
    (hn : TracksTo (v.drive l) (v.drive l).rampStep.setpoint pos n)
    (le : n ≤ 20 + ceilDiv ((v.drive l).tStroke.getD 1800) 10)
    (near : ∃ p, pos = some p ∧ absDiff p lim.startOpening ≤ 20) : v.driveStage l pos = { v with
      seqs := vset v.seqs l { v.seq l with
        state := .delivering
        pump := (v.seq l).permit && (v.seq l).trips.isEmpty && decide (v.esd.loop = .closed) }
      drives := vset v.drives l { (v.drive l).rampStep with ramp := none, track := 0, lastPos := (v.drive l).lastAfter pos }
      rates := vset v.rates l { v.formed l (v.rate l) with surgeRun := 0, maxRun := 0, loopWaits := true }
      meass := vset v.meass l { v.meas l with inRun := 0, outRun := 0 }
      notices := (v.driveStage l pos).notices } := by
  have still : (v.seq l).state ≠ .delivering := by rw [hs]; decide
  obtain ⟨seq, drive, rate, limits⟩ := State.rampLine_tracked_line still n
  have enters : ((v.rampLine l).tracked l n).positionTransition l pos = ((v.rampLine l).tracked l n).enterDelivering l := by
    obtain ⟨p, hp, close⟩ := near
    unfold State.positionTransition
    rw [seq, limits, hs, hl, hp]
    exact if_pos close
  have whole := ((v.rampLine l).tracked l n).enterDelivering_eq l
  rw [seq, drive, rate] at whole
  have stage := State.driveStage_passed (by rw [hs]; decide) hn le
  have entered : (((v.rampLine l).tracked l n).enterDelivering l).drive l =
      { (v.drive l).rampStep with ramp := none, track := 0 } := by
    rw [whole]; simp [State.drive]
  rw [enters, State.keepPos_eq (s := v) pos entered (v.drive l).rampStep_kept.1, whole,
    State.rampLine_tracked_eq still] at stage
  rw [stage]
  apply State.eq_of_fields <;> simp [vset_vset, State.meas]

/-- R50: the valve of a HOLDING line has closed. -/
theorem State.driveStage_held (hs : (v.seq l).state = .holding)
    (hn : TracksTo (v.drive l) (v.drive l).rampStep.setpoint pos n)
    (le : n ≤ 20 + ceilDiv ((v.drive l).tStroke.getD 1800) 10) (shut : closedPos pos = true) : v.driveStage l pos = { v with
      seqs := vset v.seqs l { v.seq l with state := .held, pump := false }
      drives := vset v.drives l { (v.drive l).rampStep with
        ramp := none, setpoint := 0, track := 0, lastPos := (v.drive l).lastAfter pos }
      rates := vset v.rates l (v.formed l (v.rate l))
      notices := (v.driveStage l pos).notices } := by
  have still : (v.seq l).state ≠ .delivering := by rw [hs]; decide
  obtain ⟨seq, drive, rate, -⟩ := State.rampLine_tracked_line still n
  have enters : ((v.rampLine l).tracked l n).positionTransition l pos = ((v.rampLine l).tracked l n).enterHeld l := by
    unfold State.positionTransition
    rw [seq, hs]
    exact if_pos shut
  have whole := ((v.rampLine l).tracked l n).enterHeld_eq l
  rw [seq, drive] at whole
  have entered : (((v.rampLine l).tracked l n).enterHeld l).drive l =
      { (v.drive l).rampStep with ramp := none, setpoint := 0, track := 0 } := by
    rw [whole]; simp [State.drive]
  have stage := State.driveStage_passed (by rw [hs]; decide) hn le
  rw [enters, State.keepPos_eq (s := v) pos entered (v.drive l).rampStep_kept.1, whole,
    State.rampLine_tracked_eq still] at stage
  rw [stage]
  apply State.eq_of_fields <;> simp [vset_vset]

/-- R54: the valve of a FINISHING line has closed: the line as it enters CONNECTED, before its tanks are told. -/
def State.finished (v : State) (l : LineId) (n : Nat) : State := ((v.rampLine l).tracked l n).enterConnected l

theorem State.finished_eq (hs : (v.seq l).state ≠ .delivering) (n : Nat) : v.finished l n = { v with
    seqs := vset v.seqs l { v.seq l with state := .connected, holds := [], pump := false }
    drives := vset v.drives l { (v.drive l).rampStep with ramp := none, setpoint := 0, track := 0 }
    rates := vset v.rates l { v.formed l (v.rate l) with eff := none, governing := none, pendingTarget := none }
    notices := (v.finished l n).notices } := by
  obtain ⟨seq, drive, rate, -⟩ := State.rampLine_tracked_line hs n
  have whole := ((v.rampLine l).tracked l n).enterConnected_eq l
  rw [seq, drive, rate] at whole
  unfold State.finished
  rw [whole, State.rampLine_tracked_eq hs]
  apply State.eq_of_fields <;> simp [vset_vset]

theorem State.driveStage_finished (hs : (v.seq l).state = .finishing)
    (hn : TracksTo (v.drive l) (v.drive l).rampStep.setpoint pos n)
    (le : n ≤ 20 + ceilDiv ((v.drive l).tStroke.getD 1800) 10) (shut : closedPos pos = true) :
    v.driveStage l pos = ((v.finished l n).lineFinished l).modDrive l (Drive.keepPos pos) := by
  have still : (v.seq l).state ≠ .delivering := by rw [hs]; decide
  obtain ⟨seq, -⟩ := State.rampLine_tracked_line still n
  rw [State.driveStage_passed (by rw [hs]; decide) hn le]
  unfold State.positionTransition
  rw [seq, hs]
  simp only [shut, if_true]
  rfl

/-- R77: a HELD line forms target_eff, and its ramp, if any, runs. -/
theorem State.driveStage_paused (hs : (v.seq l).state = .held) : v.driveStage l pos = { v with
      drives := vset v.drives l { (v.drive l).rampStep with lastPos := (v.drive l).lastAfter pos }
      rates := vset v.rates l (v.formed l (v.rate l))
      notices := (v.rampLine l).notices } := by
  have still : (v.seq l).state ≠ .delivering := by rw [hs]; decide
  obtain ⟨seq, drive, -⟩ := State.rampLine_line still
  rw [State.driveStage_ramping pos (by rw [hs]; decide),
    State.trackAndMove_of_untracked pos (by rw [seq, hs]; rfl),
    State.keepPos_eq (s := v) pos drive (v.drive l).rampStep_kept.1, State.rampLine_eq still]
  apply State.eq_of_fields <;> simp [vset_vset]

/-- R55, R56, R29: the check of a ramping line has failed, whether the trip joins or not. -/
theorem State.driveStage_trips (hs : (v.seq l).state ∈ [LineState.opening, .holding, .finishing])
    (hn : TracksTo (v.drive l) (v.drive l).rampStep.setpoint pos n)
    (lt : 20 + ceilDiv ((v.drive l).tStroke.getD 1800) 10 < n) : v.driveStage l pos =
      ((((v.rampLine l).tracked l 0).addTrip l .valveTravel).modDrive l (Drive.keepPos pos)) := by
  obtain ⟨-, still, -⟩ := LineState.ramping_tracked hs
  obtain ⟨seq, drive, -⟩ := State.rampLine_tracked_line still n
  have zero : ((v.rampLine l).tracked l n).modDrive l Drive.trackFrom0 = (v.rampLine l).tracked l 0 := by
    unfold State.modDrive
    rw [drive, State.rampLine_tracked_eq still, State.rampLine_tracked_eq still]
    apply State.eq_of_fields <;> simp [vset_vset, Drive.trackFrom0]
  rw [State.driveStage_failed hs hn lt]
  unfold State.failTracking
  rw [zero, seq]
  simp only [List.mem_cons, List.not_mem_nil, or_false] at hs
  rcases hs with h | h | h <;> rw [h]

end Ramping

end Sys2Proof.Machine
end

section
/-! SUPPORT. The drive step of a line that trips, and of one whose tanks are told that it has finished (R54, R57, R94). -/

namespace Sys2Proof.Machine

/-! ### A line in TRIPPING -/

section Tripping

variable {v : State} {l : LineId} {pos : Option Nat} {n : Nat}

theorem State.tracked_line (v : State) (l : LineId) (n : Nat) : (v.tracked l n).seq l = v.seq l
    ∧ (v.tracked l n).drive l = { v.drive l with track := n } ∧ (v.tracked l n).rate l = v.rate l
    ∧ (v.tracked l n).meas l = v.meas l := by
  rw [State.tracked_eq]
  exact ⟨rfl, by simp [State.drive], rfl, rfl⟩

/-- R57: a line in TRIPPING whose valve has not closed. -/
theorem State.driveStage_tripping (hs : (v.seq l).state = .tripping) (hn : TracksTo (v.drive l) (v.drive l).setpoint pos n)
    (le : n ≤ 20 + ceilDiv ((v.drive l).tStroke.getD 1800) 10) (ajar : closedPos pos = false) :
    v.driveStage l pos = { v with
      drives := vset v.drives l { v.drive l with track := n, lastPos := (v.drive l).lastAfter pos } } := by
  have stays : (v.tracked l n).positionTransition l pos = v.tracked l n := by
    unfold State.positionTransition
    rw [(v.tracked_line l n).1, hs]
    simp [ajar]
  rw [State.driveStage_standing pos (by rw [hs]; decide), State.trackAndMove_of_passed (by rw [hs]; rfl) hn le, stays,
    State.keepPos_eq (s := v) pos (v.tracked_line l n).2.1 rfl, State.tracked_eq]
  apply State.eq_of_fields <;> simp [vset_vset]

/-- R57: a line in TRIPPING whose valve has closed. -/
theorem State.driveStage_tripped (hs : (v.seq l).state = .tripping) (hn : TracksTo (v.drive l) (v.drive l).setpoint pos n)
    (le : n ≤ 20 + ceilDiv ((v.drive l).tStroke.getD 1800) 10) (shut : closedPos pos = true) :
    (v.driveStage l pos).seq l = { v.seq l with state := .tripped, pump := false }
      ∧ (v.driveStage l pos).drive l = { v.drive l with
          ramp := none, setpoint := 0, track := 0, lastPos := (v.drive l).lastAfter pos } := by
  obtain ⟨seq, drive, -⟩ := v.tracked_line l n
  have enters : (v.tracked l n).positionTransition l pos = (v.tracked l n).enterTripped l := by
    unfold State.positionTransition
    rw [seq, hs]
    simp [shut]
  have whole := (v.tracked l n).enterTripped_eq l
  rw [seq, drive] at whole
  have entered : ((v.tracked l n).enterTripped l).drive l = { v.drive l with ramp := none, setpoint := 0, track := 0 } := by
    rw [whole]; simp [State.drive]
  rw [State.driveStage_standing pos (by rw [hs]; decide), State.trackAndMove_of_passed (by rw [hs]; rfl) hn le, enters,
    State.keepPos_eq (s := v) pos entered rfl, whole]
  exact ⟨by simp [State.seq], by simp [State.drive]⟩

/-- R29, R57: the check of a line in TRIPPING has failed. -/
theorem State.driveStage_stuck (hs : (v.seq l).state = .tripping) (hn : TracksTo (v.drive l) (v.drive l).setpoint pos n)
    (lt : 20 + ceilDiv ((v.drive l).tStroke.getD 1800) 10 < n) :
    (v.driveStage l pos).drive l = { v.drive l with
          ramp := none, setpoint := 0, track := 0, lastPos := (v.drive l).lastAfter pos }
      ∧ ((v.driveStage l pos).seq l).state = .tripped
      ∧ TripCause.valveTravel ∈ ((v.driveStage l pos).seq l).trips := by
  obtain ⟨seq, drive, -⟩ := v.tracked_line l n
  have zero : (v.tracked l n).modDrive l Drive.trackFrom0 = v.modDrive l Drive.trackFrom0 := by
    unfold State.modDrive
    rw [drive, State.tracked_eq]
    apply State.eq_of_fields <;> simp [vset_vset, Drive.trackFrom0]
  have fails : (v.tracked l n).failTracking l =
      ((v.modDrive l Drive.trackFrom0).addTrip l .valveTravel).enterTripped l := by
    unfold State.failTracking
    rw [zero, seq, hs]
  obtain ⟨joined, kept, -⟩ := v.addTrip_tracked l .valveTravel (.inl hs)
  have whole := ((v.modDrive l Drive.trackFrom0).addTrip l .valveTravel).enterTripped_eq l
  rw [kept] at whole
  have holds : TripCause.valveTravel ∈ (((v.modDrive l Drive.trackFrom0).addTrip l .valveTravel).seq l).trips := by
    rw [joined]
    split
    · assumption
    · exact mem_setInsert.mpr ⟨tripCause_mem_all _, .inl rfl⟩
  have entered : (((v.modDrive l Drive.trackFrom0).addTrip l .valveTravel).enterTripped l).drive l =
      { v.drive l with ramp := none, setpoint := 0, track := 0 } := by
    rw [whole]; simp [State.drive]
  rw [State.driveStage_standing pos (by rw [hs]; decide), State.trackAndMove_of_failed (by rw [hs]; rfl) hn lt, fails,
    State.keepPos_eq (s := v) pos entered rfl, whole]
  refine ⟨by simp [State.drive], by simp [State.seq], ?_⟩
  rw [State.seq, vget_vset, if_pos rfl]
  exact holds

/-- R2: a line that is not tracked and does not ramp keeps its position alone. -/
theorem State.driveStage_resting (hs : (v.seq l).state ∈ [LineState.disconnected, .connected, .tripped]) :
    v.driveStage l pos = { v with
      drives := vset v.drives l { v.drive l with lastPos := (v.drive l).lastAfter pos } } := by
  have standing : (v.seq l).state ∈ [LineState.disconnected, .connected, .tripping, .tripped]
      ∧ (v.seq l).state.tracked = false := by
    revert hs
    cases (v.seq l).state <;> decide
  rw [State.driveStage_standing pos standing.1, State.trackAndMove_of_untracked pos standing.2]
  exact State.keepPos_eq (s := v) pos rfl rfl

end Tripping

/-! ### A line whose tanks are told of its end -/

/-- R94: what "line finished" leaves of every line, whatever the lineups: its drive, its state, and in the states in which no
target_eff is formed its target_eff. -/
structure EndTold (s t : State) : Prop where
  drives : t.drives = s.drives
  state : ∀ l, (t.seq l).state = (s.seq l).state
  idle : ∀ l, (s.seq l).state.formsTarget = false →
    (t.rate l).eff = (s.rate l).eff ∧ (t.rate l).governing = (s.rate l).governing

theorem EndTold.trans {s t u : State} (a : EndTold s t) (b : EndTold t u) : EndTold s u where
  drives := b.drives.trans a.drives
  state l := (b.state l).trans (a.state l)
  idle l h :=
    have g := b.idle l (by rw [a.state l]; exact h)
    ⟨g.1.trans (a.idle l h).1, g.2.trans (a.idle l h).2⟩

theorem EndTold.of_same {s t : State} (drives : t.drives = s.drives) (seqs : t.seqs = s.seqs) (rates : t.rates = s.rates) :
    EndTold s t :=
  ⟨drives, fun l => by rw [State.seq, seqs]; rfl, fun l _ => by rw [State.rate, rates]; exact ⟨rfl, rfl⟩⟩

theorem EndTold.refl {s : State} : EndTold s s := .of_same rfl rfl rfl

theorem State.moveTank_endTold (s : State) (k : TankId) (st : TankState) : EndTold s (s.moveTank k st) := by
  unfold State.moveTank
  simp only []
  split <;> exact .of_same (by simp) (by simp) (by simp)

theorem State.leaveLineup_endTold (s : State) (k : TankId) : EndTold s (s.leaveLineup k) := by
  unfold State.leaveLineup
  split
  · exact .refl
  · exact .of_same (by simp) (by simp) (by simp)

theorem State.applyPending_endTold (s : State) (k : TankId) : EndTold s (s.applyPending k) := by
  unfold State.applyPending
  split
  · exact .refl
  · exact .of_same (by simp [State.removeTank, State.forgetTank]) (by simp [State.removeTank, State.forgetTank])
      (by simp [State.removeTank, State.forgetTank])
  · exact .of_same (by simp) (by simp) (by simp)

theorem State.leftTopping_idle (s : State) (l : LineId) (top : Bool) (n : Nat) (h : (s.seq l).state.formsTarget = false) :
    (s.leftTopping l top n).eff = (s.rate l).eff ∧ (s.leftTopping l top n).governing = (s.rate l).governing := by
  unfold State.leftTopping State.formed
  rw [h]
  cases top <;> exact ⟨rfl, rfl⟩

theorem State.tellDeparture_endTold (s : State) (l : LineId) (was : TankState) : EndTold s (s.tellDeparture l was) := by
  rw [State.tellDeparture_eq]
  refine ⟨rfl, fun k => ?_, fun k h => ?_⟩
  · by_cases e : k = l
    · subst e
      simp only [State.seq, vget_vset, if_true]
      unfold State.leftFull
      split <;> rfl
    · simp [State.seq, vget_vset, e]
  · by_cases e : k = l
    · subst e
      simp only [State.rate, vget_vset, if_true]
      exact s.leftTopping_idle k _ _ h
    · simp [State.rate, vget_vset, e]

theorem State.listTank_endTold (s : State) (k : TankId) (b : Bool) : EndTold s (s.listTank k b) := by
  unfold State.listTank
  split
  · exact .refl
  · have out : EndTold s (((s.moveTank k .listed).leaveLineup k).modTankNoticed k
        fun x => { x with topped := x.topped || b }) :=
      ((s.moveTank_endTold k .listed).trans (State.leaveLineup_endTold _ k)).trans (.of_same (by simp) (by simp) (by simp))
    simp only []
    refine EndTold.trans ?_ (State.applyPending_endTold _ k)
    split
    · exact out.trans (State.tellDeparture_endTold _ _ _)
    · exact out

theorem State.shiftTank_endTold (s : State) (k : TankId) (st : TankState) : EndTold s (s.shiftTank k st) := by
  unfold State.shiftTank
  split
  · exact .refl
  · simp only []
    split
    · split
      · exact s.moveTank_endTold k st
      · exact (s.moveTank_endTold k st).trans (State.tellDeparture_endTold _ _ _)
    · exact s.moveTank_endTold k st

/-- R94: "line finished". -/
theorem State.lineFinished_endTold (s : State) (l : LineId) : EndTold s (s.lineFinished l) := by
  unfold State.lineFinished
  generalize s.lineup l = ks
  induction ks generalizing s with
  | nil => exact .refl
  | cons k ks ih =>
    refine EndTold.trans ?_ (ih (s.finishTank k))
    unfold State.finishTank
    split
    · exact s.listTank_endTold k false
    · exact s.shiftTank_endTold k .releasing

end Sys2Proof.Machine
end

section
/-! SUPPORT. The outcomes of the drive step of a ramping line, read off line by line (R29, R46, R50, R54 to R57, R64, R94). -/

namespace Sys2Proof.Machine

section Ramping

variable {v : State} {l : LineId} {pos : Option Nat} {n : Nat}

/-! ### The end of a FINISHING line -/

/-- R94: the line that has finished, after its tanks are told. -/
theorem State.finished_told (hs : (v.seq l).state = .finishing)
    (hn : TracksTo (v.drive l) (v.drive l).rampStep.setpoint pos n)
    (le : n ≤ 20 + ceilDiv ((v.drive l).tStroke.getD 1800) 10) (shut : closedPos pos = true) :
    (v.driveStage l pos).drive l = { (v.drive l).rampStep with
        ramp := none, setpoint := 0, track := 0, lastPos := (v.drive l).lastAfter pos }
      ∧ ((v.driveStage l pos).seq l).state = .connected
      ∧ ((v.driveStage l pos).rate l).eff = none ∧ ((v.driveStage l pos).rate l).governing = none := by
  have still : (v.seq l).state ≠ .delivering := by rw [hs]; decide
  have whole := State.finished_eq still n
  have told := (v.finished l n).lineFinished_endTold l
  have stage := State.driveStage_finished hs hn le shut
  generalize (v.finished l n).lineFinished l = t at told stage
  generalize v.finished l n = w at whole told
  have drive : w.drive l = { (v.drive l).rampStep with ramp := none, setpoint := 0, track := 0 } :=
    State.drive_of_drives (congrArg State.drives whole)
  have rested : t.drive l = { (v.drive l).rampStep with ramp := none, setpoint := 0, track := 0 } := by
    rw [State.drive, told.drives]; exact drive
  have seq : w.seq l = { v.seq l with state := .connected, holds := [], pump := false } :=
    State.seq_of_seqs (congrArg State.seqs whole)
  have rate : w.rate l = { v.formed l (v.rate l) with eff := none, governing := none, pendingTarget := none } :=
    State.rate_of_rates (congrArg State.rates whole)
  obtain ⟨eff, governing⟩ := told.idle l (by rw [seq]; rfl)
  rw [stage]
  refine ⟨?_, (told.state l).trans (by rw [seq]), eff.trans (by rw [rate]), governing.trans (by rw [rate])⟩
  rw [State.modDrive_drive, if_pos rfl, rested]
  exact Drive.keepPos_of pos (v.drive l).rampStep_kept.1

/-- R54, R94: with sound lineups, the line and each tank of its lineup. -/
theorem State.finished_tanks (hs : (v.seq l).state = .finishing)
    (hn : TracksTo (v.drive l) (v.drive l).rampStep.setpoint pos n)
    (le : n ≤ 20 + ceilDiv ((v.drive l).tStroke.getD 1800) 10) (shut : closedPos pos = true) (sound : LineupsSound v) :
    ∃ t, v.driveStage l pos = t.modDrive l (Drive.keepPos pos)
      ∧ Departed (fun r => decide (r.valve = .closed)) l (v.lineup l) (v.finished l n) t := by
  have still : (v.seq l).state ≠ .delivering := by rw [hs]; decide
  have whole := State.finished_eq still n
  have lineup : (v.finished l n).lineup l = v.lineup l := by rw [whole]; rfl
  refine ⟨_, State.driveStage_finished hs hn le shut, ?_⟩
  rw [State.lineFinished_eq, lineup]
  refine Departed.foldl _ (sound.2.2 l) fun k hk => ?_
  have tank : (v.finished l n).tank k = v.tank k := by rw [whole]; rfl
  rw [tank]
  exact sound.record hk

/-- R54, R47: the sequence state of the line that has finished, and its tanks. -/
theorem Departed.ofFinished {t : State} (hs : (v.seq l).state ≠ .delivering)
    (h : Departed (fun r => decide (r.valve = .closed)) l (v.lineup l) (v.finished l n) t) :
    t.seq l = { v.seq l with state := .connected, holds := [], pump := false }
      ∧ ∀ k ∈ v.lineup l, ∀ r, v.tank k = some r → TankFinished v t l k r := by
  have whole := State.finished_eq hs n
  generalize v.finished l n = w at h whole
  have lineup : w.lineup l = v.lineup l := by rw [whole]; rfl
  have seq : w.seq l = { v.seq l with state := .connected, holds := [], pump := false } :=
    State.seq_of_seqs (congrArg State.seqs whole)
  obtain ⟨-, told, -⟩ := h.line
  refine ⟨?_, fun k hk r hr => ?_⟩
  · rw [told]
    unfold State.leftFull
    rw [seq]
    split
    · simp [setErase, pumpPermit]
    · rfl
  · have tank : w.tank k = v.tank k := by rw [whole]; rfl
    have clock : w.clock = v.clock := by rw [whole]
    rw [← lineup] at h hk
    have finished := h.finished hk (tank.trans hr)
    unfold TankFinished at finished ⊢
    rw [clock] at finished
    exact finished

/-! ### A trip by the check -/

/-- R27: the drive of a line that trips within a drive step keeps the position of the event. -/
theorem LineTrips.keepPos {s t : State} {c : TripCause} {last : Option Nat} (h : LineTrips s t l c last) (pos : Option Nat)
    {d : Drive} (hd : last = d.lastPos) : LineTrips s (t.modDrive l (Drive.keepPos pos)) l c (d.lastAfter pos) := by
  obtain ⟨hseq, hdrive, rest⟩ := h
  refine ⟨hseq, ?_, rest⟩
  rw [State.modDrive_drive, if_pos rfl, hdrive]
  subst hd
  cases pos <;> rfl

/-- R29, R55, R56: the check of a ramping line has failed, and VALVE_TRAVEL joins. -/
theorem State.driveStage_trippingBy (hs : (v.seq l).state ∈ [LineState.opening, .holding, .finishing])
    (hn : TracksTo (v.drive l) (v.drive l).rampStep.setpoint pos n)
    (lt : 20 + ceilDiv ((v.drive l).tStroke.getD 1800) 10 < n) (hc : TripCause.valveTravel ∉ (v.seq l).trips) :
    TrippingBy v (v.driveStage l pos) l .valveTravel ((v.drive l).lastAfter pos) := by
  obtain ⟨-, still, -⟩ := LineState.ramping_tracked hs
  obtain ⟨seq, drive, rate, -⟩ := State.rampLine_tracked_line still 0
  have trips : (v.seq l).state.trips = true := by
    revert hs
    cases (v.seq l).state <;> decide
  have before : Own l v ((v.rampLine l).tracked l 0) := by
    refine Own.trans ?_ (Own.refl.drive _)
    exact (Own.refl.drive _).trans (State.formTarget_soft _ l).own
  obtain ⟨trip, -, lineup⟩ := ((v.rampLine l).tracked l 0).addTrip_trippingBy l .valveTravel
    (by rw [seq]; exact trips) (by rw [seq]; exact hc)
  have own := (before.trans (State.addTrip_own _ l .valveTravel)).drive (Drive.keepPos pos)
  rw [State.driveStage_trips hs hn lt]
  refine ⟨?_, own.only, ?_⟩
  · refine (trip.keepPos pos (d := v.drive l) ?_).of_before ?_ ?_ ?_ ?_ ?_ ?_
    · rw [drive]; exact (v.drive l).rampStep_kept.1
    · rw [seq]
    · rw [drive, Drive.rampStep_fields]; rfl
    · rw [rate]
      unfold State.formed
      split <;> rfl
    · rw [State.rampLine_tracked_eq still]; rfl
    · exact before.distinct
    · exact before.elsewhere.port
  · exact lineup.trans (by rw [State.rampLine_tracked_eq still]; rfl)

/-- R55: the check of a ramping line that holds VALVE_TRAVEL already has failed. -/
theorem State.driveStage_held_cause (hs : (v.seq l).state ∈ [LineState.opening, .holding, .finishing])
    (hn : TracksTo (v.drive l) (v.drive l).rampStep.setpoint pos n)
    (lt : 20 + ceilDiv ((v.drive l).tStroke.getD 1800) 10 < n) (hc : TripCause.valveTravel ∈ (v.seq l).trips) :
    v.driveStage l pos = ((v.rampLine l).tracked l 0).modDrive l (Drive.keepPos pos) := by
  obtain ⟨-, still, -⟩ := LineState.ramping_tracked hs
  rw [State.driveStage_trips hs hn lt, State.addTrip_eq_self _ l _ (.inr ?_)]
  rw [(State.rampLine_tracked_line still 0).1]
  exact hc

/-! ### target_eff at the drive step -/

/-- R64: target_eff at the drive step of a line that is not in DELIVERING, by the state that the step leaves. -/
structure TargetAtStep (v u : State) (l : LineId) : Prop where
  stays : (u.seq l).state = (v.seq l).state ∨ (u.seq l).state = .held →
    u.rate l = v.formed l (v.rate l) ∧ u.meas l = v.meas l
  delivers : (u.seq l).state = .delivering →
    u.rate l = { v.formed l (v.rate l) with surgeRun := 0, maxRun := 0, loopWaits := true }
  ends : (u.seq l).state ∈ [LineState.connected, .tripping] → (u.rate l).eff = none ∧ (u.rate l).governing = none

/-- The step leaves the line in a state in which target_eff stands. -/
theorem TargetAtStep.of_stays {u : State} (hu : (u.seq l).state ∈ [LineState.opening, .holding, .held, .finishing])
    (h : u.rate l = v.formed l (v.rate l) ∧ u.meas l = v.meas l) : TargetAtStep v u l := by
  refine ⟨fun _ => h, fun e => ?_, fun e => ?_⟩
  · rw [e] at hu; simp at hu
  · revert hu e
    cases (u.seq l).state <;> simp

/-- The step leaves the line in a state in which target_eff is absent. -/
theorem TargetAtStep.of_ends {u : State} (hv : (v.seq l).state ∈ [LineState.opening, .holding, .held, .finishing])
    (hu : (u.seq l).state ∈ [LineState.connected, .tripping])
    (h : (u.rate l).eff = none ∧ (u.rate l).governing = none) : TargetAtStep v u l := by
  refine ⟨fun e => ?_, fun e => ?_, fun _ => h⟩
  · have away : (u.seq l).state ∉ [LineState.opening, .holding, .held, .finishing] := by
      revert hu
      cases (u.seq l).state <;> simp
    exact absurd (e.elim (fun same => same ▸ hv) fun held => by rw [held]; simp) away
  · rw [e] at hu; simp at hu

/-- R64, R65, R76: target_eff by the outcome of the check and the position. -/
theorem State.driveStage_target (hs : (v.seq l).state ∈ [LineState.opening, .holding, .held, .finishing]) {lim : Limits}
    (hl : v.limits l = some lim) : TargetAtStep v (v.driveStage l pos) l := by
  obtain ⟨last, stroke, track⟩ := (v.drive l).rampStep_kept
  obtain ⟨n, hn⟩ : ∃ n, TracksTo (v.drive l) (v.drive l).rampStep.setpoint pos n :=
    ⟨_, ((v.drive l).rampStep.trackStep_tracks pos).congr last.symm stroke.symm track.symm⟩
  by_cases paused : (v.seq l).state = .held
  · have whole := State.driveStage_paused (pos := pos) paused
    refine .of_stays ?_ ?_
    · rw [State.seq, whole]
      exact hs
    · rw [whole]
      exact ⟨by simp [State.rate], rfl⟩
  have moving : (v.seq l).state ∈ [LineState.opening, .holding, .finishing] := by
    revert hs paused
    cases (v.seq l).state <;> simp
  obtain ⟨-, still, -⟩ := LineState.ramping_tracked moving
  rcases Nat.lt_or_ge (20 + ceilDiv ((v.drive l).tStroke.getD 1800) 10) n with lt | le
  · by_cases hc : TripCause.valveTravel ∈ (v.seq l).trips
    · have whole := State.driveStage_held_cause moving hn lt hc
      obtain ⟨seq, -, rate, -⟩ := State.rampLine_tracked_line still 0
      rw [whole]
      exact .of_stays (seq ▸ hs) ⟨rate, by rw [State.rampLine_tracked_eq still]; rfl⟩
    · obtain ⟨⟨seq, -, rate, -⟩, -, -⟩ := State.driveStage_trippingBy moving hn lt hc
      refine .of_ends hs ?_ ?_
      · rw [seq]; simp
      · rw [rate]; exact ⟨rfl, rfl⟩
  · have goesOn : (∀ lim p, v.limits l = some lim → pos = some p → (v.seq l).state = .opening →
        20 < absDiff p lim.startOpening) → ((v.seq l).state ≠ .opening → closedPos pos = false) →
        TargetAtStep v (v.driveStage l pos) l := fun far ajar => by
      have whole := State.driveStage_goesOn moving hn le (fun e lim p hl hp => far lim p hl hp e) ajar
      refine .of_stays ?_ ?_
      · rw [State.seq, whole]
        exact hs
      · rw [whole]
        exact ⟨by simp [State.rate], rfl⟩
    by_cases opening : (v.seq l).state = .opening
    · by_cases near : ∃ p, pos = some p ∧ absDiff p lim.startOpening ≤ 20
      · have whole := State.driveStage_delivers opening hl hn le near
        have seq := State.seq_of_seqs (congrArg State.seqs whole)
        have rate := State.rate_of_rates (congrArg State.rates whole)
        refine ⟨fun e => ?_, fun _ => rate, fun e => ?_⟩
        · rw [seq, opening] at e; simp at e
        · rw [seq] at e; simp at e
      · refine goesOn (fun lim' p hl' hp _ => ?_) fun e => absurd opening e
        cases hl.symm.trans hl'
        exact Nat.not_le.mp fun c => near ⟨p, hp, c⟩
    · by_cases shut : closedPos pos = true
      · by_cases holding : (v.seq l).state = .holding
        · have whole := State.driveStage_held holding hn le shut
          have seq := State.seq_of_seqs (congrArg State.seqs whole)
          refine .of_stays (by rw [seq]; simp) ⟨State.rate_of_rates (congrArg State.rates whole), ?_⟩
          rw [State.meas, whole]
          rfl
        · have finishing : (v.seq l).state = .finishing := by
            revert moving opening holding
            cases (v.seq l).state <;> simp
          obtain ⟨-, connected, none⟩ := State.finished_told finishing hn le shut
          exact .of_ends hs (by rw [connected]; simp) none
      · exact goesOn (fun _ _ _ _ e => absurd e opening) fun _ => by simpa using shut

end Ramping

end Sys2Proof.Machine
end

section
/-! SUPPORT. The drive step of a line in DELIVERING: takeover, target_eff, the loop step and the check (R64 to R70, R28, R29). -/

namespace Sys2Proof.Machine

/-! ### Takeover -/

/-- R69, R70: rate-control state after the takeover of a drive step, its runs counted. -/
def Rate.takenOver (r : Rate) : Rate :=
  if r.mode = .auto then r
  else r.takeoverReason.elim r fun why => { r with mode := .auto, opening := none, surgeRun := 0, maxRun := 0, mark := some why }

theorem Rate.takenOver_eff (r : Rate) : r.takenOver.eff = r.eff ∧ r.takenOver.target = r.target
    ∧ r.takenOver.throttle = r.throttle := by
  unfold Rate.takenOver
  split
  · exact ⟨rfl, rfl, rfl⟩
  · cases r.takeoverReason <;> exact ⟨rfl, rfl, rfl⟩

/-- R69: the runs of a line counted at a drive step. -/
def State.countedRate (s : State) (l : LineId) : Rate :=
  (s.rate l).countRuns (s.meas l).q (s.meas l).qSurge ((s.limits l).map (·.qMax))

/-- R69, R70: a line in DELIVERING with its runs counted and its loop taken over. -/
def State.loopJudged (s : State) (l : LineId) : State := (s.modRate l fun _ => s.countedRate l).judgeTakeover l

theorem State.loopJudged_eq {s : State} {l : LineId} (h : (s.seq l).state = .delivering) : s.loopJudged l = { s with
    rates := vset s.rates l (s.countedRate l).takenOver, notices := (s.loopJudged l).notices } := by
  have waits : (s.countedRate l).loopWaits = false := rfl
  have rate : (s.modRate l fun _ => s.countedRate l).rate l = s.countedRate l := by simp
  have state : ((s.modRate l fun _ => s.countedRate l).seq l).state = .delivering := h
  unfold State.loopJudged State.judgeTakeover Rate.takenOver
  simp only [rate, state, waits, true_and, and_true]
  by_cases auto : (s.countedRate l).mode = .auto
  · simp [auto, State.modRate]
  · rw [if_pos auto, if_neg auto]
    cases (s.countedRate l).takeoverReason with
    | none => rfl
    | some why => apply State.eq_of_fields <;> simp [State.takeOver, State.rate, vset_vset, waits]

/-! ### The loop step -/

/-- R64, R69: rate-control state at the loop step. -/
def State.loopRate (s : State) (l : LineId) : Rate := s.formed l (s.countedRate l).takenOver

/-- R66: the setpoint that the loop gives. -/
def State.loopSp (s : State) (l : LineId) (lim : Limits) : Nat :=
  loopSetpoint (s.loopRate l) (s.meas l).q lim.loopStep (s.drive l).setpoint

/-- R66: a step that leaves the setpoint where it stands gives no order. -/
def State.loopDrive (s : State) (l : LineId) (lim : Limits) : Drive :=
  { s.drive l with
    setpoint := s.loopSp l lim
    ramp := if s.loopSp l lim = (s.drive l).setpoint then (s.drive l).ramp else none }

theorem State.loopFormed_eq {s : State} {l : LineId} (h : (s.seq l).state = .delivering) :
    (s.loopJudged l).formTarget l = { s with
      rates := vset s.rates l (s.loopRate l)
      meass := vset s.meass l (s.measAt l (s.loopRate l).eff)
      notices := ((s.loopJudged l).formTarget l).notices } := by
  have judged := State.loopJudged_eq h
  have e := (s.loopJudged l).formTarget_eq l
  have rate : (s.loopJudged l).rate l = (s.countedRate l).takenOver := State.rate_of_rates (congrArg State.rates judged)
  have formed : (s.loopJudged l).formed l = s.formed l := by rw [judged]; rfl
  have meas : (s.loopJudged l).measAt l = s.measAt l := by
    funext x
    have eff : ((s.loopJudged l).rate l).eff = (s.rate l).eff := by rw [rate]; exact (Rate.takenOver_eff _).1
    have seq : (s.loopJudged l).seq l = s.seq l := by rw [judged]; rfl
    have same : (s.loopJudged l).meas l = s.meas l := by rw [judged]; rfl
    unfold State.measAt
    rw [eff, seq, same]
  rw [rate, formed, meas] at e
  rw [e, judged]
  apply State.eq_of_fields <;> simp [State.loopRate, vset_vset]

/-- R66: the loop step, whole. -/
theorem State.rateLoopStep_eq {s : State} {l : LineId} {lim : Limits} (h : (s.seq l).state = .delivering)
    (hl : s.limits l = some lim) : s.rateLoopStep l = { s with
      drives := vset s.drives l (s.loopDrive l lim)
      rates := vset s.rates l (s.loopRate l)
      meass := vset s.meass l (s.measAt l (s.loopRate l).eff)
      notices := (s.rateLoopStep l).notices } := by
  have e : s.rateLoopStep l = ((s.loopJudged l).formTarget l).loopStep l := rfl
  have formed := State.loopFormed_eq h
  rw [e]
  generalize (s.loopJudged l).formTarget l = f at formed
  have limits : f.limits l = some lim := by rw [formed]; exact hl
  have drive : f.drive l = s.drive l := by rw [formed]; rfl
  have rate : f.rate l = s.loopRate l := State.rate_of_rates (congrArg State.rates formed)
  have q : (f.meas l).q = (s.meas l).q := by
    rw [State.meas_of_meass (congrArg State.meass formed), State.measAt]
    split <;> rfl
  unfold State.loopStep State.loopDrive
  rw [limits, rate, q, drive]
  simp only []
  by_cases stands : s.loopSp l lim = (s.drive l).setpoint
  · have stays : loopSetpoint (s.loopRate l) (s.meas l).q lim.loopStep (s.drive l).setpoint = (s.drive l).setpoint := stands
    have same : vset s.drives l { s.drive l with setpoint := (s.drive l).setpoint, ramp := (s.drive l).ramp } = s.drives :=
      vset_vget _ _
    rw [if_pos stays, if_pos stands, stands, same, formed]
  · have moves : ¬ loopSetpoint (s.loopRate l) (s.meas l).q lim.loopStep (s.drive l).setpoint = (s.drive l).setpoint := stands
    rw [if_neg moves, if_neg stands, formed]
    apply State.eq_of_fields <;> simp [Drive.adjust, State.loopSp, State.drive]

section Delivering

variable {v : State} {l : LineId} {pos : Option Nat} {n : Nat} {lim : Limits}

/-- The line after the loop step and the check, whole. -/
theorem State.rateLoopStep_tracked_eq (hs : (v.seq l).state = .delivering) (hl : v.limits l = some lim) (n : Nat) :
    (v.rateLoopStep l).tracked l n = { v with
      drives := vset v.drives l { v.loopDrive l lim with track := n }
      rates := vset v.rates l (v.loopRate l)
      meass := vset v.meass l (v.measAt l (v.loopRate l).eff)
      notices := (v.rateLoopStep l).notices } := by
  rw [State.tracked_eq, State.rateLoopStep_eq hs hl]
  apply State.eq_of_fields <;> simp [State.drive, vset_vset]

theorem State.driveStage_delivering (hs : (v.seq l).state = .delivering) :
    v.driveStage l pos = ((v.rateLoopStep l).trackAndMove l pos).modDrive l (Drive.keepPos pos) := by
  unfold State.driveStage
  simp only [hs]

theorem TracksTo.looped (hs : (v.seq l).state = .delivering) (hl : v.limits l = some lim)
    (hn : TracksTo (v.drive l) (v.loopSp l lim) pos n) :
    TracksTo ((v.rateLoopStep l).drive l) ((v.rateLoopStep l).drive l).setpoint pos n
      ∧ ((v.rateLoopStep l).drive l).tStroke = (v.drive l).tStroke ∧ (v.rateLoopStep l).seq l = v.seq l := by
  have whole := State.rateLoopStep_eq hs hl
  have drive := State.drive_of_drives (congrArg State.drives whole)
  rw [drive]
  exact ⟨hn.congr rfl rfl rfl, rfl, by rw [whole]; rfl⟩

/-- R66, R67, R68: the check has passed, and the line stays in DELIVERING. -/
theorem State.driveStage_loops (hs : (v.seq l).state = .delivering) (hl : v.limits l = some lim)
    (hn : TracksTo (v.drive l) (v.loopSp l lim) pos n) (le : n ≤ 20 + ceilDiv ((v.drive l).tStroke.getD 1800) 10) :
    v.driveStage l pos = { v with
      drives := vset v.drives l { v.loopDrive l lim with track := n, lastPos := (v.drive l).lastAfter pos }
      rates := vset v.rates l (v.loopRate l)
      meass := vset v.meass l (v.measAt l (v.loopRate l).eff)
      notices := (v.rateLoopStep l).notices } := by
  obtain ⟨hn, stroke, seq⟩ := hn.looped hs hl
  have whole := State.rateLoopStep_tracked_eq hs hl n
  have drive := State.drive_of_drives (congrArg State.drives whole)
  have stays : ((v.rateLoopStep l).tracked l n).positionTransition l pos = (v.rateLoopStep l).tracked l n := by
    unfold State.positionTransition
    rw [((v.rateLoopStep l).tracked_line l n).1, seq, hs]
  rw [State.driveStage_delivering hs, State.trackAndMove_of_passed (by rw [seq, hs]; rfl) hn (by rw [stroke]; exact le), stays,
    State.keepPos_eq (s := v) pos drive rfl, whole]
  apply State.eq_of_fields <;> simp [vset_vset]

/-- R29, R55, R56: the check of a line in DELIVERING has failed; the takeover of the step stands. -/
theorem State.driveStage_loop_trips (hs : (v.seq l).state = .delivering) (hl : v.limits l = some lim)
    (hn : TracksTo (v.drive l) (v.loopSp l lim) pos n) (lt : 20 + ceilDiv ((v.drive l).tStroke.getD 1800) 10 < n)
    (hc : TripCause.valveTravel ∉ (v.seq l).trips) {x : Rate}
    (hx : trippedRate .delivering (v.loopRate l) = trippedRate .delivering x) :
    TrippingBy { v with rates := vset v.rates l x } (v.driveStage l pos) l .valveTravel ((v.drive l).lastAfter pos) := by
  obtain ⟨hn, stroke, seq⟩ := hn.looped hs hl
  have zero : ((v.rateLoopStep l).tracked l n).modDrive l Drive.trackFrom0 = (v.rateLoopStep l).tracked l 0 := by
    unfold State.modDrive
    rw [((v.rateLoopStep l).tracked_line l n).2.1, State.tracked_eq, State.tracked_eq]
    apply State.eq_of_fields <;> simp [vset_vset, Drive.trackFrom0]
  have fails : ((v.rateLoopStep l).tracked l n).failTracking l = ((v.rateLoopStep l).tracked l 0).addTrip l .valveTravel := by
    unfold State.failTracking
    rw [zero, ((v.rateLoopStep l).tracked_line l n).1, seq, hs]
  have before : Own l v ((v.rateLoopStep l).tracked l 0) := (v.rateLoopStep_soft l).own.drive _
  have whole := State.rateLoopStep_tracked_eq hs hl 0
  have seq₀ : ((v.rateLoopStep l).tracked l 0).seq l = v.seq l := by rw [whole]; rfl
  obtain ⟨trip, -, lineup⟩ := ((v.rateLoopStep l).tracked l 0).addTrip_trippingBy l .valveTravel
    (by rw [seq₀, hs]; rfl) (by rw [seq₀]; exact hc)
  have own := (before.trans (State.addTrip_own _ l .valveTravel)).drive (Drive.keepPos pos)
  have lineup₀ : ((v.rateLoopStep l).tracked l 0).lineup l = v.lineup l := by rw [whole]; rfl
  have drive₀ := State.drive_of_drives (congrArg State.drives whole)
  have rate₀ := State.rate_of_rates (congrArg State.rates whole)
  have meas₀ := State.meas_of_meass (congrArg State.meass whole)
  rw [State.driveStage_delivering hs, State.trackAndMove_of_failed (by rw [seq, hs]; rfl) hn (by rw [stroke]; exact lt), fails]
  refine ⟨?_, fun k hk => ?_, ?_⟩
  · refine (trip.keepPos pos (d := v.drive l) (by rw [drive₀]; rfl)).of_before ?_ ?_ ?_ ?_ before.distinct
      before.elsewhere.port
    · rw [seq₀]; rfl
    · rw [drive₀]; rfl
    · have told : ({ v with rates := vset v.rates l x } : State).rate l = x := by simp [State.rate]
      have state : (({ v with rates := vset v.rates l x } : State).seq l).state = .delivering := hs
      rw [rate₀, told, state]
      exact hx
    · have state : (({ v with rates := vset v.rates l x } : State).seq l).state = .delivering := hs
      have same : ({ v with rates := vset v.rates l x } : State).meas l = v.meas l := rfl
      rw [if_pos state, if_pos state, meas₀, same, State.measAt]
      split <;> rfl
  · obtain ⟨a, b, c, d, f⟩ := own.only k hk
    refine ⟨a, b.trans ?_, c, d, f⟩
    simp [State.rate, vget_vset, hk]
  · rw [State.modDrive_lineup]
    exact lineup.trans lineup₀

end Delivering

end Sys2Proof.Machine
end

section
/-! SUPPORT. The drive step of a line in STROKING: the stages of the stroke test (R28 to R33, R43). -/

namespace Sys2Proof.Machine

/-- R33: a drive whose stroke test has failed. -/
def Drive.testFailed (d : Drive) (why : StrokeFailure) : Drive :=
  { d with stage := none, stageTimer := none, strokeTimer := none, ramp := none, setpoint := 0, track := 0,
           lastStroke := some (.failed why) }

/-- R33, R43: a drive step has ended the stroke test of line `l` without a pass. -/
def StrokeEnds (v u : State) (l : LineId) (pos : Option Nat) (why : StrokeFailure) : Prop :=
  (u.seq l).state = .connected ∧ AlarmPresent u .strokeFailed (.line l)
    ∧ u.drive l = { (v.drive l).testFailed why with lastPos := (v.drive l).lastAfter pos }

section Stroking

variable {v : State} {l : LineId} {pos : Option Nat} {n : Nat}

theorem State.driveStage_stroking (hs : (v.seq l).state = .stroking) :
    v.driveStage l pos = ((v.strokeStep l pos).trackAndMove l pos).modDrive l (Drive.keepPos pos) := by
  unfold State.driveStage
  simp only [hs]

/-- A failed stroke test, with the position of the step kept. -/
theorem State.failStroke_ends {w : State} {why : StrokeFailure} (hd : (w.drive l).testFailed why = (v.drive l).testFailed why) :
    StrokeEnds v ((w.failStroke l why).modDrive l (Drive.keepPos pos)) l pos why := by
  obtain ⟨seq, drive, -, alarm, -⟩ := w.failStroke_strokeFailed l why
  have rested : (w.failStroke l why).drive l = (v.drive l).testFailed why := drive.trans hd
  generalize w.failStroke l why = t at seq rested alarm
  refine ⟨?_, (AlarmPresent.congr rfl _ _).mpr alarm, ?_⟩
  · rw [State.modDrive_seq, seq]
  · rw [State.modDrive_drive, if_pos rfl, rested]
    exact Drive.keepPos_of pos rfl

/-- R31, R32: a stage that runs out fails the test before the check. -/
theorem State.driveStage_timeout {w : State} {why : StrokeFailure} (hs : (v.seq l).state = .stroking)
    (step : v.strokeStep l pos = w.failStroke l why) (hd : (w.drive l).testFailed why = (v.drive l).testFailed why) :
    StrokeEnds v (v.driveStage l pos) l pos why := by
  obtain ⟨seq, -⟩ := w.failStroke_strokeFailed l why
  rw [State.driveStage_stroking hs, step, State.trackAndMove_of_untracked pos (by rw [seq]; rfl)]
  exact State.failStroke_ends hd

section GoesOn

variable {d : Drive} (hs : (v.seq l).state = .stroking) (step : v.strokeStep l pos = v.modDrive l fun _ => d)
  (last : d.lastPos = (v.drive l).lastPos) (stroke : d.tStroke = (v.drive l).tStroke) (track : d.track = (v.drive l).track)
  (hn : TracksTo (v.drive l) d.setpoint pos n)
include hs step last stroke track hn

/-- R28, R31, R32: the stage goes on and the check has passed. -/
theorem State.driveStage_strokes (le : n ≤ 20 + ceilDiv ((v.drive l).tStroke.getD 1800) 10) : v.driveStage l pos = { v with
    drives := vset v.drives l { d with track := n, lastPos := (v.drive l).lastAfter pos } } := by
  have drive : (v.modDrive l fun _ => d).drive l = d := by simp
  have tracks : TracksTo ((v.modDrive l fun _ => d).drive l) ((v.modDrive l fun _ => d).drive l).setpoint pos n := by
    rw [drive]; exact hn.congr last stroke track
  have stays : ((v.modDrive l fun _ => d).tracked l n).positionTransition l pos = (v.modDrive l fun _ => d).tracked l n := by
    unfold State.positionTransition
    rw [(State.tracked_line _ l n).1, State.modDrive_seq, hs]
  have kept := (State.tracked_line (v.modDrive l fun _ => d) l n).2.1
  rw [drive] at kept
  rw [State.driveStage_stroking hs, step,
    State.trackAndMove_of_passed (by rw [State.modDrive_seq, hs]; rfl) tracks (by rw [drive, stroke]; exact le), stays,
    State.keepPos_eq (s := v) pos kept last, State.tracked_eq]
  apply State.eq_of_fields <;> simp [vset_vset]

/-- R29, R33: the stage goes on and the check has failed. -/
theorem State.driveStage_stroke_travel (lt : 20 + ceilDiv ((v.drive l).tStroke.getD 1800) 10 < n)
    (hd : d.testFailed .travel = (v.drive l).testFailed .travel) : StrokeEnds v (v.driveStage l pos) l pos .travel := by
  have drive : (v.modDrive l fun _ => d).drive l = d := by simp
  have tracks : TracksTo ((v.modDrive l fun _ => d).drive l) ((v.modDrive l fun _ => d).drive l).setpoint pos n := by
    rw [drive]; exact hn.congr last stroke track
  have fails : ((v.modDrive l fun _ => d).tracked l n).failTracking l =
      (((v.modDrive l fun _ => d).tracked l n).modDrive l Drive.trackFrom0).failStroke l .travel := by
    unfold State.failTracking
    rw [(State.tracked_line _ l n).1, State.modDrive_seq, hs]
  rw [State.driveStage_stroking hs, step,
    State.trackAndMove_of_failed (by rw [State.modDrive_seq, hs]; rfl) tracks (by rw [drive, stroke]; exact lt), fails]
  refine State.failStroke_ends ?_
  rw [State.modDrive_drive, if_pos rfl, (State.tracked_line _ l n).2.1, drive]
  exact hd

end GoesOn

/-! ### The stages -/

theorem State.strokeStep_opened (hg : (v.drive l).stage = some .openMove) (open_ : ∃ p, pos = some p ∧ 980 ≤ p) :
    v.strokeStep l pos = v.modDrive l fun _ => { v.drive l with stage := some .settle, stageTimer := some 0 } := by
  obtain ⟨p, hp, le⟩ := open_
  have near : pos.any (980 ≤ ·) = true := by rw [hp]; simpa using le
  unfold State.strokeStep
  simp only [hg, near, if_true]
  apply State.eq_of_fields <;> simp [vset_vset, Drive.stageStep]

/-- R31, R32: 2 ds more on the stage timer. -/
theorem State.modDrive_stageStep {timer : Nat} (ht : (v.drive l).stageTimer = some timer) :
    v.modDrive l Drive.stageStep = v.modDrive l fun _ => { v.drive l with stageTimer := some (timer + 2) } :=
  v.modDrive_congr l (by unfold Drive.stageStep; rw [ht]; rfl)

theorem State.strokeStep_opening {timer : Nat} (hs : (v.seq l).state = .stroking) (hg : (v.drive l).stage = some .openMove)
    (ht : (v.drive l).stageTimer = some timer) (shut : ∀ p, pos = some p → p < 980) : v.strokeStep l pos =
      if 1800 ≤ timer + 2 then
        (v.modDrive l fun _ => { v.drive l with stageTimer := some (timer + 2) }).failStroke l .openTimeout
      else v.modDrive l fun _ => { v.drive l with stageTimer := some (timer + 2) } := by
  have far : pos.any (980 ≤ ·) = false := by
    cases pos with
    | none => rfl
    | some p => simpa using shut p rfl
  unfold State.strokeStep
  simp only [hg, far, State.modDrive_stageStep ht, Bool.false_eq_true, if_false]
  unfold State.judgeOpenTimeout
  simp [hs]

theorem State.strokeStep_settling {timer : Nat} (hs : (v.seq l).state = .stroking) (hg : (v.drive l).stage = some .settle)
    (ht : (v.drive l).stageTimer = some timer) : v.strokeStep l pos =
      if 20 ≤ timer + 2 then v.modDrive l fun _ =>
        { v.drive l with stage := some .closeMove, stageTimer := some 0, ramp := none, setpoint := 0 }
      else v.modDrive l fun _ => { v.drive l with stageTimer := some (timer + 2) } := by
  unfold State.strokeStep
  simp only [hg, State.modDrive_stageStep ht]
  unfold State.judgeSettleEnd
  simp only [State.modDrive_seq, hs, State.modDrive_drive, if_true, true_and, Option.getD_some]
  split
  · apply State.eq_of_fields <;> simp [vset_vset, Drive.adjust]
  · rfl

/-- R32: the stroke timer after a drive step in CLOSE_MOVE. -/
def Drive.strokeTimed (d : Drive) (pos : Option Nat) : Option Nat := (d.strokeTimerStep pos).strokeTimer

/-- R32: the drive in CLOSE_MOVE with both timers run on. -/
def Drive.closing (d : Drive) (pos : Option Nat) (timer : Nat) : Drive :=
  { d with stageTimer := some (timer + 2), strokeTimer := d.strokeTimed pos }

theorem Drive.strokeTimerStep_eq (d : Drive) (pos : Option Nat) :
    d.strokeTimerStep pos = { d with strokeTimer := d.strokeTimed pos } := by
  unfold Drive.strokeTimed Drive.strokeTimerStep
  split
  · split <;> rfl
  · rfl

theorem Drive.strokeTimed_stageStep (d : Drive) (pos : Option Nat) : d.stageStep.strokeTimed pos = d.strokeTimed pos := by
  unfold Drive.strokeTimed Drive.strokeTimerStep Drive.stageStep
  cases h : d.strokeTimer with
  | none => simp only []; split <;> simp [h]
  | some m => rfl

theorem State.modDrive_closing {timer : Nat} (ht : (v.drive l).stageTimer = some timer) :
    (v.modDrive l fun d => d.stageStep.strokeTimerStep pos) = v.modDrive l fun _ => (v.drive l).closing pos timer := by
  refine v.modDrive_congr l ?_
  rw [Drive.strokeTimerStep_eq, Drive.strokeTimed_stageStep, Drive.closing, Drive.stageStep, ht]
  rfl

/-- R32: the valve has closed in CLOSE_MOVE, and the test is judged. -/
theorem State.strokeStep_closed {timer m : Nat} (hg : (v.drive l).stage = some .closeMove)
    (ht : (v.drive l).stageTimer = some timer) (hm : (v.drive l).strokeTimed pos = some m)
    (shut : ∃ p, pos = some p ∧ p ≤ 20) :
    v.strokeStep l pos = (v.modDrive l fun _ => (v.drive l).closing pos timer).judgeStroke l m := by
  obtain ⟨p, hp, le⟩ := shut
  have near : pos.any (· ≤ 20) = true := by rw [hp]; simpa using le
  have timed : ((v.drive l).closing pos timer).strokeTimer = some m := hm
  unfold State.strokeStep
  simp only [hg, State.modDrive_closing ht, State.modDrive_drive, if_true, timed, near]

/-- R32: CLOSE_MOVE goes on, or runs out. -/
theorem State.strokeStep_closing {timer : Nat} (hs : (v.seq l).state = .stroking) (hg : (v.drive l).stage = some .closeMove)
    (ht : (v.drive l).stageTimer = some timer)
    (ajar : (v.drive l).strokeTimed pos = none ∨ ∀ p, pos = some p → 20 < p) : v.strokeStep l pos =
      if 1800 ≤ timer + 2 then (v.modDrive l fun _ => (v.drive l).closing pos timer).failStroke l .closeTimeout
      else v.modDrive l fun _ => (v.drive l).closing pos timer := by
  have judged : v.strokeStep l pos = (v.modDrive l fun _ => (v.drive l).closing pos timer).judgeCloseTimeout l := by
    have timed : ((v.drive l).closing pos timer).strokeTimer = (v.drive l).strokeTimed pos := rfl
    unfold State.strokeStep
    simp only [hg, State.modDrive_closing ht, State.modDrive_drive, if_true, timed]
    split
    · next m hm =>
      have far : pos.any (· ≤ 20) = false := by
        cases pos with
        | none => rfl
        | some p => simpa using (ajar.resolve_left (by rw [hm]; simp)) p rfl
      simp [far]
    · rfl
  rw [judged]
  unfold State.judgeCloseTimeout
  simp [hs, hg, Drive.closing]

/-- R32, R43: a passed stroke test, from any state. -/
theorem State.passStroke_passed (w : State) (l : LineId) (m : Nat) : ((w.passStroke l m).seq l).state = .connected
    ∧ (w.passStroke l m).drive l = { w.drive l with
        stage := none, stageTimer := none, strokeTimer := none, tMeas := some m, track := 0
        lastStroke := some (.pass m) }
    ∧ (AlarmsDistinct w → ¬ AlarmPresent (w.passStroke l m) .strokeFailed (.line l))
    ∧ (NoticeKind.done ∈ w.port.mask → Notice.doneStroke l ∈ (w.passStroke l m).notices) := by
  unfold State.passStroke
  generalize hx : (w.modDrive l fun d => { d.endStroke (.pass m) with tMeas := some m }) = x
  have drive : x.drive l = { w.drive l with
      stage := none, stageTimer := none, strokeTimer := none, tMeas := some m, lastStroke := some (.pass m) } := by
    rw [← hx]; simp [Drive.endStroke]
  have port : x.port = w.port := by rw [← hx]; simp
  have alarms : x.alarms = w.alarms := by rw [← hx]; simp
  have told : Soft l (x.notify (.doneStroke l)) ((x.notify (.doneStroke l)).alarmGone .strokeFailed (.line l)) :=
    Soft.refl.gone _ _
  generalize hy : (x.notify (.doneStroke l)).alarmGone .strokeFailed (.line l) = y at told
  have kept : y.drive l = x.drive l := by rw [← hy]; simp
  have whole := y.strokeToConnected_eq l
  refine ⟨?_, ?_, fun distinct => ?_, fun mask => ?_⟩
  · rw [whole]; simp [State.seq]
  · rw [State.drive_of_drives (congrArg State.drives whole), kept, drive]
  · rw [AlarmPresent.congr (s := y) (by rw [whole]), ← hy]
    refine State.alarmGone_not_present _ _ _ ?_
    unfold AlarmsDistinct at distinct ⊢
    rw [State.notify_alarms, alarms]
    exact distinct
  · exact (y.strokeToConnected_own l).subset (told.subset (State.mem_notify _ _ (decide_eq_true (port ▸ mask))))

/-- R32: a passed test, with the position of the step kept. -/
theorem State.driveStage_passes {timer m : Nat} (hs : (v.seq l).state = .stroking)
    (hg : (v.drive l).stage = some .closeMove) (ht : (v.drive l).stageTimer = some timer)
    (hm : (v.drive l).strokeTimed pos = some m) (shut : ∃ p, pos = some p ∧ p ≤ 20)
    (range : 20 ≤ scaledStroke m ∧ scaledStroke m ≤ 1800) (distinct : AlarmsDistinct v) :
    ((v.driveStage l pos).seq l).state = .connected ∧ ¬ AlarmPresent (v.driveStage l pos) .strokeFailed (.line l)
      ∧ (v.driveStage l pos).drive l = { v.drive l with
          stage := none, stageTimer := none, strokeTimer := none, tMeas := some (scaledStroke m), track := 0
          lastStroke := some (.pass (scaledStroke m)), lastPos := (v.drive l).lastAfter pos }
      ∧ (NoticeKind.done ∈ v.port.mask → Notice.doneStroke l ∈ (v.driveStage l pos).notices) := by
  have step := State.strokeStep_closed hg ht hm shut
  unfold State.judgeStroke at step
  simp only [if_pos range] at step
  generalize hw : ((v.modDrive l fun _ => (v.drive l).closing pos timer).modDrive l fun d => { d with stage := some .done }) = w
    at step
  have before : w.drive l = { (v.drive l).closing pos timer with stage := some .done } := by rw [← hw]; simp
  have port : w.port = v.port := by rw [← hw]; simp
  have alarms : w.alarms = v.alarms := by rw [← hw]; simp
  obtain ⟨seq, drive, gone, told⟩ := w.passStroke_passed l (scaledStroke m)
  rw [State.driveStage_stroking hs, step, State.trackAndMove_of_untracked pos (by rw [seq]; rfl)]
  generalize w.passStroke l (scaledStroke m) = u at seq drive gone told
  refine ⟨seq, gone ?_, ?_, fun mask => told (port ▸ mask)⟩
  · unfold AlarmsDistinct at distinct ⊢
    rw [alarms]
    exact distinct
  · rw [State.modDrive_drive, if_pos rfl, drive, before]
    exact Drive.keepPos_of pos rfl

/-- R32, R33: a stroke time out of range. -/
theorem State.driveStage_out_of_range {timer m : Nat} (hs : (v.seq l).state = .stroking)
    (hg : (v.drive l).stage = some .closeMove) (ht : (v.drive l).stageTimer = some timer)
    (hm : (v.drive l).strokeTimed pos = some m) (shut : ∃ p, pos = some p ∧ p ≤ 20)
    (range : ¬ (20 ≤ scaledStroke m ∧ scaledStroke m ≤ 1800)) :
    StrokeEnds v (v.driveStage l pos) l pos .outOfRange := by
  have step := State.strokeStep_closed hg ht hm shut
  unfold State.judgeStroke at step
  simp only [if_neg range] at step
  exact State.driveStage_timeout hs step (by simp [Drive.testFailed, Drive.closing])

end Stroking

end Sys2Proof.Machine
end

section
/-! SUPPORT. The readings of a sample event outlast its later stages: those write the steady flag and its runs alone (R2, R14). -/

namespace Sys2Proof.Machine

/-- R14: of a measurement state only the steady flag and its runs have changed. -/
def Meas.Steadied (a b : Meas) : Prop := b = { a with steady := b.steady, inRun := b.inRun, outRun := b.outRun }

/-- R14: of the measurement states only steady flags and their runs have changed. -/
def Steadied (s t : State) : Prop := ∀ l, (s.meas l).Steadied (t.meas l)

theorem Steadied.of_same {s t : State} (h : t.meass = s.meass) : Steadied s t := fun l => by
  rw [Meas.Steadied, State.meas, h]; rfl

theorem Steadied.refl {s : State} : Steadied s s := .of_same rfl

theorem Steadied.trans {s t u : State} (a : Steadied s t) (b : Steadied t u) : Steadied s u := fun l => by
  have x := a l
  have y := b l
  unfold Meas.Steadied at x y ⊢
  rw [y, x]

theorem Steadied.foldl {α : Type} {f : State → α → State} (hf : ∀ t x, Steadied t (f t x)) (xs : List α) (s : State) :
    Steadied s (xs.foldl f s) := by
  induction xs generalizing s with
  | nil => exact .refl
  | cons x xs ih => exact (hf s x).trans (ih _)

theorem Steadied.of_line {s t : State} (l : LineId) {m : Meas} (h : t.meass = vset s.meass l m)
    (hm : (s.meas l).Steadied m) : Steadied s t := fun k => by
  rw [State.meas, State.meas, h, vget_vset]
  split
  · next e => rw [e]; exact hm
  · rfl

theorem Meas.Steadied.unsteady (m : Meas) : m.Steadied m.unsteady := rfl

/-! ### target_eff, causes and transitions of a line -/

theorem State.measAt_steadied (s : State) (l : LineId) (x : Option Nat) : (s.meas l).Steadied (s.measAt l x) := by
  unfold State.measAt
  split
  · exact Meas.Steadied.unsteady _
  · rfl

theorem State.formTarget_steadied (s : State) (l : LineId) : Steadied s (s.formTarget l) :=
  .of_line l (by rw [State.formTarget_eq]) (s.measAt_steadied l _)

theorem Steadied.of_own {s t : State} {l : LineId} (own : Own l s t) (h : (s.meas l).Steadied (t.meas l)) : Steadied s t :=
  fun k => by
    by_cases e : k = l
    · rw [e]; exact h
    · rw [(own.only k e).2.2.1]; rfl

theorem State.addTrip_steadied (s : State) (l : LineId) (c : TripCause) : Steadied s (s.addTrip l c) := by
  by_cases hc : c ∈ (s.seq l).trips
  · rw [s.addTrip_eq_self l c (.inr hc)]; exact .refl
  · refine .of_own (s.addTrip_own l c) ?_
    by_cases ht : (s.seq l).state.trips = true
    · rw [(s.addTrip_line l c ht hc).2.2]
      split <;> rfl
    · by_cases hd : (s.seq l).state = .disconnected
      · rw [s.addTrip_eq_self l c (.inl hd)]; rfl
      · have fallen : (s.seq l).state = .tripping ∨ (s.seq l).state = .tripped := by
          revert ht hd
          cases (s.seq l).state <;> simp [LineState.trips]
        obtain ⟨-, -, -, meas, -⟩ := s.addTrip_causeAdded l c fallen hc
        rw [meas]; rfl

theorem State.addHold_steadied (s : State) (l : LineId) (c : HoldCause) : Steadied s (s.addHold l c) := by
  refine .of_own (s.addHold_own l c) ?_
  obtain ⟨begins, stays, -⟩ := s.addHold_handed l c
  by_cases h : (s.seq l).state ∈ [LineState.opening, .delivering] ∧ c ∉ (s.seq l).holds
  · obtain ⟨-, -, -, -, -, left, kept⟩ := begins h
    by_cases d : (s.seq l).state = .delivering
    · rw [(left d).1]; rfl
    · rw [(kept d).1]; rfl
  · rw [(stays h).2.2.2]; rfl

theorem State.failStroke_steadied (s : State) (l : LineId) (why : StrokeFailure) : Steadied s (s.failStroke l why) := by
  obtain ⟨-, -, -, -, -, -, whole⟩ := s.failStroke_strokeFailed l why
  exact .of_same (by rw [whole])

theorem State.passStroke_steadied (s : State) (l : LineId) (m : Nat) : Steadied s (s.passStroke l m) := by
  refine .of_same ?_
  unfold State.passStroke
  rw [State.strokeToConnected_eq]
  simp

theorem State.enterConnected_steadied (s : State) (l : LineId) : Steadied s (s.enterConnected l) :=
  .of_same (by rw [State.enterConnected_eq])

theorem State.enterTripped_steadied (s : State) (l : LineId) : Steadied s (s.enterTripped l) :=
  .of_same (by rw [State.enterTripped_eq])

theorem State.enterDelivering_steadied (s : State) (l : LineId) : Steadied s (s.enterDelivering l) :=
  .of_line l (congrArg State.meass (s.enterDelivering_eq l)) rfl

/-! ### The tanks of a lineup -/

theorem State.tellDeparture_steadied (s : State) (l : LineId) (was : TankState) : Steadied s (s.tellDeparture l was) := by
  refine .of_line l (congrArg State.meass (s.tellDeparture_eq l was)) ?_
  split
  · exact s.measAt_steadied l _
  · rfl

theorem State.moveTank_steadied (s : State) (k : TankId) (st : TankState) : Steadied s (s.moveTank k st) := by
  unfold State.moveTank
  simp only []
  split <;> exact .of_same (by simp)

theorem State.shiftTank_steadied (s : State) (k : TankId) (st : TankState) : Steadied s (s.shiftTank k st) := by
  unfold State.shiftTank
  split
  · exact .refl
  · simp only []
    split
    · split
      · exact s.moveTank_steadied k st
      · exact (s.moveTank_steadied k st).trans (State.tellDeparture_steadied _ _ _)
    · exact s.moveTank_steadied k st

theorem State.listTank_steadied (s : State) (k : TankId) (b : Bool) : Steadied s (s.listTank k b) := by
  unfold State.listTank
  split
  · exact .refl
  · have left : Steadied (s.moveTank k .listed) ((s.moveTank k .listed).leaveLineup k) := by
      unfold State.leaveLineup
      split
      · exact .refl
      · exact .of_same (by simp)
    have out : Steadied s (((s.moveTank k .listed).leaveLineup k).modTankNoticed k
        fun x => { x with topped := x.topped || b }) :=
      ((s.moveTank_steadied k .listed).trans left).trans (.of_same (by simp))
    have applied : ∀ t : State, Steadied t (t.applyPending k) := fun t => by
      unfold State.applyPending
      split
      · exact .refl
      · exact .of_same (by simp [State.removeTank, State.forgetTank])
      · exact .of_same (by simp)
    simp only []
    refine Steadied.trans ?_ (applied _)
    split
    · exact out.trans (State.tellDeparture_steadied _ _ _)
    · exact out

theorem State.lineFinished_steadied (s : State) (l : LineId) : Steadied s (s.lineFinished l) := by
  refine Steadied.foldl (fun t k => ?_) _ s
  unfold State.finishTank
  split
  · exact t.listTank_steadied k false
  · exact t.shiftTank_steadied k .releasing

theorem State.queueAdvice_steadied (s : State) (k : TankId) (a : AdviceKind) : Steadied s (s.queueAdvice k a) := by
  unfold State.queueAdvice
  split
  · exact .refl
  · exact .of_same rfl

theorem State.reportTopping_steadied (s : State) (l : LineId) (entered : Bool) : Steadied s (s.reportTopping l entered) := by
  have told : Steadied s ((s.modRate l fun r => { r with throttle := decide (0 < s.countIn l .topping) }).formTarget l) :=
    Steadied.trans (.of_same rfl) (State.formTarget_steadied _ l)
  unfold State.reportTopping State.tellTopping
  simp only []
  split
  · exact told.trans (.of_same (by simp [State.takeOver]))
  · exact told

/-- R106: the actions of an evaluation. -/
theorem State.actOn_steadied (s : State) (k : TankId) (l : LineId) (r : Tank) (e : Results) :
    Steadied s (s.actOn k l r e) := by
  unfold State.actOn
  split
  · exact s.addTrip_steadied l _
  · split
    · exact ((s.shiftTank_steadied k _).trans (State.addHold_steadied _ l _)).trans (State.queueAdvice_steadied _ k _)
    · split
      · split
        · exact ((s.moveTank_steadied k _).trans (State.reportTopping_steadied _ l _)).trans
            (State.queueAdvice_steadied _ k _)
        · exact .refl
      · exact .refl

theorem State.judgeStale_steadied (s : State) (k : TankId) : Steadied s (s.judgeStale k) := by
  unfold State.judgeStale
  exact .of_same (by simp)

/-- R101 to R105: the figures of an evaluation are stored in the record. -/
theorem State.storeResults_steadied (s : State) (k : TankId) (e : Results) :
    Steadied s ((s.judgeStale k).modTank k fun x => { x with results := some e }) :=
  (s.judgeStale_steadied k).trans (.of_same (by simp))

theorem State.evaluate_steadied (s : State) (k : TankId) : Steadied s (s.evaluate k) := by
  unfold State.evaluate
  split
  · exact .refl
  · next r _ =>
    split
    · next l v _ _ =>
      split
      · have acted := (s.storeResults_steadied k (s.evaluation l r v)).trans
          (State.actOn_steadied _ k l r (s.evaluation l r v))
        simp only []
        split
        · exact acted.trans (State.addHold_steadied _ l _)
        · exact acted
      · exact .refl
    · exact .refl

/-- R98, R100: the tank watch. -/
theorem State.lineSampled_steadied (s : State) (l : LineId) : Steadied s (s.lineSampled l) :=
  Steadied.foldl (fun t k => (t.judgeStale_steadied k).trans (State.evaluate_steadied _ k)) _ s

/-! ### The drive step -/

theorem State.rateLoopStep_steadied (s : State) (l : LineId) : Steadied s (s.rateLoopStep l) := by
  have judged : ∀ t : State, Steadied t (t.judgeTakeover l) := fun t => by
    unfold State.judgeTakeover
    split
    · split
      · exact .of_same (by simp [State.takeOver])
      · exact .refl
    · exact .refl
  have looped : ∀ t : State, Steadied t (t.loopStep l) := fun t => by
    unfold State.loopStep
    split
    · exact .refl
    · simp only []
      split <;> exact .of_same rfl
  have counted : Steadied s (s.modRate l (Rate.countRuns (s.meas l).q (s.meas l).qSurge ((s.limits l).map (·.qMax)))) :=
    .of_same rfl
  exact ((counted.trans (judged _)).trans (State.formTarget_steadied _ l)).trans (looped _)

theorem State.strokeStep_steadied (s : State) (l : LineId) (pos : Option Nat) : Steadied s (s.strokeStep l pos) := by
  have moved : ∀ f, Steadied s (s.modDrive l f) := fun f => .of_same rfl
  have openTimeout : ∀ t : State, Steadied t (t.judgeOpenTimeout l) := fun t => by
    unfold State.judgeOpenTimeout
    simp only []
    split
    · exact t.failStroke_steadied l _
    · exact .refl
  have settleEnd : ∀ t : State, Steadied t (t.judgeSettleEnd l) := fun t => by
    unfold State.judgeSettleEnd
    simp only []
    split <;> exact .of_same rfl
  have closeTimeout : ∀ t : State, Steadied t (t.judgeCloseTimeout l) := fun t => by
    unfold State.judgeCloseTimeout
    simp only []
    split
    · exact t.failStroke_steadied l _
    · exact .refl
  have judged : ∀ (t : State) m, Steadied t (t.judgeStroke l m) := fun t m => by
    have done : Steadied t (t.modDrive l fun d => { d with stage := some .done }) := .of_same rfl
    unfold State.judgeStroke
    simp only []
    split
    · exact done.trans (State.passStroke_steadied _ l _)
    · exact done.trans (State.failStroke_steadied _ l _)
  unfold State.strokeStep
  split
  · simp only []
    split
    · exact .of_same rfl
    · exact (moved _).trans (openTimeout _)
  · exact (moved _).trans (settleEnd _)
  · simp only []
    split
    · split
      · exact (moved _).trans (judged _ _)
      · exact (moved _).trans (closeTimeout _)
    · exact (moved _).trans (closeTimeout _)
  · exact .refl
  · exact .refl

theorem State.failTracking_steadied (s : State) (l : LineId) : Steadied s (s.failTracking l) := by
  have zero : Steadied s (s.modDrive l Drive.trackFrom0) := .of_same rfl
  unfold State.failTracking
  simp only []
  split
  iterate 4 exact zero.trans (State.addTrip_steadied _ l _)
  · exact (zero.trans (State.addTrip_steadied _ l _)).trans (State.enterTripped_steadied _ l)
  · exact zero.trans (State.failStroke_steadied _ l _)
  all_goals exact zero

theorem State.positionTransition_steadied (s : State) (l : LineId) (pos : Option Nat) :
    Steadied s (s.positionTransition l pos) := by
  unfold State.positionTransition
  split
  · split
    · split
      · exact s.enterDelivering_steadied l
      · exact .refl
    · exact .refl
  · split
    · exact .of_same (by rw [State.enterHeld_eq])
    · exact .refl
  · split
    · exact (s.enterConnected_steadied l).trans (State.lineFinished_steadied _ l)
    · exact .refl
  · split
    · exact s.enterTripped_steadied l
    · exact .refl
  all_goals exact .refl

theorem State.driveStage_steadied (s : State) (l : LineId) (pos : Option Nat) : Steadied s (s.driveStage l pos) := by
  have kept : ∀ t : State, Steadied t ((t.trackAndMove l pos).modDrive l (Drive.keepPos pos)) := fun t => by
    refine Steadied.trans (t := t.trackAndMove l pos) ?_ (.of_same rfl)
    have stepped : Steadied t (t.modDrive l (Drive.trackStep pos)) := .of_same rfl
    unfold State.trackAndMove
    split
    · simp only []
      split
      · exact stepped.trans (State.failTracking_steadied _ l)
      · exact stepped.trans (State.positionTransition_steadied _ l pos)
    · exact .refl
  have ramped : Steadied s ((s.modDrive l Drive.rampStep).formTarget l) :=
    Steadied.trans (.of_same rfl) (State.formTarget_steadied _ l)
  unfold State.driveStage
  simp only []
  refine Steadied.trans ?_ (kept _)
  split
  · exact s.rateLoopStep_steadied l
  · exact s.strokeStep_steadied l pos
  iterate 4 exact ramped
  all_goals exact .refl

end Sys2Proof.Machine
end

section
/-! SUPPORT. What the judgements of the measurement stage have made of a line, one judgement after another (R4, R8, R10 to R12,
R14, R47, R48, R55, R56). -/

namespace Sys2Proof.Machine

/-- R14: the steady flag and its runs are the same in two measurement states. -/
def Meas.SameSteady (a b : Meas) : Prop := b.steady = a.steady ∧ b.inRun = a.inRun ∧ b.outRun = a.outRun

theorem Meas.SameSteady.trans {a b c : Meas} (h : a.SameSteady b) (g : b.SameSteady c) : a.SameSteady c :=
  ⟨g.1.trans h.1, g.2.1.trans h.2.1, g.2.2.trans h.2.2⟩

/-- A cause found by the judgements joins the set of a line in the sequence state `q`. -/
def Joins (q : Seq) (found : TripCause → Prop) : Prop := ∃ c, found c ∧ c ∉ q.trips

/-- R48: the stretch warning takes a line in the sequence state `q` into HOLDING, if no cause trips it. -/
def Begins (q : Seq) (warned : Prop) : Prop :=
  warned ∧ HoldCause.stretch ∉ q.holds ∧ q.state ∈ [LineState.opening, .delivering]

/-- R14, R76: rate-control state of a line that leaves a state for HOLDING. -/
def heldRate (st : LineState) (r : Rate) : Rate := if st = .delivering then { r with surgeRun := 0, maxRun := 0 } else r

/-- What the judgements made since `s` have made of line `l` in `y`: the trip causes `found`, STRETCH handed if `warned` and cleared
again if `cleared`, with `fresh` the T_close of a closure that begins. -/
structure Judgements (s y : State) (l : LineId) (found : TripCause → Prop) (warned cleared : Prop) (fresh : Nat) : Prop where
  trips : ∀ c, c ∈ (y.seq l).trips ↔ c ∈ (s.seq l).trips ∨ found c
  grade : (y.seq l).grade = (s.seq l).grade
  tripped : Joins (s.seq l) found → (s.seq l).state ∉ [LineState.tripping, .tripped] →
    y.seq l = { s.seq l with state := .tripping, trips := (y.seq l).trips, permit := false, holds := [], pump := false }
      ∧ y.drive l = cutDrive (s.seq l).state (s.drive l) (s.drive l).lastPos
      ∧ y.rate l = trippedRate (s.seq l).state (s.rate l)
  added : Joins (s.seq l) found → (s.seq l).state ∈ [LineState.tripping, .tripped] →
    y.seq l = { s.seq l with trips := (y.seq l).trips, holds := (y.seq l).holds, pump := false }
  stays : ¬ Joins (s.seq l) found → (y.seq l).permit = (s.seq l).permit
    ∧ (Begins (s.seq l) warned → (y.seq l).state = .holding
        ∧ y.drive l = ((s.drive l).rampTo 0 fresh).trackFrom0 ∧ y.rate l = heldRate (s.seq l).state (s.rate l))
    ∧ (¬ Begins (s.seq l) warned → (y.seq l).state = (s.seq l).state)
  still : (Joins (s.seq l) found → (s.seq l).state ∈ [LineState.tripping, .tripped]) →
    (¬ Joins (s.seq l) found → ¬ Begins (s.seq l) warned) → y.drive l = s.drive l ∧ y.rate l = s.rate l
  holds : (Joins (s.seq l) found → (s.seq l).state ∈ [LineState.tripping, .tripped]) →
    ∀ c, c ∈ (y.seq l).holds ↔ (c ∈ (s.seq l).holds
      ∨ c = .stretch ∧ warned ∧ (s.seq l).state ∈ [LineState.opening, .delivering, .holding, .held])
        ∧ (c = .stretch → ¬ cleared)
  quits : (s.seq l).state = .delivering → (y.seq l).state ≠ .delivering →
    (y.meas l).steady = false ∧ (y.meas l).inRun = 0 ∧ (y.meas l).outRun = 0 ∧ ¬ AlarmPresent y .flowUnsteady (.line l)
  steady : ((s.seq l).state = .delivering → (y.seq l).state = .delivering) → (s.meas l).SameSteady (y.meas l)
  distinct : AlarmsDistinct y

theorem Joins.congr {q : Seq} {f g : TripCause → Prop} (h : ∀ c, c ∉ q.trips → (f c ↔ g c)) : Joins q f ↔ Joins q g :=
  exists_congr fun c => ⟨fun ⟨a, b⟩ => ⟨(h c b).mp a, b⟩, fun ⟨a, b⟩ => ⟨(h c b).mpr a, b⟩⟩

theorem not_joins_none (q : Seq) : ¬ Joins q fun _ => False := fun ⟨_, h, _⟩ => h

/-- Before the first judgement. -/
theorem Judgements.start {s y : State} {l : LineId} (fresh : Nat) (seq : y.seq l = s.seq l) (drive : y.drive l = s.drive l)
    (rate : y.rate l = s.rate l) (steady : (s.meas l).SameSteady (y.meas l)) (distinct : AlarmsDistinct y) :
    Judgements s y l (fun _ => False) False False fresh where
  trips c := by simp [seq]
  grade := by rw [seq]
  tripped h := absurd h (not_joins_none _)
  added h := absurd h (not_joins_none _)
  stays _ := ⟨by rw [seq], fun b => absurd b.1 id, fun _ => by rw [seq]⟩
  still _ _ := ⟨drive, rate⟩
  holds _ c := by simp [seq]
  quits h g := absurd (seq ▸ h) g
  steady _ := steady
  distinct := distinct

section Step

variable {s y : State} {l : LineId} {found : TripCause → Prop} {warned cleared : Prop} {fresh : Nat}
  (h : Judgements s y l found warned cleared fresh)
include h

/-- The judgements are those of equivalent findings. -/
theorem Judgements.found_congr {g : TripCause → Prop} (e : ∀ c, c ∉ (s.seq l).trips → (found c ↔ g c)) :
    Judgements s y l g warned cleared fresh := by
  have joins := Joins.congr e
  refine ⟨fun c => ?_, h.grade, ?_, ?_, ?_, ?_, ?_, h.quits, h.steady, h.distinct⟩
  · rw [h.trips c]
    by_cases hc : c ∈ (s.seq l).trips
    · simp [hc]
    · rw [e c hc]
  all_goals rw [← joins]
  · exact h.tripped
  · exact h.added
  · exact h.stays
  · exact h.still
  · exact h.holds

/-- A write that leaves the line's states alone, and raises no FLOW_UNSTEADY. -/
theorem Judgements.aside {z : State} (seq : z.seq l = y.seq l) (drive : z.drive l = y.drive l) (rate : z.rate l = y.rate l)
    (steady : (y.meas l).SameSteady (z.meas l))
    (alarm : AlarmPresent z .flowUnsteady (.line l) → AlarmPresent y .flowUnsteady (.line l)) (distinct : AlarmsDistinct z) :
    Judgements s z l found warned cleared fresh := by
  refine ⟨by rw [seq]; exact h.trips, by rw [seq]; exact h.grade, by rw [seq, drive, rate]; exact h.tripped,
    by rw [seq]; exact h.added, by rw [seq, drive, rate]; exact h.stays, by rw [drive, rate]; exact h.still,
    by rw [seq]; exact h.holds, fun a b => ?_, fun a => ?_, distinct⟩
  · rw [seq] at b
    obtain ⟨x1, x2, x3, x4⟩ := h.quits a b
    exact ⟨steady.1.trans x1, steady.2.1.trans x2, steady.2.2.trans x3, fun p => x4 (alarm p)⟩
  · rw [seq] at a
    exact (h.steady a).trans steady

/-- The state of a judged line. -/
theorem Judgements.state : (Joins (s.seq l) found → (y.seq l).state = .tripping ∨ (y.seq l).state = .tripped)
    ∧ (¬ Joins (s.seq l) found → (y.seq l).state = (s.seq l).state ∨ (s.seq l).state ∈ [LineState.opening, .delivering]
        ∧ (y.seq l).state = .holding) := by
  constructor
  · intro j
    by_cases fallen : (s.seq l).state ∈ [LineState.tripping, .tripped]
    · rw [h.added j fallen]
      simpa using fallen
    · rw [(h.tripped j fallen).1]
      exact .inl rfl
  · intro j
    obtain ⟨-, begins, stays⟩ := h.stays j
    by_cases b : Begins (s.seq l) warned
    · exact .inr ⟨b.2.2, (begins b).1⟩
    · exact .inl (stays b)

theorem Judgements.connected (hs : (s.seq l).state ≠ .disconnected) : (y.seq l).state ≠ .disconnected := by
  intro e
  by_cases j : Joins (s.seq l) found
  · rcases h.state.1 j with g | g <;> rw [e] at g <;> cases g
  · rcases h.state.2 j with g | g
    · exact hs (g ▸ e)
    · rw [e] at g; cases g.2

end Step

end Sys2Proof.Machine
end

section
/-! SUPPORT. One judgement of the measurement stage more: a trip cause, the stretch warning, its end (R10, R11, R47 to R49, R55
to R57). -/

namespace Sys2Proof.Machine

/-! ### Alarms around a trip -/

theorem State.addTrip_alarms (s : State) (l : LineId) (c : TripCause) (hd : (s.seq l).state ≠ .disconnected)
    (hc : c ∉ (s.seq l).trips) : (s.addTrip l c).alarms =
      if (s.seq l).state = .delivering then ((s.joinTrip l c).alarmGone .flowUnsteady (.line l)).alarms
      else (s.joinTrip l c).alarms := by
  rw [s.addTrip_eq_joined l c hd hc]
  by_cases up : (s.seq l).state.trips = true
  · rw [if_pos up, State.enterTripping_alarms, s.joinTrip_state]
  · rw [if_neg up, if_neg fun e => up (by rw [e]; rfl)]

theorem State.joinTrip_alarmPresent (s : State) (l : LineId) (c : TripCause) {k : AlarmKind} {o : AlarmObject}
    (h : (k, o) ≠ (c.alarm, .line l)) : AlarmPresent (s.joinTrip l c) k o ↔ AlarmPresent s k o := by
  unfold State.joinTrip
  rw [State.alarmPresent_raiseAlarm_other _ h]
  exact AlarmPresent.congr (by simp) _ _

/-- R153: a trip leaves the conditions of other kinds and objects. -/
theorem State.addTrip_alarmPresent (s : State) (l : LineId) (c : TripCause) {k : AlarmKind} {o : AlarmObject}
    (h : (k, o) ≠ (c.alarm, .line l)) (g : (k, o) ≠ (.flowUnsteady, .line l)) :
    AlarmPresent (s.addTrip l c) k o ↔ AlarmPresent s k o := by
  by_cases self : (s.seq l).state = .disconnected ∨ c ∈ (s.seq l).trips
  · rw [s.addTrip_eq_self l c self]
  · obtain ⟨hd, hc⟩ := not_or.mp self
    rw [← s.joinTrip_alarmPresent l c h]
    have alarms := s.addTrip_alarms l c hd hc
    split at alarms
    · rw [AlarmPresent.congr alarms, State.alarmPresent_alarmGone_other _ g]
    · exact AlarmPresent.congr alarms _ _

/-- R14, R153: a trip raises no FLOW_UNSTEADY. -/
theorem State.addTrip_not_unsteady {s : State} {l : LineId} (c : TripCause) (d : AlarmsDistinct s)
    (h : ¬ AlarmPresent s .flowUnsteady (.line l)) : ¬ AlarmPresent (s.addTrip l c) .flowUnsteady (.line l) := by
  by_cases self : (s.seq l).state = .disconnected ∨ c ∈ (s.seq l).trips
  · rw [s.addTrip_eq_self l c self]; exact h
  · obtain ⟨hd, hc⟩ := not_or.mp self
    have alarms := s.addTrip_alarms l c hd hc
    split at alarms
    · rw [AlarmPresent.congr alarms]
      exact State.alarmGone_not_present _ _ _ ((s.joinTrip_own l c).distinct d)
    · rw [AlarmPresent.congr alarms, s.joinTrip_alarmPresent l c (by simp [c.alarm_ne_flowUnsteady.symm])]
      exact h

/-! ### A trip cause -/

theorem cutDrive_of_held {st : LineState} (h : st ∈ [LineState.opening, .delivering]) (d : Drive) (fresh : Nat) :
    cutDrive .holding ((d.rampTo 0 fresh).trackFrom0) ((d.rampTo 0 fresh).trackFrom0).lastPos = cutDrive st d d.lastPos := by
  have stroking : st ≠ .stroking := by rintro rfl; simp at h
  unfold cutDrive Drive.rampTo Drive.trackFrom0
  split <;> simp [stroking]

theorem trippedRate_of_held (st : LineState) (r : Rate) : trippedRate .holding (heldRate st r) = trippedRate st r := by
  unfold trippedRate heldRate
  by_cases h : st = .delivering <;> simp [h]

section Step

variable {s y : State} {l : LineId} {found : TripCause → Prop} {warned cleared : Prop} {fresh : Nat}

/-- R55, R56: a cause that takes the judged line into TRIPPING. -/
theorem Judgements.trip_up (h : Judgements s y l found warned cleared fresh) {c : TripCause}
    (up : (y.seq l).state.trips = true) (hc : c ∉ (y.seq l).trips) :
    Judgements s (y.addTrip l c) l (fun d => found d ∨ d = c) warned cleared fresh := by
  obtain ⟨seq, drive, rate, meas, unsteady, -⟩ := y.addTrip_lineTrips l c up hc
  have own := y.addTrip_own l c
  obtain ⟨nq, -⟩ := not_or.mp (mt (h.trips c).mpr hc)
  have joins : Joins (s.seq l) fun d => found d ∨ d = c := ⟨c, .inr rfl, nq⟩
  have free : ¬ Joins (s.seq l) found := fun j => by
    rcases h.state.1 j with e | e <;> rw [e] at up <;> cases up
  obtain ⟨-, begins, stays⟩ := h.stays free
  have state : ((y.addTrip l c).seq l).state = .tripping := by rw [seq]
  have standing : (s.seq l).state ∉ [LineState.tripping, .tripped] := by
    rcases h.state.2 free with e | ⟨e, -⟩
    · rw [e] at up
      revert up
      cases (s.seq l).state <;> simp [LineState.trips]
    · revert e
      cases (s.seq l).state <;> simp
  refine ⟨fun d => ?_, by rw [seq]; exact h.grade, fun _ _ => ⟨?_, ?_, ?_⟩, fun _ e => absurd e standing,
    fun n => absurd joins n, fun e _ => absurd (e joins) standing, fun e => absurd (e joins) standing,
    fun e _ => ?_, fun e => ?_, own.distinct h.distinct⟩
  · have set : ((y.addTrip l c).seq l).trips = setInsert TripCause.all c (y.seq l).trips := by rw [seq]
    rw [set, mem_setInsert, h.trips]
    simp only [tripCause_mem_all, true_and]
    exact or_comm.trans or_assoc
  · rw [seq]
    simp [h.grade]
  · rw [drive]
    by_cases b : Begins (s.seq l) warned
    · obtain ⟨holding, driven, -⟩ := begins b
      rw [holding, driven]
      exact cutDrive_of_held b.2.2 _ _
    · rw [stays b, (h.still (fun j => absurd j free) fun _ => b).1]
  · rw [rate]
    by_cases b : Begins (s.seq l) warned
    · obtain ⟨holding, -, rated⟩ := begins b
      rw [holding, rated]
      exact trippedRate_of_held _ _
    · rw [stays b, (h.still (fun j => absurd j free) fun _ => b).2]
  · by_cases del : (y.seq l).state = .delivering
    · rw [if_pos del] at meas
      rw [meas]
      exact ⟨rfl, rfl, rfl, unsteady del h.distinct⟩
    · rw [if_neg del] at meas
      obtain ⟨x1, x2, x3, x4⟩ := h.quits e del
      rw [meas]
      exact ⟨x1, x2, x3, State.addTrip_not_unsteady c h.distinct x4⟩
  · have other : (s.seq l).state ≠ .delivering := fun d => by
      have := e d
      rw [state] at this
      cases this
    have del : (y.seq l).state ≠ .delivering := fun d => by
      rcases h.state.2 free with g | ⟨-, g⟩
      · exact other (g ▸ d)
      · rw [d] at g; cases g
    rw [if_neg del] at meas
    rw [meas]
    exact h.steady fun d => absurd d other

/-- R57: a cause that joins the judged line in TRIPPING or TRIPPED. -/
theorem Judgements.trip_down (h : Judgements s y l found warned cleared fresh) {c : TripCause}
    (down : (y.seq l).state = .tripping ∨ (y.seq l).state = .tripped) (hc : c ∉ (y.seq l).trips) :
    Judgements s (y.addTrip l c) l (fun d => found d ∨ d = c) warned cleared fresh := by
  obtain ⟨seq, drive, rate, meas, -⟩ := y.addTrip_causeAdded l c down hc
  have own := y.addTrip_own l c
  obtain ⟨nq, -⟩ := not_or.mp (mt (h.trips c).mpr hc)
  have joins : Joins (s.seq l) fun d => found d ∨ d = c := ⟨c, .inr rfl, nq⟩
  have same : ¬ Joins (s.seq l) found → (y.seq l).state = (s.seq l).state := fun free => by
    rcases h.state.2 free with e | ⟨-, e⟩
    · exact e
    · rcases down with g | g <;> rw [e] at g <;> cases g
  have idle : ¬ Joins (s.seq l) found → ¬ Begins (s.seq l) warned := fun free b => by
    have e := ((h.stays free).2.1 b).1
    rcases down with g | g <;> rw [e] at g <;> cases g
  have state : ((y.addTrip l c).seq l).state = (y.seq l).state := by rw [seq]
  have away : (y.seq l).state ≠ .delivering := fun e => by rcases down with g | g <;> rw [e] at g <;> cases g
  refine ⟨fun d => ?_, by rw [seq]; exact h.grade, fun _ standing => ?_, fun _ fallen => ?_,
    fun n => absurd joins n, fun e _ => ?_, fun e => ?_, fun e _ => ?_, fun e => ?_, own.distinct h.distinct⟩
  · have set : ((y.addTrip l c).seq l).trips = setInsert TripCause.all c (y.seq l).trips := by rw [seq]
    rw [set, mem_setInsert, h.trips]
    simp only [tripCause_mem_all, true_and]
    exact or_comm.trans or_assoc
  · have j : Joins (s.seq l) found := by
      by_contra free
      rw [same free] at down
      exact standing (by simpa using down)
    obtain ⟨x1, x2, x3⟩ := h.tripped j standing
    refine ⟨?_, by rw [drive, x2], by rw [rate, x3]⟩
    rw [seq, x1]
  · rw [seq]
    by_cases j : Joins (s.seq l) found
    · rw [h.added j fallen]
    · have e := same j
      have p := (h.stays j).1
      have g := h.grade
      generalize y.seq l = q at e p g ⊢
      cases q
      simp_all
  · rw [drive, rate]
    exact h.still (fun _ => e joins) idle
  · have kept : ((y.addTrip l c).seq l).holds = (y.seq l).holds := by rw [seq]
    rw [kept]
    exact h.holds fun _ => e joins
  · obtain ⟨x1, x2, x3, x4⟩ := h.quits e away
    rw [meas]
    exact ⟨x1, x2, x3, State.addTrip_not_unsteady c h.distinct x4⟩
  · rw [meas]
    rw [state] at e
    exact h.steady e

/-- R55 to R57: a cause found. -/
theorem Judgements.trip (h : Judgements s y l found warned cleared fresh) (hs : (s.seq l).state ≠ .disconnected)
    (c : TripCause) : Judgements s (y.addTrip l c) l (fun d => found d ∨ d = c) warned cleared fresh := by
  by_cases hc : c ∈ (y.seq l).trips
  · rw [y.addTrip_eq_self l c (.inr hc)]
    refine h.found_congr fun d hd => ⟨.inl, fun g => g.elim id fun e => ?_⟩
    subst e
    exact ((h.trips d).mp hc).resolve_left hd
  · by_cases up : (y.seq l).state.trips = true
    · exact h.trip_up up hc
    · refine h.trip_down ?_ hc
      have := h.connected hs
      revert up this
      cases (y.seq l).state <;> simp [LineState.trips]

/-- R55: a cause found if a condition holds. -/
theorem Judgements.trip_if (h : Judgements s y l found warned cleared fresh) (hs : (s.seq l).state ≠ .disconnected)
    (c : TripCause) {p : Prop} {z : State} (yes : p → z = y.addTrip l c) (no : ¬ p → z = y) :
    Judgements s z l (fun d => found d ∨ d = c ∧ p) warned cleared fresh := by
  by_cases hp : p
  · rw [yes hp]
    exact (h.trip hs c).found_congr fun d _ => by simp [hp]
  · rw [no hp]
    exact h.found_congr fun d _ => by simp [hp]

end Step

end Sys2Proof.Machine
end

section
/-! SUPPORT. The stretch warning handed to a judged line, and its end (R10, R11, R47 to R49). -/

namespace Sys2Proof.Machine

section Step

variable {s y : State} {l : LineId} {found : TripCause → Prop} {warned : Prop} {fresh : Nat}

/-- R47, R48: STRETCH handed to a line that a cause has tripped does nothing. -/
theorem Judgements.hold_down (h : Judgements s y l found False False fresh) (j : Joins (s.seq l) found) :
    Judgements s (y.addHold l .stretch) l found True False fresh := by
  have down := h.state.1 j
  have self : y.addHold l .stretch = y := State.addHold_eq_self (.inl (by rcases down with e | e <;> rw [e] <;> rfl))
  rw [self]
  refine ⟨h.trips, h.grade, h.tripped, h.added, fun n => absurd j n, fun e _ => h.still e fun n => absurd j n,
    fun e c => ?_, h.quits, h.steady, h.distinct⟩
  have out : (s.seq l).state ∉ [LineState.opening, .delivering, .holding, .held] := by
    have := e j
    revert this
    cases (s.seq l).state <;> simp
  rw [h.holds e c]
  simp [out]

/-- R48: STRETCH takes a line that no cause has tripped into HOLDING. -/
theorem Judgements.hold_begins (h : Judgements s y l found False False fresh) (j : ¬ Joins (s.seq l) found)
    (b : Begins (s.seq l) True) (hf : y.freshTClose l = fresh) :
    Judgements s (y.addHold l .stretch) l found True False fresh := by
  have idle : ¬ Begins (s.seq l) False := fun x => x.1
  obtain ⟨permit, -, same⟩ := h.stays j
  have state := same idle
  obtain ⟨drive, rate⟩ := h.still (fun x => absurd x j) fun _ => idle
  have holds := h.holds fun x => absurd x j
  have free : HoldCause.stretch ∉ (y.seq l).holds := fun m => b.2.1 (by simpa using (holds .stretch).mp m)
  obtain ⟨seq, driven, pending, left, kept⟩ :=
    State.addHold_begins (s := y) (l := l) ((LineState.moving_iff _).mpr (state ▸ b.2.2)) free
  have own := y.addHold_own l .stretch
  have holding : ((y.addHold l .stretch).seq l).state = .holding := by rw [seq]
  refine ⟨by rw [seq]; exact h.trips, by rw [seq]; exact h.grade, fun x => absurd x j, fun x => absurd x j,
    fun _ => ⟨by rw [seq]; exact permit, fun _ => ⟨holding, ?_, ?_⟩, fun n => absurd b n⟩,
    fun _ n => absurd b (n j), fun _ c => ?_, fun e _ => ?_, fun e => ?_, own.distinct h.distinct⟩
  · rw [driven, drive, hf]
  · unfold heldRate
    by_cases d : (y.seq l).state = .delivering
    · rw [(left d).2.1, pending, if_pos (state ▸ d), rate]
    · rw [(kept d).2, pending, if_neg (state ▸ d), rate]
  · have set : ((y.addHold l .stretch).seq l).holds = setInsert HoldCause.all .stretch (y.seq l).holds := by rw [seq]
    have paused : (s.seq l).state ∈ [LineState.opening, .delivering, .holding, .held] := by
      have := b.2.2
      revert this
      cases (s.seq l).state <;> simp
    rw [set, mem_setInsert, holds c]
    simp only [holdCause_mem_all, paused, true_and, and_true, and_false, or_false, not_false_eq_true, implies_true]
    exact or_comm
  · obtain ⟨meas, -, gone, -⟩ := left (state.trans e)
    rw [meas]
    exact ⟨rfl, rfl, rfl, gone h.distinct⟩
  · have other : (y.seq l).state ≠ .delivering := fun d => by
      have := e (state ▸ d)
      rw [holding] at this
      cases this
    rw [(kept other).1]
    exact h.steady fun d => absurd (state.trans d) other

/-- R47: STRETCH joins the causes of a line that is held already, or stands there, or is taken by no cause. -/
theorem Judgements.hold_stays (h : Judgements s y l found False False fresh) (j : ¬ Joins (s.seq l) found)
    (b : ¬ Begins (s.seq l) True) : Judgements s (y.addHold l .stretch) l found True False fresh := by
  have idle : ¬ Begins (s.seq l) False := fun x => x.1
  obtain ⟨permit, -, same⟩ := h.stays j
  have state := same idle
  have still := h.still (fun x => absurd x j) fun _ => idle
  have holds := h.holds fun x => absurd x j
  have own := y.addHold_own l .stretch
  obtain ⟨-, stays, takes, leaves, others, grade, trips⟩ := y.addHold_handed l .stretch
  have rests : ¬((y.seq l).state ∈ [LineState.opening, .delivering] ∧ HoldCause.stretch ∉ (y.seq l).holds) := fun x =>
    b ⟨trivial, fun m => x.2 ((holds .stretch).mpr ⟨.inl m, fun _ => not_false⟩), state ▸ x.1⟩
  obtain ⟨state', drive, rate, meas⟩ := stays rests
  have held : ((y.addHold l .stretch).seq l).permit = (y.seq l).permit := by
    by_cases m : HoldCause.stretch ∈ (y.seq l).holds
    · rw [State.addHold_eq_self (.inr m)]
    · by_cases t : (y.seq l).state.takesHold = true
      · have paused : (y.seq l).state.moving = false := by
          rw [Bool.eq_false_iff]
          exact fun x => rests ⟨(LineState.moving_iff _).mp x, m⟩
        rw [State.addHold_of_paused t paused m, State.modSeq_seq, if_pos rfl]
      · rw [State.addHold_eq_self (.inl (by simpa using t))]
  have unsteady : ¬ AlarmPresent y .flowUnsteady (.line l) →
      ¬ AlarmPresent (y.addHold l .stretch) .flowUnsteady (.line l) := fun n => by
    by_cases m : (y.seq l).state.takesHold = false ∨ HoldCause.stretch ∈ (y.seq l).holds
    · rw [State.addHold_eq_self m]; exact n
    · obtain ⟨t, m⟩ := not_or.mp m
      have paused : (y.seq l).state.moving = false := by
        rw [Bool.eq_false_iff]
        exact fun x => rests ⟨(LineState.moving_iff _).mp x, m⟩
      rw [State.addHold_of_paused (by simpa using t) paused m, AlarmPresent.congr (State.modSeq_alarms _ _ _)]
      exact n
  refine ⟨by rw [trips]; exact h.trips, grade.trans h.grade, fun x => absurd x j, fun x => absurd x j,
    fun _ => ⟨held.trans permit, fun x => absurd x b, fun _ => state'.trans state⟩,
    fun _ _ => ⟨drive.trans still.1, rate.trans still.2⟩, fun _ c => ?_, fun e f => ?_, fun e => ?_,
    own.distinct h.distinct⟩
  · by_cases cs : c = .stretch
    · subst cs
      by_cases t : (s.seq l).state ∈ [LineState.opening, .delivering, .holding, .held]
      · exact iff_of_true (takes (state ▸ t)) ⟨.inr ⟨rfl, trivial, t⟩, fun _ => not_false⟩
      · rw [leaves (state ▸ t), holds .stretch]
        simp [t]
    · rw [others c cs, holds c]
      simp [cs]
  · rw [state'] at f
    obtain ⟨x1, x2, x3, x4⟩ := h.quits e f
    rw [meas]
    exact ⟨x1, x2, x3, unsteady x4⟩
  · rw [meas]
    rw [state'] at e
    exact h.steady e

/-- R10, R47, R48: the stretch warning. -/
theorem Judgements.warn (h : Judgements s y l found False False fresh) (hf : y.freshTClose l = fresh) :
    Judgements s (y.addHold l .stretch) l found True False fresh := by
  by_cases j : Joins (s.seq l) found
  · exact h.hold_down j
  · by_cases b : Begins (s.seq l) True
    · exact h.hold_begins j b hf
    · exact h.hold_stays j b

theorem pumpPermit_of_tripped {q : Seq} (h : q.state = .tripping ∨ q.state = .tripped) (x : Contact) :
    pumpPermit q x = false := by
  unfold pumpPermit
  rcases h with e | e <;> simp [e]

/-- R11, R49: the end of the stretch warning. -/
theorem Judgements.clear (h : Judgements s y l found warned False fresh) :
    Judgements s (y.dropHold l .stretch) l found warned True fresh := by
  have seq := y.dropHold_seq l l .stretch
  rw [if_pos rfl] at seq
  have own := y.dropHold_own l .stretch
  have drive : (y.dropHold l .stretch).drive l = y.drive l := by simp [State.dropHold]
  have rate : (y.dropHold l .stretch).rate l = y.rate l := by simp [State.dropHold]
  have meas : (y.dropHold l .stretch).meas l = y.meas l := by simp [State.dropHold]
  have alarms : (y.dropHold l .stretch).alarms = y.alarms := by simp [State.dropHold]
  refine ⟨by rw [seq]; exact h.trips, by rw [seq]; exact h.grade, fun j f => ?_, fun j f => ?_, fun j => ?_,
    by rw [drive, rate]; exact h.still, fun e c => ?_, fun e f => ?_, fun e => ?_, own.distinct h.distinct⟩
  · obtain ⟨x1, x2, x3⟩ := h.tripped j f
    have pump := pumpPermit_of_tripped (h.state.1 j) y.esd.loop
    refine ⟨?_, drive.trans x2, rate.trans x3⟩
    rw [seq, pump, x1]
    simp [setErase]
  · have pump := pumpPermit_of_tripped (h.state.1 j) y.esd.loop
    rw [seq, pump, h.added j f]
  · rw [seq, drive, rate]
    exact h.stays j
  · have set : ((y.dropHold l .stretch).seq l).holds = setErase .stretch (y.seq l).holds := by rw [seq]
    rw [set, mem_setErase, h.holds e c]
    simp only [not_false_eq_true, implies_true, and_true, not_true]
  · rw [seq] at f
    rw [meas, AlarmPresent.congr alarms]
    exact h.quits e f
  · rw [meas]
    rw [seq] at e
    exact h.steady e

end Step

end Sys2Proof.Machine
end

section
/-! SUPPORT. The measurement state through the judgements of a sample event, apart from the steady detector (R3 to R12). -/

namespace Sys2Proof.Machine

/-! ### What an event reads (R3, R5, R6, R15, R28) -/

/-- R3, R5, R6: window, Q_L, totals, readings and what an event takes up are the same in two measurement states. -/
def Meas.SameReadings (a b : Meas) : Prop := b = { a with
  overRun := b.overRun, warn := b.warn, clearRun := b.clearRun, tripRun := b.tripRun, band := b.band, steady := b.steady,
  inRun := b.inRun, outRun := b.outRun, epoch := b.epoch, tClose := b.tClose, qSurge := b.qSurge, tC := b.tC,
  watchQ := b.watchQ }

theorem Meas.SameReadings.refl (a : Meas) : a.SameReadings a := rfl

theorem Meas.SameReadings.trans {a b c : Meas} (h : a.SameReadings b) (g : b.SameReadings c) : a.SameReadings c := by
  unfold Meas.SameReadings at h g ⊢
  rw [g, h]

theorem Meas.steadied_iff {a b : Meas} :
    a.Steadied b ↔ ∃ st i o, b = { a with steady := st, inRun := i, outRun := o } := by
  constructor
  · intro h
    exact ⟨_, _, _, h⟩
  · rintro ⟨st, i, o, rfl⟩
    rfl

theorem Meas.Steadied.readings {a b : Meas} (h : a.Steadied b) : a.SameReadings b := by
  obtain ⟨st, i, o, rfl⟩ := Meas.steadied_iff.mp h
  rfl

theorem Meas.Steadied.trans {a b c : Meas} (h : a.Steadied b) (g : b.Steadied c) : a.Steadied c := by
  unfold Meas.Steadied at h g ⊢
  rw [g, h]

/-- R18: a fresh T_close reads the record, the readings and T_stroke. -/
theorem State.freshTClose_of_readings {s t : State} {l : LineId} (hs : t.store = s.store) (hc : t.clock = s.clock)
    (hm : (s.meas l).SameReadings (t.meas l)) (hd : (t.drive l).tStroke = (s.drive l).tStroke) :
    t.freshTClose l = s.freshTClose l := by
  have e : t.limits l = s.limits l := by unfold State.limits State.record; rw [hs]
  unfold State.freshTClose
  rw [e, hd]
  cases s.limits l with
  | none => rfl
  | some lim =>
    unfold State.latestReadings
    rw [hm, hc]
    rfl

/-! ### The runs (R8, R10 to R12) -/

/-- R10 to R12: the stretch runs after a sample; an out-of-range sample is skipped. -/
def Meas.stretched (x : Option Nat) (lim : Limits) (m : Meas) : Meas := x.elim m fun v => m.takeStretch v lim

/-- R11: the end of the stretch warning after a quiet spell. -/
def Meas.quieted (m : Meas) : Meas := if m.warn ∧ 50 ≤ m.clearRun then { m with warn := false } else m

/-- R8, R10 to R12: the runs and the stretch warning after a sample. -/
def Meas.judged (x : Sample) (lim : Limits) (m : Meas) : Meas :=
  ((m.takePressure x.pressure lim.pRated).stretched x.stretch lim).quieted

theorem Meas.Steadied.takePressure {a b : Meas} (h : a.Steadied b) (x : Option Nat) (p : Nat) :
    (a.takePressure x p).Steadied (b.takePressure x p) := by
  obtain ⟨st, i, o, rfl⟩ := Meas.steadied_iff.mp h
  cases x <;> rfl

theorem Meas.Steadied.stretched {a b : Meas} (h : a.Steadied b) (x : Option Nat) (lim : Limits) :
    (a.stretched x lim).Steadied (b.stretched x lim) := by
  obtain ⟨st, i, o, rfl⟩ := Meas.steadied_iff.mp h
  cases x <;> rfl

theorem Meas.Steadied.quieted {a b : Meas} (h : a.Steadied b) : a.quieted.Steadied b.quieted := by
  obtain ⟨st, i, o, rfl⟩ := Meas.steadied_iff.mp h
  unfold Meas.quieted
  simp only []
  split <;> rfl

theorem Meas.takePressure_readings (m : Meas) (x : Option Nat) (p : Nat) : m.SameReadings (m.takePressure x p) := by
  cases x <;> rfl

theorem Meas.stretched_readings (m : Meas) (x : Option Nat) (lim : Limits) : m.SameReadings (m.stretched x lim) := by
  cases x <;> rfl

theorem Meas.quieted_readings (m : Meas) : m.SameReadings m.quieted := by
  unfold Meas.quieted
  split <;> rfl

theorem Meas.judged_readings (m : Meas) (x : Sample) (lim : Limits) : m.SameReadings (m.judged x lim) :=
  ((m.takePressure_readings _ _).trans (Meas.stretched_readings _ _ _)).trans (Meas.quieted_readings _)

theorem Meas.takePressure_steady (m : Meas) (x : Option Nat) (p : Nat) : m.SameSteady (m.takePressure x p) := by
  cases x <;> exact ⟨rfl, rfl, rfl⟩

theorem Meas.stretched_steady (m : Meas) (x : Option Nat) (lim : Limits) : m.SameSteady (m.stretched x lim) := by
  cases x <;> exact ⟨rfl, rfl, rfl⟩

/-- The judgements move neither the band nor the epoch, which are the steady detector's. -/
theorem Meas.judged_detector (m : Meas) (x : Sample) (lim : Limits) :
    (m.judged x lim).band = m.band ∧ (m.judged x lim).epoch = m.epoch := by
  have p : ∀ y, (m.takePressure y lim.pRated).band = m.band ∧ (m.takePressure y lim.pRated).epoch = m.epoch := fun y => by
    cases y <;> exact ⟨rfl, rfl⟩
  have e : ∀ (a : Meas) y, (a.stretched y lim).band = a.band ∧ (a.stretched y lim).epoch = a.epoch := fun a y => by
    cases y <;> exact ⟨rfl, rfl⟩
  have q : ∀ a : Meas, a.quieted.band = a.band ∧ a.quieted.epoch = a.epoch := fun a => by
    unfold Meas.quieted
    split <;> exact ⟨rfl, rfl⟩
  exact ⟨(q _).1.trans ((e _ _).1.trans (p _).1), (q _).2.trans ((e _ _).2.trans (p _).2)⟩

/-! ### The stages of the judgement -/

/-- R3, R5, R6, R15, R28: the measurement state of a sample event before the judgements. -/
def State.sampled (s : State) (l : LineId) (x : Sample) : State :=
  s.modMeas l fun m => (m.takeSample x ((s.limits l).map (·.f)) (decide ((s.seq l).state ≠ .disconnected))).takeUp
    s.settings.steadyn (s.drive l).allowance

/-- R4, R8: the judgements of the transmitters and of the pressure. -/
def State.pressureJudged (s : State) (l : LineId) (x : Sample) (lim : Limits) : State :=
  (((s.sampled l x).judgeSensorFault l).modMeas l (Meas.takePressure x.pressure lim.pRated)).judgeOverpressure l

/-- R10: the stretch runs, and the stretch warning. -/
def State.stretchTaken (s : State) (l : LineId) (x : Option Nat) (lim : Limits) : State :=
  x.elim s fun v => (s.modMeas l (Meas.takeStretch v lim)).warnStretch l v ((s.meas l).warnLimit lim)

/-- R4, R8, R10 to R12: the judgements of a sample event. -/
def State.judgedStage (s : State) (l : LineId) (x : Sample) (lim : Limits) : State :=
  (((s.pressureJudged l x lim).stretchTaken l x.stretch lim).judgeStretchClear l).judgeStretchTrip l

/-- R2: the measurement stage of a line that is not DISCONNECTED: the judgements, then the steady detector. -/
theorem State.measureStage_eq {s : State} {l : LineId} (x : Sample) {lim : Limits} (hs : (s.seq l).state ≠ .disconnected)
    (hl : s.limits l = some lim) : s.measureStage l x = (s.judgedStage l x lim).steadyStage l := by
  unfold State.measureStage State.judgedStage State.pressureJudged State.sampled State.stretchTaken
  simp only [hs, hl, ne_eq, not_false_eq_true, decide_true]
  cases x.stretch <;> rfl

theorem State.sampled_soft (s : State) (l : LineId) (x : Sample) : Soft l s (s.sampled l x) :=
  Soft.refl.meas _ (Meas.takeUp_move _ _ _ _ _ _)

/-- R6: while the line is connected, its pulses are counted. -/
theorem State.sampled_meas (s : State) (l : LineId) (x : Sample) : (s.sampled l x).meas l =
    ((s.meas l).takeSample x ((s.limits l).map (·.f)) (decide ((s.seq l).state ≠ .disconnected))).takeUp
      s.settings.steadyn (s.drive l).allowance := by
  simp [State.sampled]

theorem State.judgeSensorFault_steadied (s : State) (l : LineId) : Steadied s (s.judgeSensorFault l) := by
  unfold State.judgeSensorFault
  split
  · exact s.addTrip_steadied l _
  · exact .refl

theorem State.judgeOverpressure_steadied (s : State) (l : LineId) : Steadied s (s.judgeOverpressure l) := by
  unfold State.judgeOverpressure
  split
  · exact s.addTrip_steadied l _
  · exact .refl

theorem State.pressureJudged_meas (s : State) (l : LineId) (x : Sample) (lim : Limits) :
    (((s.sampled l x).meas l).takePressure x.pressure lim.pRated).Steadied ((s.pressureJudged l x lim).meas l) := by
  have taken := ((s.sampled l x).judgeSensorFault_steadied l l).takePressure x.pressure lim.pRated
  refine taken.trans ?_
  have := State.judgeOverpressure_steadied
    (((s.sampled l x).judgeSensorFault l).modMeas l (Meas.takePressure x.pressure lim.pRated)) l l
  rwa [State.modMeas_meas, if_pos rfl] at this

theorem State.stretchTaken_meas (s : State) (l : LineId) (x : Option Nat) (lim : Limits) :
    ((s.meas l).stretched x lim).Steadied ((s.stretchTaken l x lim).meas l) := by
  cases x with
  | none => rfl
  | some v =>
    have warned : ∀ t : State, Steadied t (t.warnStretch l v ((s.meas l).warnLimit lim)) := fun t => by
      unfold State.warnStretch
      split
      · exact Steadied.trans (.of_same (by simp)) (State.addHold_steadied _ l _)
      · exact .refl
    have := warned (s.modMeas l (Meas.takeStretch v lim)) l
    rwa [State.modMeas_meas, if_pos rfl] at this

theorem State.judgeStretchClear_meas (s : State) (l : LineId) : (s.judgeStretchClear l).meas l = (s.meas l).quieted := by
  unfold State.judgeStretchClear Meas.quieted
  simp only []
  split
  · simp [State.dropHold]
  · rfl

theorem State.judgeStretchTrip_steadied (s : State) (l : LineId) : Steadied s (s.judgeStretchTrip l) := by
  unfold State.judgeStretchTrip
  split
  · exact (s.addTrip_steadied l .stretchTrip).trans (.of_same (by simp))
  · exact .refl

/-- R8, R10 to R12: the runs and the stretch warning after the judgements. -/
theorem State.judgedStage_meas (s : State) (l : LineId) (x : Sample) (lim : Limits) :
    (((s.sampled l x).meas l).judged x lim).Steadied ((s.judgedStage l x lim).meas l) := by
  have stretched := ((s.pressureJudged_meas l x lim).stretched x.stretch lim).trans (State.stretchTaken_meas _ l _ _)
  have tripped := State.judgeStretchTrip_steadied
    (((s.pressureJudged l x lim).stretchTaken l x.stretch lim).judgeStretchClear l) l l
  rw [State.judgeStretchClear_meas] at tripped
  exact stretched.quieted.trans tripped

end Sys2Proof.Machine
end

section
/-! SUPPORT. The judgements of a sample event in their order: transmitters, pressure, stretch warning, its end, stretch trip (R4,
R8, R10 to R12). -/

namespace Sys2Proof.Machine

/-! ### The alarms of the trip causes (R55) -/

/-- Alarms of trip causes on line `l` that are present in `y` are present in `z`. -/
def KeepsCauseAlarms (l : LineId) (y z : State) : Prop :=
  ∀ c : TripCause, AlarmPresent y c.alarm (.line l) → AlarmPresent z c.alarm (.line l)

theorem KeepsCauseAlarms.trans {l : LineId} {x y z : State} (h : KeepsCauseAlarms l x y) (g : KeepsCauseAlarms l y z) :
    KeepsCauseAlarms l x z := fun c a => g c (h c a)

theorem KeepsCauseAlarms.of_iff {l : LineId} {y z : State}
    (h : ∀ c : TripCause, AlarmPresent z c.alarm (.line l) ↔ AlarmPresent y c.alarm (.line l)) : KeepsCauseAlarms l y z :=
  fun c => (h c).mpr

theorem KeepsCauseAlarms.of_same {l : LineId} {y z : State} (h : z.alarms = y.alarms) : KeepsCauseAlarms l y z :=
  .of_iff fun _ => AlarmPresent.congr h _ _

theorem TripCause.alarm_injective {c d : TripCause} (h : c.alarm = d.alarm) : c = d := by
  revert h
  cases c <;> cases d <;> simp [TripCause.alarm]

theorem TripCause.alarm_ne_stretchWarn (c : TripCause) : c.alarm ≠ .stretchWarn := by cases c <;> decide

/-- R55: a cause that joins the set has its alarm. -/
theorem State.addTrip_raised {s : State} {l : LineId} {c : TripCause} (hs : (s.seq l).state ≠ .disconnected)
    (hc : c ∉ (s.seq l).trips) : AlarmPresent (s.addTrip l c) c.alarm (.line l) := by
  by_cases up : (s.seq l).state.trips = true
  · exact (s.addTrip_lineTrips l c up hc).2.2.2.2.2.2.2
  · refine (s.addTrip_causeAdded l c ?_ hc).2.2.2.2
    revert up hs
    cases (s.seq l).state <;> simp [LineState.trips]

theorem State.addTrip_keepsCauseAlarms (s : State) (l : LineId) (c : TripCause) :
    KeepsCauseAlarms l s (s.addTrip l c) := fun d h => by
  by_cases self : (s.seq l).state = .disconnected ∨ c ∈ (s.seq l).trips
  · rw [s.addTrip_eq_self l c self]
    exact h
  · obtain ⟨hs, hc⟩ := not_or.mp self
    by_cases e : d = c
    · rw [e]
      exact State.addTrip_raised hs hc
    · have other : (d.alarm, AlarmObject.line l) ≠ (c.alarm, .line l) := fun g =>
        e (TripCause.alarm_injective (congrArg Prod.fst g))
      exact (s.addTrip_alarmPresent l c other (by simp [d.alarm_ne_flowUnsteady])).mpr h

theorem State.addHold_keepsCauseAlarms (s : State) (l : LineId) (c : HoldCause) :
    KeepsCauseAlarms l s (s.addHold l c) :=
  .of_iff fun d => s.addHold_alarmPresent l c (by simp [d.alarm_ne_flowUnsteady])

theorem State.raiseAlarm_keepsCauseAlarms (s : State) (l : LineId) (k : AlarmKind) (o : AlarmObject) :
    KeepsCauseAlarms l s (s.raiseAlarm k o) := fun d h => by
  by_cases e : (d.alarm, AlarmObject.line l) = (k, o)
  · obtain ⟨rfl, rfl⟩ := Prod.mk.inj e
    exact s.raiseAlarm_alarmPresent _ _
  · exact (s.alarmPresent_raiseAlarm_other e).mpr h

theorem State.deviceTrip_keepsCauseAlarms (s : State) (l : LineId) (d : DeviceTrip) :
    KeepsCauseAlarms l s (s.deviceTrip d) := fun c h => by
  by_cases e : (c.alarm, AlarmObject.line l) = d.alarm
  · have := s.deviceTrip_alarmPresent d
    rwa [← e] at this
  · exact (s.alarmPresent_deviceTrip_other d e).mpr h

/-- The causes found since `s` have their alarms in `y`. -/
def Raised (s y : State) (l : LineId) (found : TripCause → Prop) : Prop :=
  ∀ c, found c → c ∉ (s.seq l).trips → AlarmPresent y c.alarm (.line l)

theorem Raised.later {s y z : State} {l : LineId} {found : TripCause → Prop} (h : Raised s y l found)
    (g : KeepsCauseAlarms l y z) : Raised s z l found := fun c f n => g c (h c f n)

theorem Raised.trip_if {s y z : State} {l : LineId} {found : TripCause → Prop} {warned cleared : Prop} {fresh : Nat}
    (r : Raised s y l found) (h : Judgements s y l found warned cleared fresh) (hs : (s.seq l).state ≠ .disconnected)
    (c : TripCause) {p : Prop} (yes : p → z = y.addTrip l c) (no : ¬ p → z = y) :
    Raised s z l fun d => found d ∨ d = c ∧ p := by
  rintro d (f | ⟨rfl, hp⟩) n
  · by_cases hp : p
    · rw [yes hp]
      exact y.addTrip_keepsCauseAlarms l c d (r d f n)
    · rw [no hp]
      exact r d f n
  · rw [yes hp]
    by_cases hd : d ∈ (y.seq l).trips
    · exact y.addTrip_keepsCauseAlarms l d d (r d (((h.trips d).mp hd).resolve_left n) n)
    · exact State.addTrip_raised (h.connected hs) hd

/-! ### The stretch warning under a condition (R10, R11) -/

section Step

variable {s y z : State} {l : LineId} {found : TripCause → Prop} {warned p : Prop} {fresh : Nat}

theorem Judgements.warn_if (h : Judgements s y l found False False fresh) (yes : p → z = y.addHold l .stretch)
    (no : ¬ p → z = y) (hf : y.freshTClose l = fresh) : Judgements s z l found p False fresh := by
  by_cases hp : p
  · rw [yes hp, eq_true hp]
    exact h.warn hf
  · rw [no hp, eq_false hp]
    exact h

end Step

theorem Judgements.tStroke {s y : State} {l : LineId} {found : TripCause → Prop} {warned cleared : Prop} {fresh : Nat}
    (h : Judgements s y l found warned cleared fresh) : (y.drive l).tStroke = (s.drive l).tStroke := by
  by_cases j : Joins (s.seq l) found
  · by_cases e : (s.seq l).state ∈ [LineState.tripping, .tripped]
    · rw [(h.still (fun _ => e) fun n => absurd j n).1]
    · rw [(h.tripped j e).2.1]
      rfl
  · by_cases b : Begins (s.seq l) warned
    · rw [((h.stays j).2.1 b).2.1]
      unfold Drive.rampTo
      split <;> rfl
    · rw [(h.still (fun x => absurd x j) fun _ => b).1]

/-! ### The judgements of an event -/

/-- R4, R8, R12: the trip causes that a sample event finds. -/
def Found (sensor : Prop) (high trip : Nat) (c : TripCause) : Prop :=
  c = .sensorFault ∧ sensor ∨ c = .overpressure ∧ 3 ≤ high ∨ c = .stretchTrip ∧ 2 ≤ trip

/-- R10: an in-range stretch sample above the warn limit of the band. -/
def WarnedBy (m : Meas) (x : Option Nat) (lim : Limits) : Prop := ∃ v, x = some v ∧ m.warnLimit lim < v

/-- R11: a warning stands, and the quiet spell is long enough. -/
def Meas.QuietEnough (m : Meas) : Prop := m.warn = true ∧ 50 ≤ m.clearRun

end Sys2Proof.Machine
end

section
/-! SUPPORT. The judgements of a sample event, one after another, and what they find (R4, R8, R10 to R12). -/

namespace Sys2Proof.Machine

/-- R4: a line in which SENSOR_FAULT joins has a transmitter out of range five times running. -/
def State.SensorFound (s : State) (l : LineId) (x : Sample) : Prop :=
  ((s.sampled l x).meas l).faulted = true ∧ (s.seq l).state.sensed = true

/-- R8: the measurement state once the over-pressure run is counted. -/
def State.pressed (s : State) (l : LineId) (x : Sample) (lim : Limits) : Meas :=
  ((s.sampled l x).meas l).takePressure x.pressure lim.pRated

/-- R10 to R12: the measurement state once the stretch runs are counted. -/
def State.stretchedBy (s : State) (l : LineId) (x : Sample) (lim : Limits) : Meas :=
  (s.pressed l x lim).stretched x.stretch lim

section Stages

variable {s : State} {l : LineId} (x : Sample) (lim : Limits)

theorem State.pressureJudged_own : Own l s (s.pressureJudged l x lim) :=
  (((s.sampled_soft l x).own.trans (State.judgeSensorFault_own _ l)).soft
    (Soft.refl.meas (Meas.takePressure x.pressure lim.pRated) (Meas.takePressure_move _ _ _))).trans
    (State.judgeOverpressure_own _ l)

theorem State.stretchTaken_own (y : State) : Own l y (y.stretchTaken l x.stretch lim) := by
  cases x.stretch with
  | none => exact .refl
  | some v =>
    have soft : Soft l y (y.modMeas l (Meas.takeStretch v lim)) := Soft.refl.meas _ (Meas.takeStretch_move _ _ _)
    exact soft.own.trans (State.warnStretch_own _ l _ _)

/-- R4: the transmitters of an event. -/
theorem State.sensorJudged_judgements (hs : (s.seq l).state ≠ .disconnected) (hd : AlarmsDistinct s) (fresh : Nat) :
    Judgements s ((s.sampled l x).judgeSensorFault l) l (Found (s.SensorFound l x) 0 0) False False fresh
      ∧ Raised s ((s.sampled l x).judgeSensorFault l) l (Found (s.SensorFound l x) 0 0) := by
  have soft := s.sampled_soft l x
  have started : Judgements s (s.sampled l x) l (fun _ => False) False False fresh := by
    refine .start fresh (soft.seq l) (by simp [State.sampled]) (by simp [State.sampled]) ?_ (soft.distinct hd)
    rw [s.sampled_meas]
    exact ⟨rfl, rfl, rfl⟩
  have yes : s.SensorFound l x → (s.sampled l x).judgeSensorFault l = (s.sampled l x).addTrip l .sensorFault :=
    fun h => if_pos ⟨h.1, by rw [soft.seq l]; exact h.2⟩
  have no : ¬ s.SensorFound l x → (s.sampled l x).judgeSensorFault l = s.sampled l x :=
    fun h => if_neg fun g => h ⟨g.1, by rw [← soft.seq l]; exact g.2⟩
  have found : (fun d => False ∨ d = .sensorFault ∧ s.SensorFound l x) = Found (s.SensorFound l x) 0 0 := by
    funext c
    simp [Found]
  exact ⟨found ▸ started.trip_if hs .sensorFault yes no,
    found ▸ Raised.trip_if (fun _ f => absurd f id) started hs .sensorFault yes no⟩

/-- R8: the over-pressure run of an event, and its judgement. -/
theorem Judgements.pressure {a : State} {sensor : Prop} {fresh : Nat} (hs : (s.seq l).state ≠ .disconnected)
    (h : Judgements s a l (Found sensor 0 0) False False fresh) (r : Raised s a l (Found sensor 0 0))
    (taken : ((s.sampled l x).meas l).Steadied (a.meas l)) :
    Judgements s ((a.modMeas l (Meas.takePressure x.pressure lim.pRated)).judgeOverpressure l) l
        (Found sensor (s.pressed l x lim).overRun 0) False False fresh
      ∧ Raised s ((a.modMeas l (Meas.takePressure x.pressure lim.pRated)).judgeOverpressure l) l
        (Found sensor (s.pressed l x lim).overRun 0) := by
  have high : ((a.modMeas l (Meas.takePressure x.pressure lim.pRated)).meas l).overRun = (s.pressed l x lim).overRun := by
    obtain ⟨_, _, _, e⟩ := Meas.steadied_iff.mp (taken.takePressure x.pressure lim.pRated)
    rw [State.modMeas_meas, if_pos rfl, e]
    rfl
  have pressed : Judgements s (a.modMeas l (Meas.takePressure x.pressure lim.pRated)) l (Found sensor 0 0) False False
      fresh := by
    refine h.aside (by simp) (by simp) (by simp) ?_ (AlarmPresent.congr (by simp) _ _).mp ?_
    · rw [State.modMeas_meas, if_pos rfl]
      exact Meas.takePressure_steady _ _ _
    · exact (Soft.refl.meas _ (Meas.takePressure_move _ _ _) : Soft l a _).distinct h.distinct
  have raised : Raised s (a.modMeas l (Meas.takePressure x.pressure lim.pRated)) l (Found sensor 0 0) :=
    r.later (.of_same (by simp))
  generalize a.modMeas l (Meas.takePressure x.pressure lim.pRated) = b at pressed raised high ⊢
  have yes : 3 ≤ (s.pressed l x lim).overRun → b.judgeOverpressure l = b.addTrip l .overpressure :=
    fun g => if_pos ⟨pressed.connected hs, high ▸ g⟩
  have no : ¬ 3 ≤ (s.pressed l x lim).overRun → b.judgeOverpressure l = b :=
    fun g => if_neg fun f => g (high ▸ f.2)
  have found : (fun d => Found sensor 0 0 d ∨ d = .overpressure ∧ 3 ≤ (s.pressed l x lim).overRun)
      = Found sensor (s.pressed l x lim).overRun 0 := by
    funext c
    simp [Found]
  exact ⟨found ▸ pressed.trip_if hs .overpressure yes no, found ▸ raised.trip_if pressed hs .overpressure yes no⟩

/-- R4, R8: what the transmitters and the pressure of an event bring. -/
theorem State.pressureJudged_judgements (hs : (s.seq l).state ≠ .disconnected) (hd : AlarmsDistinct s) (fresh : Nat) :
    Judgements s (s.pressureJudged l x lim) l (Found (s.SensorFound l x) (s.pressed l x lim).overRun 0) False False fresh
      ∧ Raised s (s.pressureJudged l x lim) l (Found (s.SensorFound l x) (s.pressed l x lim).overRun 0) := by
  obtain ⟨h, r⟩ := State.sensorJudged_judgements x hs hd fresh
  exact h.pressure x lim hs r ((s.sampled l x).judgeSensorFault_steadied l l)

/-- R10, R47, R48: the stretch runs of an event, and the stretch warning; the closure that it begins takes the fresh T_close of
the event's readings (R18). -/
theorem Judgements.stretch {y : State} {found : TripCause → Prop} (own : Own l s y)
    (h : Judgements s y l found False False ((s.sampled l x).freshTClose l)) (r : Raised s y l found)
    (taken : (s.pressed l x lim).Steadied (y.meas l)) :
    Judgements s (y.stretchTaken l x.stretch lim) l found (WarnedBy (s.meas l) x.stretch lim) False
        ((s.sampled l x).freshTClose l)
      ∧ Raised s (y.stretchTaken l x.stretch lim) l found
      ∧ (WarnedBy (s.meas l) x.stretch lim → AlarmPresent (y.stretchTaken l x.stretch lim) .stretchWarn (.line l)) := by
  have limit : (y.meas l).warnLimit lim = (s.meas l).warnLimit lim := by
    obtain ⟨_, _, _, e⟩ := Meas.steadied_iff.mp taken
    rw [e, State.pressed, s.sampled_meas]
    cases x.pressure <;> rfl
  cases hx : x.stretch with
  | none =>
    have quiet : WarnedBy (s.meas l) none lim ↔ False := ⟨fun ⟨_, e, _⟩ => (nomatch e), False.elim⟩
    rw [propext quiet]
    exact ⟨h, r, False.elim⟩
  | some v =>
    have warned : WarnedBy (s.meas l) (some v) lim ↔ (s.meas l).warnLimit lim < v :=
      ⟨fun ⟨_, e, g⟩ => Option.some.inj e ▸ g, fun g => ⟨v, rfl, g⟩⟩
    rw [propext warned]
    have stretched : Judgements s (y.modMeas l (Meas.takeStretch v lim)) l found False False
        ((s.sampled l x).freshTClose l) := by
      refine h.aside (by simp) (by simp) (by simp) ?_ (AlarmPresent.congr (by simp) _ _).mp ?_
      · rw [State.modMeas_meas, if_pos rfl]
        exact Meas.stretched_steady _ (some v) lim
      · exact (Soft.refl.meas _ (Meas.takeStretch_move _ _ _) : Soft l y _).distinct h.distinct
    have readings : ((s.sampled l x).meas l).SameReadings ((y.modMeas l (Meas.takeStretch v lim)).meas l) := by
      rw [State.modMeas_meas, if_pos rfl]
      exact ((Meas.takePressure_readings _ _ _).trans taken.readings).trans (Meas.stretched_readings _ (some v) lim)
    have raised : Raised s (y.modMeas l (Meas.takeStretch v lim)) l found := r.later (.of_same (by simp))
    have own' : Own l s (y.modMeas l (Meas.takeStretch v lim)) :=
      own.soft (Soft.refl.meas _ (Meas.takeStretch_move _ _ _))
    have e : y.stretchTaken l (some v) lim
        = (y.modMeas l (Meas.takeStretch v lim)).warnStretch l v ((s.meas l).warnLimit lim) := by
      rw [← limit]
      rfl
    rw [e]
    generalize y.modMeas l (Meas.takeStretch v lim) = z at stretched readings raised own' ⊢
    by_cases g : (s.meas l).warnLimit lim < v
    · have warnedState : z.warnStretch l v ((s.meas l).warnLimit lim)
          = (z.raiseAlarm .stretchWarn (.line l)).addHold l .stretch := if_pos g
      have marked : Judgements s (z.raiseAlarm .stretchWarn (.line l)) l found False False
          ((s.sampled l x).freshTClose l) := by
        refine stretched.aside (by simp) (by simp) (by simp) (by simp [Meas.SameSteady])
          (State.alarmPresent_raiseAlarm_other _ (by simp)).mp ?_
        exact (Soft.refl.raise _ _ : Soft l z _).distinct stretched.distinct
      have fresh : (z.raiseAlarm .stretchWarn (.line l)).freshTClose l = (s.sampled l x).freshTClose l := by
        refine State.freshTClose_of_readings ?_ ?_ (by simpa using readings) ?_
        · simp [own'.elsewhere.store, (s.sampled_soft l x).elsewhere.store]
        · simp [own'.elsewhere.clock, (s.sampled_soft l x).elsewhere.clock]
        · rw [marked.tStroke]
          simp [State.sampled]
      rw [warnedState]
      refine ⟨marked.warn_if (fun _ => rfl) (fun n => absurd g n) fresh,
        raised.later ((State.raiseAlarm_keepsCauseAlarms _ _ _ _).trans (State.addHold_keepsCauseAlarms _ _ _)), fun _ => ?_⟩
      exact (State.addHold_alarmPresent _ _ _ (by simp)).mpr (State.raiseAlarm_alarmPresent _ _ _)
    · have same : z.warnStretch l v ((s.meas l).warnLimit lim) = z := if_neg g
      rw [same]
      rw [eq_false g]
      exact ⟨stretched, raised, False.elim⟩

end Stages

end Sys2Proof.Machine
end

section
/-! SUPPORT. The end of the stretch warning and the stretch trip among the judgements of a sample event, and all of them together
(R11, R12). -/

namespace Sys2Proof.Machine

section Stages

variable {s : State} {l : LineId} (x : Sample) (lim : Limits)

theorem State.judgeStretchClear_eq {s : State} {l : LineId} (h : (s.meas l).QuietEnough) : s.judgeStretchClear l =
    ((s.modMeas l fun m => { m with warn := false }).dropHold l .stretch).alarmGone .stretchWarn (.line l) := if_pos h

theorem State.judgeStretchClear_eq_self {s : State} {l : LineId} (h : ¬ (s.meas l).QuietEnough) :
    s.judgeStretchClear l = s := if_neg h

/-- R11, R49: the end of the stretch warning. -/
theorem Judgements.quiet {y : State} {found : TripCause → Prop} {warned : Prop} {fresh : Nat}
    (h : Judgements s y l found warned False fresh) (r : Raised s y l found) :
    Judgements s (y.judgeStretchClear l) l found warned (y.meas l).QuietEnough fresh
      ∧ Raised s (y.judgeStretchClear l) l found
      ∧ ((y.meas l).QuietEnough → ¬ AlarmPresent (y.judgeStretchClear l) .stretchWarn (.line l)) := by
  by_cases q : (y.meas l).QuietEnough
  · rw [State.judgeStretchClear_eq q, eq_true q]
    have unwarned : Judgements s (y.modMeas l fun m => { m with warn := false }) l found warned False fresh := by
      refine h.aside (by simp) (by simp) (by simp) ?_ (AlarmPresent.congr (by simp) _ _).mp ?_
      · rw [State.modMeas_meas, if_pos rfl]
        exact ⟨rfl, rfl, rfl⟩
      · exact (Soft.refl.meas _ ⟨rfl, Nat.le_refl _⟩ : Soft l y _).distinct h.distinct
    have cleared := unwarned.clear
    have raised : Raised s ((y.modMeas l fun m => { m with warn := false }).dropHold l .stretch) l found :=
      r.later (.of_same (by simp [State.dropHold]))
    generalize (y.modMeas l fun m => { m with warn := false }).dropHold l .stretch = z at cleared raised
    refine ⟨cleared.aside (by simp) (by simp) (by simp) (by simp [Meas.SameSteady])
      (State.alarmPresent_alarmGone_other _ (by simp)).mp ((Soft.refl.gone _ _ : Soft l z _).distinct cleared.distinct),
      raised.later (.of_iff fun c => State.alarmPresent_alarmGone_other _ (by simp [c.alarm_ne_stretchWarn])),
      fun _ => State.alarmGone_not_present _ _ _ cleared.distinct⟩
  · rw [State.judgeStretchClear_eq_self q, eq_false q]
    exact ⟨h, r, False.elim⟩

/-- R12, R147: the stretch trip, and the device trip with it. -/
theorem Judgements.stretchTrip {y : State} {sensor warned cleared : Prop} {high fresh : Nat}
    (hs : (s.seq l).state ≠ .disconnected) (own : Own l s y)
    (h : Judgements s y l (Found sensor high 0) warned cleared fresh) (r : Raised s y l (Found sensor high 0)) :
    Judgements s (y.judgeStretchTrip l) l (Found sensor high (y.meas l).tripRun) warned cleared fresh
      ∧ Raised s (y.judgeStretchTrip l) l (Found sensor high (y.meas l).tripRun)
      ∧ (AlarmPresent (y.judgeStretchTrip l) .stretchWarn (.line l) ↔ AlarmPresent y .stretchWarn (.line l))
      ∧ (2 ≤ (y.meas l).tripRun → DeviceTrip.stretchTrip l ∈ (y.judgeStretchTrip l).device
          ∧ (y.judgeStretchTrip l).esd.contact = .opened)
      ∧ (∀ d, d ≠ .stretchTrip l → (d ∈ (y.judgeStretchTrip l).device ↔ d ∈ s.device))
      ∧ ((y.meas l).tripRun < 2 → (y.judgeStretchTrip l).device = s.device ∧ (y.judgeStretchTrip l).esd = s.esd) := by
  have found : ∀ c, Found sensor high (y.meas l).tripRun c
      ↔ Found sensor high 0 c ∨ c = .stretchTrip ∧ 2 ≤ (y.meas l).tripRun := fun c => by
    simp [Found, or_assoc]
  have found' := funext fun c => propext (found c)
  by_cases g : 2 ≤ (y.meas l).tripRun
  · have e : y.judgeStretchTrip l = (y.addTrip l .stretchTrip).deviceTrip (.stretchTrip l) :=
      if_pos ⟨h.connected hs, g⟩
    have same := (own.trans (y.addTrip_own l .stretchTrip)).elsewhere
    have tripped := h.trip_if hs .stretchTrip (p := 2 ≤ (y.meas l).tripRun) (fun _ => rfl) fun n => absurd g n
    have raised := r.trip_if h hs .stretchTrip (p := 2 ≤ (y.meas l).tripRun) (fun _ => rfl) fun n => absurd g n
    rw [e, found']
    refine ⟨tripped.aside (by simp) (by simp) (by simp) (by simp [Meas.SameSteady])
      (State.alarmPresent_deviceTrip_other _ _ (by simp [DeviceTrip.alarm])).mp ?_,
      raised.later (State.deviceTrip_keepsCauseAlarms _ _ _), ?_,
      fun _ => ⟨(State.mem_deviceTrip _ _ _).mpr (.inl rfl), by simp⟩, fun d hd => ?_, fun n => absurd g (by omega)⟩
    · exact ((State.deviceTrip_free _ _ trivial : Free .all _ _)).distinct tripped.distinct
    · rw [State.alarmPresent_deviceTrip_other _ _ (by simp [DeviceTrip.alarm])]
      exact y.addTrip_alarmPresent l .stretchTrip (by simp [TripCause.alarm]) (by simp)
    · rw [State.mem_deviceTrip, same.device]
      simp [hd]
  · have e : y.judgeStretchTrip l = y := if_neg fun f => g f.2
    have same := own.elsewhere
    have none : Found sensor high (y.meas l).tripRun = Found sensor high 0 := by
      rw [found']
      simp [g]
    rw [e, none]
    exact ⟨h, r, Iff.rfl, fun n => absurd n g, fun d _ => by rw [same.device], fun _ => ⟨same.device, same.esd⟩⟩

/-- R11: a sample above the warn limit is no quiet sample. -/
theorem State.not_quietEnough (h : WarnedBy (s.meas l) x.stretch lim) : ¬ (s.stretchedBy l x lim).QuietEnough := by
  obtain ⟨v, hv, above⟩ := h
  have limit : (s.pressed l x lim).warnLimit lim = (s.meas l).warnLimit lim := by
    rw [State.pressed, s.sampled_meas]
    cases x.pressure <;> rfl
  unfold State.stretchedBy Meas.QuietEnough Meas.stretched
  rw [hv]
  simp [Meas.takeStretch, limit, above]

/-- The trip causes that an event finds on a line. -/
def State.FoundBy (s : State) (l : LineId) (x : Sample) (lim : Limits) : TripCause → Prop :=
  Found (s.SensorFound l x) (s.pressed l x lim).overRun (s.stretchedBy l x lim).tripRun

/-- R4, R8, R10 to R12: what the judgements of a sample event make of their line. -/
theorem State.judgedStage_judgements (hs : (s.seq l).state ≠ .disconnected) (hd : AlarmsDistinct s) :
    Judgements s (s.judgedStage l x lim) l (s.FoundBy l x lim) (WarnedBy (s.meas l) x.stretch lim)
        (s.stretchedBy l x lim).QuietEnough ((s.sampled l x).freshTClose l)
      ∧ Raised s (s.judgedStage l x lim) l (s.FoundBy l x lim)
      ∧ (WarnedBy (s.meas l) x.stretch lim → AlarmPresent (s.judgedStage l x lim) .stretchWarn (.line l))
      ∧ ((s.stretchedBy l x lim).QuietEnough → ¬ AlarmPresent (s.judgedStage l x lim) .stretchWarn (.line l))
      ∧ (2 ≤ (s.stretchedBy l x lim).tripRun → DeviceTrip.stretchTrip l ∈ (s.judgedStage l x lim).device
          ∧ (s.judgedStage l x lim).esd.contact = .opened)
      ∧ (∀ d, d ≠ .stretchTrip l → (d ∈ (s.judgedStage l x lim).device ↔ d ∈ s.device))
      ∧ ((s.stretchedBy l x lim).tripRun < 2 → (s.judgedStage l x lim).device = s.device
          ∧ (s.judgedStage l x lim).esd = s.esd) := by
  obtain ⟨h, r⟩ := State.pressureJudged_judgements x lim hs hd ((s.sampled l x).freshTClose l)
  obtain ⟨h, r, warned⟩ := h.stretch x lim (State.pressureJudged_own x lim) r (s.pressureJudged_meas l x lim)
  have own := (State.pressureJudged_own (s := s) (l := l) x lim).trans (State.stretchTaken_own x lim _)
  have taken := ((s.pressureJudged_meas l x lim).stretched x.stretch lim).trans (State.stretchTaken_meas _ l x.stretch lim)
  unfold State.judgedStage
  generalize (s.pressureJudged l x lim).stretchTaken l x.stretch lim = y at h r warned own taken
  obtain ⟨h, r, quiet⟩ := h.quiet r
  have same : (y.meas l).QuietEnough ↔ (s.stretchedBy l x lim).QuietEnough := by
    obtain ⟨_, _, _, e⟩ := Meas.steadied_iff.mp taken
    rw [e]
    rfl
  have run : ((y.judgeStretchClear l).meas l).tripRun = (s.stretchedBy l x lim).tripRun := by
    obtain ⟨_, _, _, e⟩ := Meas.steadied_iff.mp taken
    rw [y.judgeStretchClear_meas, Meas.quieted, e]
    split <;> rfl
  have stays : WarnedBy (s.meas l) x.stretch lim → AlarmPresent (y.judgeStretchClear l) .stretchWarn (.line l) :=
    fun w => by
      rw [State.judgeStretchClear_eq_self fun q => State.not_quietEnough x lim w (same.mp q)]
      exact warned w
  have tripped := h.stretchTrip hs (own.trans (y.judgeStretchClear_own l)) r
  rw [run, propext same] at tripped
  rw [propext same] at quiet
  obtain ⟨h, r, alarm, device, others, idle⟩ := tripped
  exact ⟨h, r, fun w => alarm.mpr (stays w), fun q p => quiet q (alarm.mp p), device, others, idle⟩

end Stages

end Sys2Proof.Machine
end

section
/-! SUPPORT. The steady detector at the measurement stage (R13, R14). -/

namespace Sys2Proof.Machine

/-- R13, R14: of a measurement state only what the steady detector writes has changed. -/
def Meas.Detected (a b : Meas) : Prop :=
  b = { a with steady := b.steady, inRun := b.inRun, outRun := b.outRun, epoch := b.epoch, band := b.band }

theorem Meas.Detected.readings {a b : Meas} (h : a.Detected b) : a.SameReadings b := by
  unfold Meas.Detected at h
  rw [h]
  rfl

theorem Meas.Detected.runs {a b : Meas} (h : a.Detected b) :
    b.overRun = a.overRun ∧ b.clearRun = a.clearRun ∧ b.tripRun = a.tripRun ∧ b.warn = a.warn := by
  unfold Meas.Detected at h
  rw [h]
  exact ⟨rfl, rfl, rfl, rfl⟩

section Detector

variable {y : State} {l : LineId}

theorem State.steadyStage_idle (h : (y.seq l).state ≠ .delivering) : y.steadyStage l = y := by
  unfold State.steadyStage
  split
  · next e _ _ => exact absurd e h
  · rfl

theorem State.steadyStage_eq {q e : Nat} (h : (y.seq l).state = .delivering) (hq : (y.meas l).q = some q)
    (he : (y.rate l).eff = some e) : y.steadyStage l =
      if (y.meas l).steady = true then
        if 2 * steadyBand e y.settings.band < absDiff q e then
          (y.modMeas l fun m => { m with outRun := m.outRun + 1 }).judgeUnsteady l
        else y.modMeas l fun m => { m with outRun := 0 }
      else if absDiff q e ≤ steadyBand e y.settings.band then
        (y.modMeas l fun m => { m with inRun := m.inRun + 1 }).judgeSteady l
      else y.modMeas l fun m => { m with inRun := 0 } := by
  simp only [State.steadyStage, h, hq, he]

/-- R13: the in-band run is judged: the detector enters steady, or waits. -/
theorem State.judgeSteady_meas (h : (y.seq l).state = .delivering) (hs : (y.meas l).steady = false) :
    (y.judgeSteady l).meas l = if (y.meas l).steadyN ≤ (y.meas l).inRun then
        { y.meas l with steady := true, inRun := 0, outRun := 0, epoch := ((y.meas l).epoch + 1) % 65536, band := .running }
      else y.meas l := by
  unfold State.judgeSteady
  simp only [h, hs, true_and]
  split
  · simp [State.enterSteady]
  · rfl

/-- R14: the out-of-band run is judged: steady is lost, or stands. -/
theorem State.judgeUnsteady_meas (h : (y.seq l).state = .delivering) (hs : (y.meas l).steady = true) :
    (y.judgeUnsteady l).meas l = if 3 ≤ (y.meas l).outRun then
        { y.meas l with steady := false, inRun := 0, outRun := 0 }
      else y.meas l := by
  unfold State.judgeUnsteady
  simp only [h, hs, true_and]
  split
  · simp [State.endSteady, hs]
  · rfl

theorem State.judgeSteady_gone (d : AlarmsDistinct y) (h : (y.seq l).state = .delivering) (hs : (y.meas l).steady = false)
    (hn : (y.meas l).steadyN ≤ (y.meas l).inRun) : ¬ AlarmPresent (y.judgeSteady l) .flowUnsteady (.line l) := by
  have e : y.judgeSteady l = y.enterSteady l := if_pos ⟨h, hs, hn⟩
  rw [e]
  exact State.alarmGone_not_present _ _ _ ((Soft.refl.meas _ ⟨rfl, Nat.le_refl _⟩ : Soft l y _).notify _ |>.distinct d)

theorem State.judgeUnsteady_present (h : (y.seq l).state = .delivering) (hs : (y.meas l).steady = true)
    (hn : 3 ≤ (y.meas l).outRun) : AlarmPresent (y.judgeUnsteady l) .flowUnsteady (.line l) := by
  have e : y.judgeUnsteady l = (y.endSteady l).raiseAlarm .flowUnsteady (.line l) := if_pos ⟨h, hs, hn⟩
  rw [e]
  exact State.raiseAlarm_alarmPresent _ _ _

/-- R13, R14: the detector at a sample event in DELIVERING. -/
theorem State.steadyStage_judged {s : State} (h : (y.seq l).state = .delivering) (rate : y.rate l = s.rate l)
    (steady : (s.meas l).SameSteady (y.meas l)) (band : (y.meas l).band = (s.meas l).band)
    (epoch : (y.meas l).epoch = (s.meas l).epoch) (taken : (y.meas l).steadyN = s.settings.steadyn)
    (settings : y.settings = s.settings) (d : AlarmsDistinct y)
    (detected : (y.meas l).Detected ((y.steadyStage l).meas l)) : SteadyJudged l s (y.steadyStage l) := by
  intro q e hq he
  have hq' : (y.meas l).q = some q := by
    unfold Meas.Detected at detected
    rw [detected] at hq
    exact hq
  obtain ⟨flag, inRun, outRun⟩ := steady
  have whole := State.steadyStage_eq h hq' (rate ▸ he)
  rw [settings, steadyBand] at whole
  simp only []
  refine ⟨fun hm inside => ?_, fun hm outside => ?_, fun hm outside => ?_, fun hm inside => ?_⟩
  · rw [if_neg (by simp [flag, hm]), if_pos inside] at whole
    have counted : ((y.modMeas l fun m => { m with inRun := m.inRun + 1 }).meas l)
        = { y.meas l with inRun := (s.meas l).inRun + 1 } := by simp [inRun]
    have state : ((y.modMeas l fun m => { m with inRun := m.inRun + 1 }).seq l).state = .delivering := by simpa using h
    have flag' : ((y.modMeas l fun m => { m with inRun := m.inRun + 1 }).meas l).steady = false := by
      rw [counted]; exact flag.trans hm
    have meas := State.judgeSteady_meas state flag'
    rw [whole, meas, counted]
    refine ⟨fun n => ?_, fun n => ?_⟩
    · rw [if_neg (by simpa [taken] using n)]
      exact ⟨flag.trans hm, rfl, outRun, epoch, band⟩
    · have long : (y.meas l).steadyN ≤ (s.meas l).inRun + 1 := by rw [taken]; exact n
      rw [if_pos long]
      refine ⟨rfl, rfl, rfl, by simp [epoch], rfl, State.judgeSteady_gone ?_ state flag' (by rw [counted]; exact long)⟩
      exact (Soft.refl.meas _ ⟨rfl, Nat.le_refl _⟩ : Soft l y _).distinct d
  · rw [if_neg (by simp [flag, hm]), if_neg (Nat.not_le.mpr outside)] at whole
    rw [whole, State.modMeas_meas, if_pos rfl]
    exact ⟨flag.trans hm, rfl, outRun, epoch, band⟩
  · rw [if_pos (flag.trans hm), if_pos outside] at whole
    have counted : ((y.modMeas l fun m => { m with outRun := m.outRun + 1 }).meas l)
        = { y.meas l with outRun := (s.meas l).outRun + 1 } := by simp [outRun]
    have state : ((y.modMeas l fun m => { m with outRun := m.outRun + 1 }).seq l).state = .delivering := by simpa using h
    have flag' : ((y.modMeas l fun m => { m with outRun := m.outRun + 1 }).meas l).steady = true := by
      rw [counted]; exact flag.trans hm
    have meas := State.judgeUnsteady_meas state flag'
    rw [whole, meas, counted]
    refine ⟨fun n => ?_, fun n => ?_⟩
    · rw [if_neg (Nat.not_le.mpr n)]
      exact ⟨flag.trans hm, inRun, rfl, epoch, band⟩
    · rw [if_pos n]
      exact ⟨rfl, rfl, rfl, epoch, band, State.judgeUnsteady_present state flag' (by rw [counted]; exact n)⟩
  · rw [if_pos (flag.trans hm), if_neg (Nat.not_lt.mpr inside)] at whole
    rw [whole, State.modMeas_meas, if_pos rfl]
    exact ⟨flag.trans hm, inRun, rfl, epoch, band⟩

/-- R13, R14: what the detector touches. -/
structure Detects (l : LineId) (y t : State) : Prop where
  seqs : t.seqs = y.seqs
  rates : t.rates = y.rates
  drives : t.drives = y.drives
  meas : (y.meas l).Detected (t.meas l)
  alarm : ∀ k o, (k, o) ≠ (.flowUnsteady, .line l) → (AlarmPresent t k o ↔ AlarmPresent y k o)

theorem Detects.refl : Detects l y y := ⟨rfl, rfl, rfl, rfl, fun _ _ _ => Iff.rfl⟩

theorem Detects.trans {t u : State} (h : Detects l y t) (g : Detects l t u) : Detects l y u := by
  refine ⟨g.seqs.trans h.seqs, g.rates.trans h.rates, g.drives.trans h.drives, ?_,
    fun k o n => (g.alarm k o n).trans (h.alarm k o n)⟩
  have a := h.meas
  have b := g.meas
  unfold Meas.Detected at a b ⊢
  rw [b, a]

theorem Detects.of_meas (f : Meas → Meas) (hf : ∀ m : Meas, m.Detected (f m)) : Detects l y (y.modMeas l f) :=
  ⟨rfl, rfl, rfl, by rw [State.modMeas_meas, if_pos rfl]; exact hf _, fun _ _ _ => AlarmPresent.congr (by simp) _ _⟩

theorem State.judgeSteady_detects : Detects l y (y.judgeSteady l) := by
  unfold State.judgeSteady
  simp only []
  split
  · refine ⟨by simp [State.enterSteady], by simp [State.enterSteady], by simp [State.enterSteady],
      by simp [State.enterSteady, Meas.Detected], fun k o n => ?_⟩
    unfold State.enterSteady
    rw [State.alarmPresent_alarmGone_other _ n]
    exact AlarmPresent.congr (by simp) _ _
  · exact .refl

theorem State.judgeUnsteady_detects : Detects l y (y.judgeUnsteady l) := by
  unfold State.judgeUnsteady
  simp only []
  split
  · next h =>
    refine ⟨by simp [State.endSteady, h], by simp [State.endSteady, h], by simp [State.endSteady, h],
      by simp [State.endSteady, h, Meas.Detected], fun k o n => ?_⟩
    rw [State.alarmPresent_raiseAlarm_other _ n]
    exact AlarmPresent.congr (by simp [State.endSteady, h]) _ _
  · exact .refl

theorem State.steadyStage_detects : Detects l y (y.steadyStage l) := by
  unfold State.steadyStage
  split
  · simp only []
    split
    · split
      · exact (Detects.of_meas (fun m => { m with outRun := m.outRun + 1 }) fun _ => rfl).trans State.judgeUnsteady_detects
      · exact .of_meas _ fun _ => rfl
    · split
      · exact (Detects.of_meas (fun m => { m with inRun := m.inRun + 1 }) fun _ => rfl).trans State.judgeSteady_detects
      · exact .of_meas _ fun _ => rfl
  · exact .refl

end Detector

end Sys2Proof.Machine
end

section
/-! SUPPORT. The measurement stage of a sample event, in the words of R4 and R8 to R14. -/

namespace Sys2Proof.Machine

section Stage

variable {s : State} {l : LineId} {x : Sample} {lim : Limits}

theorem State.judgedStage_free : Free { Scope.line l with trip := True } s (s.judgedStage l x lim) := by
  have own : Own l s (((s.pressureJudged l x lim).stretchTaken l x.stretch lim).judgeStretchClear l) :=
    ((State.pressureJudged_own x lim).trans (State.stretchTaken_own x lim _)).trans (State.judgeStretchClear_own _ l)
  exact (own.free rfl).trans (State.judgeStretchTrip_free _ l rfl trivial)

/-- R10: the warn limit of the band. -/
theorem Meas.warnLimit_eq (m : Meas) (lim : Limits) :
    m.warnLimit lim = if m.band = .settling then lim.warnSettle else lim.warnRun := by
  unfold Meas.warnLimit
  cases m.band <;> rfl

/-- R11: a stretch above the warn limit is not below the clear level, so the clear run is judged by the level alone. -/
theorem Meas.takeStretch_clearRun (m : Meas) (v : Nat) (lim : Limits) : (m.takeStretch v lim).clearRun =
    if v < max (m.warnLimit lim - 50) 1 then m.clearRun + 1 else 0 := by
  have level : m.warnLimit lim < v → ¬ v < max (m.warnLimit lim - 50) 1 := by omega
  simp only [Meas.takeStretch, clearLevel]
  split
  · next h => rw [if_neg (level h)]
  · rfl

/-- R4, R55: SENSOR_FAULT is found by the runs that the event leaves. -/
theorem State.sensorFound_iff {m : Meas} (h : ((s.sampled l x).meas l).SameReadings m) : s.SensorFound l x ↔
    (s.seq l).state ∈ [LineState.opening, .delivering, .holding, .held, .finishing]
      ∧ (5 ≤ m.pressureOut ∨ 5 ≤ m.stretchOut ∨ 5 ≤ m.positionOut) := by
  have faulted : m.faulted = ((s.sampled l x).meas l).faulted := by
    unfold Meas.SameReadings at h
    rw [h]
    rfl
  unfold State.SensorFound
  rw [← faulted]
  cases (s.seq l).state <;> simp [Meas.faulted, LineState.sensed, or_assoc]

theorem Meas.quieted_runs (m : Meas) :
    m.quieted.overRun = m.overRun ∧ m.quieted.clearRun = m.clearRun ∧ m.quieted.tripRun = m.tripRun := by
  unfold Meas.quieted
  split <;> exact ⟨rfl, rfl, rfl⟩

theorem Meas.quieted_warn (m : Meas) : m.quieted.warn = true ↔ m.warn = true ∧ ¬ m.QuietEnough := by
  unfold Meas.quieted Meas.QuietEnough
  split
  · next h => simp [h]
  · next h => exact ⟨fun w => ⟨w, h⟩, And.left⟩

/-- R8: the pressure of an event touches none of the stretch figures. -/
theorem State.pressed_stretch : (s.pressed l x lim).warnLimit lim = (s.meas l).warnLimit lim
    ∧ (s.pressed l x lim).clearRun = (s.meas l).clearRun ∧ (s.pressed l x lim).tripRun = (s.meas l).tripRun
    ∧ (s.pressed l x lim).warn = (s.meas l).warn := by
  rw [State.pressed, s.sampled_meas]
  cases x.pressure <;> exact ⟨rfl, rfl, rfl, rfl⟩

/-- R10: the warning stands on, or is raised. -/
theorem State.stretchedBy_warn :
    (s.stretchedBy l x lim).warn = true ↔ (s.meas l).warn = true ∨ WarnedBy (s.meas l) x.stretch lim := by
  obtain ⟨limit, -, -, warn⟩ := State.pressed_stretch (s := s) (l := l) (x := x) (lim := lim)
  unfold State.stretchedBy WarnedBy
  rw [← limit, ← warn]
  cases x.stretch <;> simp [Meas.stretched, Meas.takeStretch]

/-- R11: a warning raised by the event itself does not end in it. -/
theorem State.quietEnough_iff : (s.stretchedBy l x lim).QuietEnough
    ↔ (s.meas l).warn = true ∧ 50 ≤ (s.stretchedBy l x lim).clearRun :=
  ⟨fun h => ⟨(State.stretchedBy_warn.mp h.1).resolve_right fun w => State.not_quietEnough x lim w h, h.2⟩,
    fun h => ⟨State.stretchedBy_warn.mpr (.inl h.1), h.2⟩⟩

theorem Detects.line {y t : State} (h : Detects l y t) :
    t.seq l = y.seq l ∧ t.rate l = y.rate l ∧ t.drive l = y.drive l := by
  unfold State.seq State.rate State.drive
  rw [h.seqs, h.rates, h.drives]
  exact ⟨rfl, rfl, rfl⟩

/-- R8, R10 to R12: the runs and the warning that the measurement stage leaves. -/
theorem State.judgedStage_runs {m : Meas} (detects : ((s.judgedStage l x lim).meas l).Detected m) :
    m.overRun = (s.pressed l x lim).overRun ∧ m.clearRun = (s.stretchedBy l x lim).clearRun
      ∧ m.tripRun = (s.stretchedBy l x lim).tripRun ∧ m.warn = (s.stretchedBy l x lim).quieted.warn := by
  obtain ⟨_, _, _, e⟩ := Meas.steadied_iff.mp (s.judgedStage_meas l x lim)
  obtain ⟨o, c, t, w⟩ := detects.runs
  rw [o, c, t, w, e]
  have kept : (s.stretchedBy l x lim).overRun = (s.pressed l x lim).overRun := by
    unfold State.stretchedBy
    cases x.stretch <;> rfl
  rw [← kept]
  obtain ⟨a, b, d⟩ := (s.stretchedBy l x lim).quieted_runs
  exact ⟨a, b, d, rfl⟩

/-- R3, R5, R6: what the event reads is there after its measurement stage. -/
theorem State.judgedStage_readings {m : Meas} (detects : ((s.judgedStage l x lim).meas l).Detected m) :
    ((s.sampled l x).meas l).SameReadings m :=
  ((Meas.judged_readings _ x lim).trans (s.judgedStage_meas l x lim).readings).trans detects.readings

/-- R18: the T_close formed in the measurement stage is that of the readings that it leaves. -/
theorem Judgements.fresh_eq {found : TripCause → Prop} {warned cleared : Prop} {n : Nat}
    (h : Judgements s (s.judgedStage l x lim) l found warned cleared n) :
    ((s.judgedStage l x lim).steadyStage l).freshTClose l = (s.sampled l x).freshTClose l := by
  have frame := (State.judgedStage_free (s := s) (l := l) (x := x) (lim := lim)).frame
  have same := (State.steadyStage_soft (s.judgedStage l x lim) l).elsewhere
  have sampled := (s.sampled_soft l x).elsewhere
  have detects := State.steadyStage_detects (y := s.judgedStage l x lim) (l := l)
  refine State.freshTClose_of_readings (same.store.trans (frame.store.trans sampled.store.symm))
    (same.clock.trans (frame.clock.trans sampled.clock.symm)) (State.judgedStage_readings detects.meas) ?_
  rw [detects.line.2.2, h.tStroke]
  simp [State.sampled]

/-- R4, R8 to R12: the measurement stage of a line that is not DISCONNECTED. -/
theorem State.measureStage_runs (hs : (s.seq l).state ≠ .disconnected) (hd : AlarmsDistinct s)
    (hl : s.limits l = some lim) : RunsJudged l x lim s (s.measureStage l x) := by
  obtain ⟨h, raised, warned', quiet', device, others, idle⟩ := State.judgedStage_judgements x lim hs hd
  have detects := State.steadyStage_detects (y := s.judgedStage l x lim) (l := l)
  have same := (State.steadyStage_soft (s.judgedStage l x lim) l).elsewhere
  obtain ⟨overRun, clearRun, tripRun, warn⟩ := State.judgedStage_runs detects.meas
  have sensor' := State.sensorFound_iff (State.judgedStage_readings detects.meas)
  rw [← h.fresh_eq] at h
  rw [s.measureStage_eq x hs hl]
  have detected : ((s.judgedStage l x lim).seq l).state ≠ .delivering →
      ((s.judgedStage l x lim).steadyStage l).alarms = (s.judgedStage l x lim).alarms := fun n => by
    rw [State.steadyStage_idle n]
  generalize s.judgedStage l x lim = f at *
  generalize f.steadyStage l = t at *
  obtain ⟨seq, rate, drive⟩ := detects.line
  obtain ⟨limit, clears, trips, -⟩ := State.pressed_stretch (s := s) (l := l) (x := x) (lim := lim)
  rw [Meas.warnLimit_eq (s.meas l)] at limit
  unfold RunsJudged
  intro q m w high quiet trip warned cleared sensor found joins holdsStretch
  have e_high : (s.pressed l x lim).overRun = high := by
    rw [State.pressed, s.sampled_meas]
    simp only [high, m]
    cases x.pressure <;> rfl
  have e_quiet : (s.stretchedBy l x lim).clearRun = quiet := by
    simp only [quiet, w, m, State.stretchedBy]
    cases x.stretch with
    | none => exact clears
    | some v =>
      rw [← limit, ← clears]
      exact Meas.takeStretch_clearRun _ v lim
  have e_trip : (s.stretchedBy l x lim).tripRun = trip := by
    simp only [trip, m, State.stretchedBy]
    cases x.stretch with
    | none => exact trips
    | some v =>
      rw [← trips]
      rfl
  have e_warned : WarnedBy (s.meas l) x.stretch lim = warned := by
    simp only [WarnedBy, Meas.warnLimit_eq, warned, w, m]
  have e_cleared : (s.stretchedBy l x lim).QuietEnough = cleared := by
    rw [propext State.quietEnough_iff, e_quiet]
  have e_found : s.FoundBy l x lim = found := by
    unfold State.FoundBy Found
    rw [e_high, e_trip, propext sensor']
  have warning : (t.meas l).warn = true ↔ (m.warn = true ∨ warned) ∧ ¬ cleared := by
    rw [warn, Meas.quieted_warn, State.stretchedBy_warn, e_warned, e_cleared]
  rw [e_found, e_warned, e_cleared] at h
  rw [e_found] at raised
  rw [e_warned] at warned'
  rw [e_cleared] at quiet'
  rw [e_trip] at device idle
  rw [seq, rate, drive, same.device, same.esd]
  clear_value w high quiet trip warned cleared sensor found
  have held : holdsStretch ∧ HoldCause.stretch ∉ q.holds ∧ q.state ∈ [LineState.opening, .delivering]
      ↔ Begins q warned := by
    simp only [holdsStretch, Begins]
    cases q.state <;> simp
  have unsteady : q.state = .delivering → (f.seq l).state ≠ .delivering → ¬ AlarmPresent t .flowUnsteady (.line l) :=
    fun e g p => (h.quits e g).2.2.2 ((AlarmPresent.congr (detected g) _ _).mp p)
  have alarm : ∀ k, k ≠ .flowUnsteady → (AlarmPresent t k (.line l) ↔ AlarmPresent f k (.line l)) :=
    fun k n => detects.alarm k _ (by simp [n])
  refine ⟨overRun.trans e_high, clearRun.trans e_quiet, tripRun.trans e_trip, warning, h.trips, h.grade, fun j => ?_,
    fun j n => ?_, fun j n => ?_, fun c f n => (alarm _ c.alarm_ne_flowUnsteady).mpr (raised c f n), fun j => ?_,
    fun w => (alarm _ (by simp)).mpr (warned' w), fun c p => quiet' c ((alarm _ (by simp)).mp p), device, others, idle⟩
  · by_cases n : q.state ∈ [LineState.tripping, .tripped]
    · rw [h.added j n]
      revert n
      show q.state ∈ _ → q.state = _
      cases q.state <;> simp
    · rw [(h.tripped j n).1, if_neg fun e => n (by simp [e])]
  · obtain ⟨a, b, c⟩ := h.tripped j n
    exact ⟨a, b, c, fun e => unsteady e (by rw [a]; simp)⟩
  · have here : joins → q.state ∈ [LineState.tripping, .tripped] := fun _ => n
    refine ⟨h.added j n, fun c => ?_, h.still here fun g => absurd j g⟩
    rw [h.holds here c]
    have out : q.state ∉ [LineState.opening, .delivering, .holding, .held] := by
      revert n
      cases q.state <;> simp
    simp only [show (s.seq l).state ∉ [LineState.opening, .delivering, .holding, .held] from out, and_false, or_false]
    rfl
  · obtain ⟨permit, begins, stays⟩ := h.stays j
    have here : joins → q.state ∈ [LineState.tripping, .tripped] := fun g => absurd g j
    refine ⟨permit, fun a b c => (begins (held.mp ⟨a, b, c⟩)).1, fun n => stays fun b => ?_, fun b => ?_, fun n => ?_, ?_,
      fun c n => ?_⟩
    · obtain ⟨a, b, c⟩ := held.mpr b
      rcases n with n | n | n
      · exact n a
      · exact b n
      · exact n c
    · obtain ⟨a, b, c⟩ := begins (held.mp b)
      exact ⟨b, c, fun e => unsteady e (by rw [a]; simp)⟩
    · exact h.still here fun _ b => n (held.mpr b)
    · rw [h.holds here .stretch]
      simp only [holdsStretch, true_and, forall_const]
      exact and_congr_left fun _ => or_congr_right and_comm
    · rw [h.holds here c]
      simp [n, q]

end Stage

end Sys2Proof.Machine
end

section
/-! SUPPORT. The measurement stage of a sample event: DISCONNECTED, and the steady detector (R2, R14). -/

namespace Sys2Proof.Machine

section Stage

variable {s : State} {l : LineId} {x : Sample} {lim : Limits}

/-- R2: in DISCONNECTED the runs are held at 0 and nothing is judged. -/
theorem State.measureStage_disconnected (hs : (s.seq l).state = .disconnected) : s.measureStage l x =
    (s.sampled l x).modMeas l fun m => { m with overRun := 0, clearRun := 0, tripRun := 0 } := by
  unfold State.measureStage State.sampled
  simp only [hs, ne_eq, not_true, decide_false]

/-- R4: a line without a record in force is judged by its transmitters alone. -/
theorem State.measureStage_unrecorded (hs : (s.seq l).state ≠ .disconnected) (hl : s.limits l = none) :
    s.measureStage l x = (s.sampled l x).judgeSensorFault l := by
  unfold State.measureStage State.sampled
  simp only [hs, hl, ne_eq, not_false_eq_true, decide_true]

/-- R14: a line that the judgements leave in DELIVERING was in DELIVERING, with no cause found. -/
theorem Judgements.delivering {f : State} {found : TripCause → Prop} {warned cleared : Prop} {n : Nat}
    (h : Judgements s f l found warned cleared n) (hf : (f.seq l).state = .delivering) :
    (s.seq l).state = .delivering ∧ f.rate l = s.rate l := by
  have free : ¬ Joins (s.seq l) found := fun j => by
    rcases h.state.1 j with e | e <;> rw [e] at hf <;> cases hf
  have idle : ¬ Begins (s.seq l) warned := fun b => by
    rw [((h.stays free).2.1 b).1] at hf
    cases hf
  exact ⟨((h.stays free).2.2 idle).symm.trans hf, (h.still (fun j => absurd j free) fun _ => idle).2⟩

/-- R13 to R15: the steady detector at the measurement stage. -/
theorem State.measureStage_steady (hs : (s.seq l).state ≠ .disconnected) (hd : AlarmsDistinct s)
    (hl : s.limits l = some lim) :
    ((s.seq l).state = .delivering → ((s.measureStage l x).seq l).state = .delivering →
        SteadyJudged l s (s.measureStage l x))
      ∧ ((s.seq l).state = .delivering → ((s.measureStage l x).seq l).state ≠ .delivering →
        ((s.measureStage l x).meas l).steady = false ∧ ((s.measureStage l x).meas l).inRun = 0
          ∧ ((s.measureStage l x).meas l).outRun = 0)
      ∧ ((s.seq l).state ≠ .delivering → (s.meas l).SameSteady ((s.measureStage l x).meas l)) := by
  obtain ⟨h, -⟩ := State.judgedStage_judgements x lim hs hd
  have detects := State.steadyStage_detects (y := s.judgedStage l x lim) (l := l)
  have frame := (State.judgedStage_free (s := s) (l := l) (x := x) (lim := lim)).frame
  have moved := s.judgedStage_meas l x lim
  have taken : ((s.judgedStage l x lim).meas l).steadyN = s.settings.steadyn := by
    have readings := (Meas.judged_readings _ x lim).trans moved.readings
    unfold Meas.SameReadings at readings
    rw [readings, s.sampled_meas]
    rfl
  have detector : ((s.judgedStage l x lim).meas l).band = (s.meas l).band
      ∧ ((s.judgedStage l x lim).meas l).epoch = (s.meas l).epoch := by
    obtain ⟨band, epoch⟩ := Meas.judged_detector ((s.sampled l x).meas l) x lim
    unfold Meas.Steadied at moved
    rw [moved]
    refine ⟨band.trans ?_, epoch.trans ?_⟩ <;> rw [s.sampled_meas] <;> rfl
  rw [s.measureStage_eq x hs hl]
  generalize s.judgedStage l x lim = f at *
  rw [detects.line.1]
  refine ⟨fun a b => ?_, fun a b => ?_, fun a => ?_⟩
  · exact State.steadyStage_judged b (h.delivering b).2 (h.steady fun _ => b) detector.1 detector.2 taken frame.settings
      h.distinct detects.meas
  · rw [State.steadyStage_idle b]
    obtain ⟨x1, x2, x3, -⟩ := h.quits a b
    exact ⟨x1, x2, x3⟩
  · rw [State.steadyStage_idle fun b => a (h.delivering b).1]
    exact h.steady fun b => absurd b a

/-- R3, R5, R6: what a sample event reads is there after its measurement stage. -/
theorem State.measureStage_readings : ((s.sampled l x).meas l).SameReadings ((s.measureStage l x).meas l) := by
  by_cases hs : (s.seq l).state = .disconnected
  · rw [State.measureStage_disconnected hs, State.modMeas_meas, if_pos rfl]
    rfl
  · cases hl : s.limits l with
    | none =>
      rw [State.measureStage_unrecorded hs hl]
      exact ((s.sampled l x).judgeSensorFault_steadied l l).readings
    | some lim =>
      rw [State.measureStage_eq x hs hl]
      exact State.judgedStage_readings State.steadyStage_detects.meas

end Stage

end Sys2Proof.Machine
end

section
/-! SUPPORT. What the stages of a sample event do not undo: a line stays connected (R19, R40), and before the drive step it keeps
its stroke times (R20). -/

namespace Sys2Proof.Machine

/-- R40, R41: a connected line stays connected. -/
def StaysConnected (l : LineId) (s t : State) : Prop := (s.seq l).state ≠ .disconnected → (t.seq l).state ≠ .disconnected

/-- A connected line stays connected, and its stroke times stay. -/
structure StaysUp (l : LineId) (s t : State) : Prop where
  connected : StaysConnected l s t
  tStroke : (t.drive l).tStroke = (s.drive l).tStroke

section Line

variable {l : LineId} {s t u : State}

theorem StaysConnected.trans (h : StaysConnected l s t) (g : StaysConnected l t u) : StaysConnected l s u := fun c => g (h c)

theorem StaysConnected.of_seqs (h : t.seqs = s.seqs) : StaysConnected l s t := fun c => by
  rw [State.seq, h]
  exact c

theorem StaysConnected.of_state (h : (t.seq l).state ≠ .disconnected) : StaysConnected l s t := fun _ => h

theorem StaysUp.refl : StaysUp l s s := ⟨id, rfl⟩

theorem StaysUp.trans (h : StaysUp l s t) (g : StaysUp l t u) : StaysUp l s u :=
  ⟨h.connected.trans g.connected, g.tStroke.trans h.tStroke⟩

theorem StaysUp.of_same (hs : t.seqs = s.seqs) (hd : t.drives = s.drives) : StaysUp l s t :=
  ⟨.of_seqs hs, by rw [State.drive, hd]; rfl⟩

/-! ### Causes and holds -/

theorem State.addTrip_staysUp (s : State) (l : LineId) (c : TripCause) : StaysUp l s (s.addTrip l c) := by
  by_cases self : (s.seq l).state = .disconnected ∨ c ∈ (s.seq l).trips
  · rw [s.addTrip_eq_self l c self]
    exact .refl
  · obtain ⟨hs, hc⟩ := not_or.mp self
    by_cases up : (s.seq l).state.trips = true
    · obtain ⟨seq, drive, -⟩ := s.addTrip_lineTrips l c up hc
      exact ⟨.of_state (by rw [seq]; simp), by rw [drive]; rfl⟩
    · have down : (s.seq l).state = .tripping ∨ (s.seq l).state = .tripped := by
        revert up hs
        cases (s.seq l).state <;> simp [LineState.trips]
      obtain ⟨seq, drive, -⟩ := s.addTrip_causeAdded l c down hc
      exact ⟨fun _ => by rw [seq]; exact hs, by rw [drive]⟩

theorem State.addHold_staysUp (s : State) (l : LineId) (c : HoldCause) : StaysUp l s (s.addHold l c) := by
  obtain ⟨begins, stays, -⟩ := s.addHold_handed l c
  by_cases h : (s.seq l).state ∈ [LineState.opening, .delivering] ∧ c ∉ (s.seq l).holds
  · obtain ⟨state, -, -, drive, -⟩ := begins h
    refine ⟨.of_state (by rw [state]; simp), ?_⟩
    rw [drive]
    unfold Drive.rampTo
    split <;> rfl
  · obtain ⟨state, drive, -⟩ := stays h
    exact ⟨fun c => by rw [state]; exact c, by rw [drive]⟩

theorem State.dropHold_staysUp (s : State) (l : LineId) (c : HoldCause) : StaysUp l s (s.dropHold l c) :=
  ⟨fun h => by rw [State.dropHold_seq, if_pos rfl]; exact h, by simp [State.dropHold]⟩

/-! ### The measurement stage -/

theorem State.judgeSensorFault_staysUp (s : State) (l : LineId) : StaysUp l s (s.judgeSensorFault l) := by
  unfold State.judgeSensorFault
  split
  · exact s.addTrip_staysUp l _
  · exact .refl

theorem State.judgeOverpressure_staysUp (s : State) (l : LineId) : StaysUp l s (s.judgeOverpressure l) := by
  unfold State.judgeOverpressure
  split
  · exact s.addTrip_staysUp l _
  · exact .refl

theorem State.stretchTaken_staysUp (s : State) (l : LineId) (x : Option Nat) (lim : Limits) :
    StaysUp l s (s.stretchTaken l x lim) := by
  cases x with
  | none => exact .refl
  | some v =>
    have taken : StaysUp l s (s.modMeas l (Meas.takeStretch v lim)) := .of_same rfl rfl
    refine taken.trans ?_
    show StaysUp l _ ((s.modMeas l (Meas.takeStretch v lim)).warnStretch l v ((s.meas l).warnLimit lim))
    unfold State.warnStretch
    split
    · exact StaysUp.trans (.of_same (by simp) (by simp)) (State.addHold_staysUp _ l _)
    · exact .refl

theorem State.judgeStretchClear_staysUp (s : State) (l : LineId) : StaysUp l s (s.judgeStretchClear l) := by
  unfold State.judgeStretchClear
  simp only []
  split
  · have unwarned : StaysUp l s (s.modMeas l fun m => { m with warn := false }) := .of_same rfl rfl
    exact (unwarned.trans (State.dropHold_staysUp _ l .stretch)).trans (.of_same (by simp) (by simp))
  · exact .refl

theorem State.judgeStretchTrip_staysUp (s : State) (l : LineId) : StaysUp l s (s.judgeStretchTrip l) := by
  unfold State.judgeStretchTrip
  split
  · exact (s.addTrip_staysUp l .stretchTrip).trans (.of_same (by simp) (by simp))
  · exact .refl

theorem State.measureStage_staysUp (s : State) (l : LineId) (x : Sample) : StaysUp l s (s.measureStage l x) := by
  have sampled : StaysUp l s (s.sampled l x) := .of_same rfl rfl
  have sensed := sampled.trans (State.judgeSensorFault_staysUp _ l)
  by_cases hs : (s.seq l).state = .disconnected
  · rw [State.measureStage_disconnected hs]
    exact .of_same rfl rfl
  · cases hl : s.limits l with
    | none =>
      rw [State.measureStage_unrecorded hs hl]
      exact sensed
    | some lim =>
      rw [State.measureStage_eq x hs hl]
      have counted : StaysUp l s (((s.sampled l x).judgeSensorFault l).modMeas l (Meas.takePressure x.pressure lim.pRated)) :=
        sensed.trans (.of_same rfl rfl)
      have pressed : StaysUp l s (s.pressureJudged l x lim) := counted.trans (State.judgeOverpressure_staysUp _ l)
      have stretched := pressed.trans (State.stretchTaken_staysUp _ l x.stretch lim)
      have judged := (stretched.trans (State.judgeStretchClear_staysUp _ l)).trans (State.judgeStretchTrip_staysUp _ l)
      have detects := State.steadyStage_detects (y := s.judgedStage l x lim) (l := l)
      exact judged.trans (.of_same detects.seqs detects.drives)

/-! ### The drive step -/

theorem State.failTracking_staysConnected (s : State) (l : LineId) : StaysConnected l s (s.failTracking l) := by
  have zero : StaysConnected l s (s.modDrive l Drive.trackFrom0) := .of_seqs rfl
  unfold State.failTracking
  simp only []
  split
  iterate 4 exact zero.trans (State.addTrip_staysUp _ l _).connected
  · exact .of_state (by rw [State.enterTripped_eq]; simp [State.seq])
  · refine .of_state ?_
    rw [((s.modDrive l Drive.trackFrom0).failStroke_strokeFailed l .travel).1]
    simp
  all_goals exact zero

theorem State.positionTransition_staysConnected (s : State) (l : LineId) (pos : Option Nat) :
    StaysConnected l s (s.positionTransition l pos) := by
  have same : StaysConnected l s s := id
  unfold State.positionTransition
  split
  · split
    · split
      · exact .of_state (by rw [State.enterDelivering_eq]; simp [State.seq])
      · exact same
    · exact same
  · split
    · exact .of_state (by rw [State.enterHeld_eq]; simp [State.seq])
    · exact same
  · split
    · refine .of_state ?_
      rw [State.finishLine, ((s.enterConnected l).lineFinished_endTold l).state, State.enterConnected_eq]
      simp [State.seq]
    · exact same
  · split
    · exact .of_state (by rw [State.enterTripped_eq]; simp [State.seq])
    · exact same
  all_goals exact same

theorem State.strokeStep_staysConnected (s : State) (l : LineId) (pos : Option Nat) :
    StaysConnected l s (s.strokeStep l pos) := by
  have moved : ∀ f, StaysConnected l s (s.modDrive l f) := fun f => .of_seqs rfl
  have failed : ∀ (t : State) why, StaysConnected l t (t.failStroke l why) := fun t why => .of_state (by
    rw [(t.failStroke_strokeFailed l why).1]
    simp)
  have openTimeout : ∀ t : State, StaysConnected l t (t.judgeOpenTimeout l) := fun t => by
    unfold State.judgeOpenTimeout
    simp only []
    split
    · exact failed t _
    · exact id
  have settleEnd : ∀ t : State, StaysConnected l t (t.judgeSettleEnd l) := fun t => by
    unfold State.judgeSettleEnd
    simp only []
    split <;> exact .of_seqs rfl
  have closeTimeout : ∀ t : State, StaysConnected l t (t.judgeCloseTimeout l) := fun t => by
    unfold State.judgeCloseTimeout
    simp only []
    split
    · exact failed t _
    · exact id
  have judged : ∀ (t : State) m, StaysConnected l t (t.judgeStroke l m) := fun t m => by
    unfold State.judgeStroke
    simp only []
    split
    · refine .of_state ?_
      rw [State.passStroke, State.strokeToConnected_eq]
      simp [State.seq]
    · exact .of_state (by rw [(State.failStroke_strokeFailed _ l _).1]; simp)
  unfold State.strokeStep
  split
  · simp only []
    split
    · exact .of_seqs rfl
    · exact (moved _).trans (openTimeout _)
  · exact (moved _).trans (settleEnd _)
  · simp only []
    split
    · split
      · exact (moved _).trans (judged _ _)
      · exact (moved _).trans (closeTimeout _)
    · exact (moved _).trans (closeTimeout _)
  · exact id
  · exact id

theorem State.driveStage_staysConnected (s : State) (l : LineId) (pos : Option Nat) :
    StaysConnected l s (s.driveStage l pos) := by
  have kept : ∀ t : State, StaysConnected l t ((t.trackAndMove l pos).modDrive l (Drive.keepPos pos)) := fun t => by
    refine StaysConnected.trans (t := t.trackAndMove l pos) ?_ (.of_seqs rfl)
    have stepped : StaysConnected l t (t.modDrive l (Drive.trackStep pos)) := .of_seqs rfl
    unfold State.trackAndMove
    split
    · simp only []
      split
      · exact stepped.trans (State.failTracking_staysConnected _ l)
      · exact stepped.trans (State.positionTransition_staysConnected _ l pos)
    · exact id
  have ramped : StaysConnected l s ((s.modDrive l Drive.rampStep).formTarget l) :=
    .of_seqs ((State.formTarget_soft (s.modDrive l Drive.rampStep) l).seqs)
  unfold State.driveStage
  simp only []
  refine StaysConnected.trans ?_ (kept _)
  split
  · exact .of_seqs (s.rateLoopStep_soft l).seqs
  · exact s.strokeStep_staysConnected l pos
  iterate 4 exact ramped
  all_goals exact id

end Line

end Sys2Proof.Machine
end

section
/-! SUPPORT. The frame of a sample event: its line, and the tanks of its lineup (R2, R82, R98). -/

namespace Sys2Proof.Machine

/-! ### The line of a tank under an evaluation -/

theorem State.tankLine_queueAdvice (s : State) (k j : TankId) (a : AdviceKind) :
    (s.queueAdvice k a).tankLine j = s.tankLine j := by
  unfold State.queueAdvice
  split
  · rfl
  · simp

theorem State.tankLine_judgeStale (s : State) (k j : TankId) : (s.judgeStale k).tankLine j = s.tankLine j :=
  s.tankLine_modTankNoticed k j _ fun _ => rfl

theorem State.tankLine_actOn (s : State) (k j : TankId) (l : LineId) (r : Tank) (e : Results) :
    (s.actOn k l r e).tankLine j = s.tankLine j := by
  unfold State.actOn
  split
  · exact (s.addTrip_own l _).tankLine j
  · split
    · rw [State.enterFull, State.tankLine_queueAdvice, (State.addHold_own _ l _).tankLine, State.tankLine_shiftTank]
    · split
      · split
        · rw [State.enterTopping, State.tankLine_queueAdvice, (State.reportTopping_soft _ l true).own.tankLine,
            State.tankLine_moveTank]
        · rfl
      · rfl

theorem State.tankLine_evaluate (s : State) (k j : TankId) : (s.evaluate k).tankLine j = s.tankLine j := by
  unfold State.evaluate
  split
  · rfl
  · next r _ =>
    split
    · next l v _ _ =>
      split
      · have stored : ((s.judgeStale k).modTank k fun x => { x with results := some (s.evaluation l r v) }).tankLine j
            = s.tankLine j := by
          refine (State.tankLine_modTank _ k j _ ?_).trans (s.tankLine_judgeStale k j)
          exact fun _ => rfl
        simp only []
        split
        · rw [(State.addHold_own _ l _).tankLine, State.tankLine_actOn, stored]
        · rw [State.tankLine_actOn, stored]
      · rfl
    · rfl

/-! ### The frame -/

/-- The tanks are of line `l`, or of none. -/
def LinedTo (l : LineId) (ks : List TankId) (s : State) : Prop := ∀ k ∈ ks, ∀ j, s.tankLine k = some j → j = l

/-- Only line `l` and the tanks have been touched, and the tanks have come to no other line. -/
structure Within (l : LineId) (ks : List TankId) (s t : State) : Prop where
  lines : OnlyLine s t l
  tanks : ∀ k, k ∉ ks → t.tank k = s.tank k
  lined : LinedTo l ks s → LinedTo l ks t

section Frame

variable {l : LineId} {ks : List TankId} {s t u : State}

theorem Within.refl : Within l ks s s := ⟨fun _ _ => ⟨rfl, rfl, rfl, rfl, rfl⟩, fun _ _ => rfl, id⟩

theorem Within.trans (h : Within l ks s t) (g : Within l ks t u) : Within l ks s u := by
  refine ⟨fun k hk => ?_, fun k hk => (g.tanks k hk).trans (h.tanks k hk), fun i => g.lined (h.lined i)⟩
  obtain ⟨a, b, c, d, e⟩ := h.lines k hk
  obtain ⟨a', b', c', d', e'⟩ := g.lines k hk
  exact ⟨a'.trans a, b'.trans b, c'.trans c, d'.trans d, e'.trans e⟩

theorem Own.within (h : Own l s t) : Within l ks s t :=
  ⟨h.only, fun k _ => h.tank k, fun i k hk j e => i k hk j (by rwa [h.tankLine] at e)⟩

/-- The scope of line `l` and some tanks. -/
def Scope.ofTanks (l : LineId) (ks : List TankId) : Scope :=
  { lines := (· = l), tanks := (· ∈ ks), link := True, trip := True }

theorem Free.within (h : Free (.ofTanks l ks) s t) (lined : LinedTo l ks s → LinedTo l ks t) : Within l ks s t :=
  ⟨fun _ hk => h.line_eq hk, fun _ hk => h.tank_eq hk, lined⟩

/-- R98 to R101: a tank of the line is judged for staleness and evaluated. -/
theorem State.sampledTank_within {k : TankId} (hk : k ∈ ks) (i : LinedTo l ks s) :
    Within l ks s ((s.judgeStale k).evaluate k) := by
  refine Free.within ((s.judgeStale_free k hk).trans (State.evaluate_free _ k hk trivial fun j e => ?_))
    fun _ j hj m e => ?_
  · rw [State.tankLine_judgeStale] at e
    exact i k hk j e
  · rw [State.tankLine_evaluate, State.tankLine_judgeStale] at e
    exact i j hj m e

theorem Within.foldl {f : State → TankId → State} (hf : ∀ t, ∀ k ∈ ks, LinedTo l ks t → Within l ks t (f t k)) :
    ∀ (js : List TankId) (s : State), (∀ k ∈ js, k ∈ ks) → LinedTo l ks s → Within l ks s (js.foldl f s)
  | [], _, _, _ => .refl
  | k :: js, s, sub, i => by
    have step := hf s k (sub k List.mem_cons_self) i
    exact step.trans (Within.foldl hf js _ (fun k hk => sub k (List.mem_cons_of_mem _ hk)) (step.lined i))

/-- R98: the tank watch touches the line, and the tanks of its lineup. -/
theorem State.handStage_within (sub : ∀ k ∈ s.lineup l, k ∈ ks) (i : LinedTo l ks s) : Within l ks s (s.handStage l) := by
  have own : Own l s (s.modMeas l fun m =>
      { m with tC := handedTc (s.seq l).state (s.meas l) (s.drive l), watchQ := m.q }) :=
    (Soft.refl.meas _ ⟨rfl, Nat.le_refl _⟩ : Soft l s _).own
  exact own.within.trans (Within.foldl (fun _ _ hk i => State.sampledTank_within hk i) _ _ sub (own.within.lined i))

/-! ### The drive step -/

theorem unlined_line (r : Tank) : (unlined r).bind (·.line) = none := by
  unfold unlined pendingApplied
  split <;> rfl

/-- R54, R94: the tanks of a line that finishes leave its lineup, or stay in it. -/
theorem Departed.within {leave : Tank → Bool} (sound : LineupsSound s) (h : Departed leave l (s.lineup l) s t) :
    Within l (s.lineup l) s t ∧ ∀ k ∈ t.lineup l, k ∈ s.lineup l := by
  obtain ⟨m, -, whole⟩ := h.told
  refine ⟨⟨fun k hk => ?_, h.other, fun _ k hk j e => ?_⟩, fun k hk => ?_⟩
  · have line : t.seq k = s.seq k ∧ t.rate k = s.rate k ∧ t.meas k = s.meas k ∧ t.drive k = s.drive k := by
      rw [whole]
      simp [State.toldOf, State.seq, State.rate, State.meas, State.drive, hk]
    obtain ⟨a, b, c, d⟩ := line
    exact ⟨a, b, c, d, by rw [State.lineup, h.lineups]; simp [State.lineup, hk]⟩
  · obtain ⟨r, hr, hl⟩ := sound.record hk
    have left := h.record k hk r hr
    rw [State.tankLine, left] at e
    by_cases g : leave r = true
    · rw [if_pos g, unlined_line] at e
      cases e
    · rw [if_neg g] at e
      unfold releasedAt at e
      split at e <;> · simp [hl] at e; exact e.symm
  · rw [State.lineup, h.lineups] at hk
    simp only [vget_vset, if_true] at hk
    exact (List.mem_filter.mp hk).1

end Frame

end Sys2Proof.Machine
end

section
/-! SUPPORT. The four stages of a sample event: what they keep, and the figures that they form (R2, R16 to R18). -/

namespace Sys2Proof.Machine

section Stages

variable {s t : State} {l : LineId}

/-! ### Lineups -/

theorem LineupsSound.of_same (h : LineupsSound s) (hl : t.lineups = s.lineups) (ht : t.tanks = s.tanks) :
    LineupsSound t := by
  unfold LineupsSound State.tankLine State.lineup State.tank at h ⊢
  rw [hl, ht]
  exact h

theorem LineupsSound.linedTo (h : LineupsSound s) (l : LineId) : LinedTo l (s.lineup l) s := fun k hk _ e =>
  Option.some.inj (e.symm.trans ((h.1 l k).mp hk))

theorem State.measureStage_lineups (s : State) (l : LineId) (x : Sample) :
    (s.measureStage l x).lineups = s.lineups ∧ (s.measureStage l x).tanks = s.tanks := by
  have sampled := (s.sampled_soft l x).own
  by_cases hs : (s.seq l).state = .disconnected
  · rw [State.measureStage_disconnected hs]
    exact ⟨rfl, rfl⟩
  · cases hl : s.limits l with
    | none =>
      rw [State.measureStage_unrecorded hs hl]
      have same := (sampled.trans (State.judgeSensorFault_own _ l)).elsewhere
      exact ⟨same.lineups, same.tanks⟩
    | some lim =>
      rw [State.measureStage_eq x hs hl]
      have detected := (State.steadyStage_soft (s.judgedStage l x lim) l).elsewhere
      have quiet := (((State.pressureJudged_own (s := s) (l := l) x lim).trans
        (State.stretchTaken_own x lim _)).trans (State.judgeStretchClear_own _ l)).elsewhere
      have tripped : ∀ y : State, (y.judgeStretchTrip l).lineups = y.lineups ∧ (y.judgeStretchTrip l).tanks = y.tanks :=
        fun y => by
          have same := (y.addTrip_own l .stretchTrip).elsewhere
          unfold State.judgeStretchTrip
          split
          · exact ⟨by simpa using same.lineups, by simpa using same.tanks⟩
          · exact ⟨rfl, rfl⟩
      refine ⟨detected.lineups.trans ((tripped _).1.trans quiet.lineups),
        detected.tanks.trans ((tripped _).2.trans quiet.tanks)⟩

/-! ### The frame of an event -/

/-- A stage touches the line and the tanks of its lineup, and brings no tank into it. -/
structure EventStage (l : LineId) (s t : State) : Prop where
  within : Within l (s.lineup l) s t
  lineup : ∀ k ∈ t.lineup l, k ∈ s.lineup l

theorem Own.stage (h : Own l s t) : EventStage l s t :=
  ⟨h.within, fun k hk => by rwa [State.lineup, h.elsewhere.lineups] at hk⟩

theorem EventStage.before {u : State} (h : Own l s t) (g : EventStage l t u) : EventStage l s u := by
  have same : t.lineup l = s.lineup l := by unfold State.lineup; rw [h.elsewhere.lineups]
  refine ⟨h.within.trans ?_, fun k hk => same ▸ g.lineup k hk⟩
  rw [← same]
  exact g.within

theorem EventStage.after {u : State} (h : EventStage l s t) (g : Own l t u) : EventStage l s u :=
  ⟨h.within.trans g.within, fun k hk => h.lineup k (by rwa [State.lineup, g.elsewhere.lineups] at hk)⟩

theorem State.lineFinished_stage (h : LineupsSound s) : EventStage l s (s.lineFinished l) := by
  rw [State.lineFinished_eq]
  obtain ⟨within, lineup⟩ := Departed.within (l := l) h (Departed.foldl (fun r => decide (r.valve = .closed)) (h.2.2 l)
    fun k hk => h.record hk)
  exact ⟨within, lineup⟩

theorem State.positionTransition_stage (h : LineupsSound s) (pos : Option Nat) :
    EventStage l s (s.positionTransition l pos) := by
  have stands : EventStage l s s := Own.refl.stage
  unfold State.positionTransition
  split
  · split
    · split
      · exact (s.enterDelivering_own l).stage
      · exact stands
    · exact stands
  · split
    · exact (s.enterHeld_own l).stage
    · exact stands
  · split
    · have own := s.enterConnected_own l
      exact .before own (State.lineFinished_stage (h.of_same own.elsewhere.lineups own.elsewhere.tanks))
    · exact stands
  · split
    · exact (s.enterTripped_own l).stage
    · exact stands
  all_goals exact stands

theorem State.trackAndMove_stage (h : LineupsSound s) (pos : Option Nat) : EventStage l s (s.trackAndMove l pos) := by
  have own : Own l s (s.modDrive l (Drive.trackStep pos)) := (Soft.refl.drive _ (Drive.trackStep_enabled _ _)).own
  unfold State.trackAndMove
  split
  · simp only []
    split
    · exact (own.trans (State.failTracking_own _ l)).stage
    · exact .before own (State.positionTransition_stage (h.of_same own.elsewhere.lineups own.elsewhere.tanks) pos)
  · exact Own.refl.stage

theorem State.driveStage_stage (h : LineupsSound s) (pos : Option Nat) : EventStage l s (s.driveStage l pos) := by
  have kept : ∀ t, Own l s t → EventStage l s ((t.trackAndMove l pos).modDrive l (Drive.keepPos pos)) := fun t own =>
    (EventStage.before own (State.trackAndMove_stage (h.of_same own.elsewhere.lineups own.elsewhere.tanks) pos)).after
      (Soft.refl.drive _ (Drive.keepPos_enabled _ _)).own
  unfold State.driveStage
  simp only []
  split
  · exact kept _ (s.rateLoopStep_soft l).own
  · exact kept _ (s.strokeStep_own l pos)
  iterate 4 exact kept _ ((Soft.refl.drive _ (Drive.rampStep_enabled _)).trans (State.formTarget_soft _ l)).own
  all_goals exact kept _ .refl

/-- R2: a sample event touches its line, and the tanks of its lineup. -/
theorem State.sampleEvent_within (h : LineupsSound s) (l : LineId) (x : Sample) :
    Within l (s.lineup l) s (s.sampleEvent l x) := by
  obtain ⟨lineups, tanks⟩ := s.measureStage_lineups l x
  have free : Free { Scope.line l with trip := True } s (s.measureStage l x) := s.measureStage_free l x rfl trivial
  have measured : Within l (s.lineup l) s (s.measureStage l x) :=
    ⟨fun _ hk => free.line_eq hk, fun _ _ => free.tank_eq id, fun i k hk j e =>
      i k hk j (by simpa [State.tankLine, State.tank, tanks] using e)⟩
  have closed := ((s.measureStage l x).closureStage_soft l).own
  have sound := h.of_same (closed.elsewhere.lineups.trans lineups) (closed.elsewhere.tanks.trans tanks)
  have driven := State.driveStage_stage (l := l) sound x.position
  have same : ((s.measureStage l x).closureStage l).lineup l = s.lineup l := by
    rw [State.lineup, closed.elsewhere.lineups, lineups]
    rfl
  have before : Within l (s.lineup l) s (((s.measureStage l x).closureStage l).driveStage l x.position) :=
    (measured.trans closed.within).trans (same ▸ driven.within)
  exact before.trans (State.handStage_within (fun k hk => same ▸ driven.lineup k hk) (before.lined (h.linedTo l)))

end Stages

end Sys2Proof.Machine
end

section
/-! SUPPORT. The readings and the closure figures that a sample event leaves (R3, R5, R16 to R18). -/

namespace Sys2Proof.Machine

section Stages

variable {s : State} {l : LineId} {x : Sample} {lim : Limits}

/-! ### The handing stage (R18, R98) -/

/-- R18, R98: T_c is formed, and Q_L goes to the tank watch. -/
theorem State.handStage_eq (u : State) (l : LineId) : u.handStage l =
    ({ u with meass := vset u.meass l { u.meas l with
        tC := handedTc (u.seq l).state (u.meas l) (u.drive l), watchQ := (u.meas l).q } } : State).lineSampled l := rfl

/-- The tank watch leaves what it was handed. -/
theorem State.handStage_meas (u : State) (l : LineId) : ({ u.meas l with
    tC := handedTc (u.seq l).state (u.meas l) (u.drive l), watchQ := (u.meas l).q } : Meas).Steadied
      ((u.handStage l).meas l) := by
  have := State.lineSampled_steadied { u with meass := vset u.meass l { u.meas l with
    tC := handedTc (u.seq l).state (u.meas l) (u.drive l), watchQ := (u.meas l).q } } l l
  rw [State.meas, vget_vset, if_pos rfl] at this
  exact this

/-! ### The figures of an event -/

theorem State.closureStage_readings (s : State) (l : LineId) : (s.meas l).SameReadings ((s.closureStage l).meas l) := by
  unfold State.closureStage
  split
  · rw [State.modMeas_meas, if_pos rfl]
    rfl
  · simp only []
    split <;> · rw [State.modMeas_meas, if_pos rfl]; rfl

/-- R3, R5, R6: what a sample event reads is there after it. -/
theorem State.sampleEvent_readings : ((s.sampled l x).meas l).SameReadings ((s.sampleEvent l x).meas l) := by
  have closed := State.measureStage_readings.trans (State.closureStage_readings (s.measureStage l x) l)
  unfold State.sampleEvent
  generalize (s.measureStage l x).closureStage l = v at closed ⊢
  have driven := (v.driveStage_steadied l x.position l).readings
  generalize v.driveStage l x.position = u at driven ⊢
  have handed := (u.handStage_meas l).readings
  generalize u.handStage l = t at handed ⊢
  refine (closed.trans driven).trans (Meas.SameReadings.trans ?_ handed)
  rfl

/-- R16 to R18: the closure figures stand after the stages that follow, and T_c is what the drive step leaves to hand. -/
theorem State.handed_figures (v : State) (l : LineId) (pos : Option Nat) :
    (((v.driveStage l pos).handStage l).meas l).tClose = (v.meas l).tClose
      ∧ (((v.driveStage l pos).handStage l).meas l).qSurge = (v.meas l).qSurge
      ∧ (((v.driveStage l pos).handStage l).meas l).tC =
        handedTc ((v.driveStage l pos).seq l).state ((v.driveStage l pos).meas l) ((v.driveStage l pos).drive l) := by
  obtain ⟨_, _, _, driven⟩ := Meas.steadied_iff.mp (v.driveStage_steadied l pos l)
  obtain ⟨_, _, _, handed⟩ := Meas.steadied_iff.mp ((v.driveStage l pos).handStage_meas l)
  rw [handed]
  simp only [driven, and_self]

/-- R16, R17: in DISCONNECTED both closure figures are absent. -/
theorem State.closureStage_disconnected (hs : (s.seq l).state = .disconnected) :
    ((s.closureStage l).meas l).tClose = none ∧ ((s.closureStage l).meas l).qSurge = none
      ∧ ((s.closureStage l).seq l).state = .disconnected := by
  unfold State.closureStage
  rw [if_pos hs, State.modMeas_meas, if_pos rfl]
  exact ⟨rfl, rfl, hs⟩

theorem State.closureStage_figures (hs : (s.seq l).state ≠ .disconnected) (hl : s.limits l = some lim) :
    ((s.closureStage l).meas l).tClose = some ((s.meas l).tCloseNow lim (s.drive l).tStroke)
      ∧ ((s.closureStage l).meas l).qSurge = some ((s.meas l).qSurgeNow lim) := by
  unfold State.closureStage
  simp only [if_neg hs, hl]
  rw [State.modMeas_meas, if_pos rfl]
  exact ⟨rfl, rfl⟩

/-- R3: the pressure, the position and Q_L that the closure stage reads are those of the event; for an out-of-range sample it
reads P_rated and a valve fully open. -/
theorem Meas.closureReadings {m : Meas} (h : ((s.sampled l x).meas l).SameReadings m) (hl : s.limits l = some lim) :
    m.closurePressure lim = x.pressure.getD lim.pRated ∧ m.closurePosition = x.position.getD 1000
      ∧ m.q = some (flowOf ((s.meas l).window.drop 1 ++ [x.pulses]) lim.f) := by
  unfold Meas.SameReadings at h
  rw [h, s.sampled_meas]
  refine ⟨?_, ?_, ?_⟩
  · cases hp : x.pressure <;>
      simp [Meas.closurePressure, Meas.takeUp, Meas.takeSample, takeReading, hp]
  · cases hp : x.position <;>
      simp [Meas.closurePosition, Meas.takeUp, Meas.takeSample, takeReading, hp]
  · simp [Meas.takeUp, Meas.takeSample, hl]

end Stages

end Sys2Proof.Machine
end

section
/-! SUPPORT. The fields of a sample event, one by one (R3, R5, R6, R15, R16 to R18, R28). -/

namespace Sys2Proof.Machine

section Event

variable {s : State} {l : LineId} {x : Sample} {lim : Limits}

/-- R3, R5, R6, R15, R28: what a sample event reads and takes up. -/
theorem State.sampleEvent_fields (s : State) (l : LineId) (x : Sample) :
    ((s.sampleEvent l x).meas l).window = (s.meas l).window.drop 1 ++ [x.pulses]
    ∧ ((s.sampleEvent l x).meas l).q = (s.limits l).map (fun lim =>
        min 20000 (((s.meas l).window.drop 1 ++ [x.pulses]).sum * 6000 / lim.f))
    ∧ ((s.sampleEvent l x).meas l).pTot =
        (if (s.seq l).state = .disconnected then (s.meas l).pTot else (s.meas l).pTot + x.pulses)
    ∧ ((s.sampleEvent l x).meas l).dBase = (s.meas l).dBase
    ∧ ((s.sampleEvent l x).meas l).steadyN = s.settings.steadyn
    ∧ ((s.sampleEvent l x).meas l).allowed = 20 + ceilDiv ((s.drive l).tStroke.getD 1800) 10
    ∧ (((s.sampleEvent l x).meas l).pressure, ((s.sampleEvent l x).meas l).pressureOut) =
        takeReading x.pressure (s.meas l).pressure (s.meas l).pressureOut
    ∧ (((s.sampleEvent l x).meas l).stretch, ((s.sampleEvent l x).meas l).stretchOut) =
        takeReading x.stretch (s.meas l).stretch (s.meas l).stretchOut
    ∧ (((s.sampleEvent l x).meas l).position, ((s.sampleEvent l x).meas l).positionOut) =
        takeReading x.position (s.meas l).position (s.meas l).positionOut := by
  have readings : ((s.sampled l x).meas l).SameReadings ((s.sampleEvent l x).meas l) := State.sampleEvent_readings
  generalize (s.sampleEvent l x).meas l = m at readings ⊢
  unfold Meas.SameReadings at readings
  rw [readings, s.sampled_meas]
  refine ⟨rfl, ?_, ?_, rfl, rfl, rfl, rfl, rfl, rfl⟩
  · cases hl : s.limits l <;> simp [Meas.takeUp, Meas.takeSample, flowOf]
  · simp [Meas.takeUp, Meas.takeSample, ite_not]

/-- R16, R17: the closure figures after the measurement and closure stages of an event. -/
theorem State.sampleEvent_closure (hs : (s.seq l).state ≠ .disconnected) (hl : s.limits l = some lim) :
    ((((s.measureStage l x).closureStage l).meas l).tClose = some (min lim.tMax
        (max (ceilDiv (lim.k * flowOf ((s.meas l).window.drop 1 ++ [x.pulses]) lim.f)
            (100 * max (lim.pRated - x.pressure.getD lim.pRated) 50))
          (max (((s.drive l).tStroke.map fun n => ceilDiv (n * x.position.getD 1000) 1000).getD lim.tMax) lim.tMin))))
      ∧ (((s.measureStage l x).closureStage l).meas l).qSurge =
        some (lim.tMax * 100 * max (lim.pRated - x.pressure.getD lim.pRated) 50 / lim.k) := by
  obtain ⟨connected, tStroke⟩ := s.measureStage_staysUp l x
  have limits : (s.measureStage l x).limits l = some lim := by
    have store := (s.measureStage_free (c := .all) l x trivial trivial).frame.store
    rw [State.limits_of_records (congrArg Store.records store), hl]
  obtain ⟨tClose, qSurge⟩ := State.closureStage_figures (connected hs) limits
  obtain ⟨pressure, position, q⟩ := Meas.closureReadings (State.measureStage_readings (s := s) (l := l) (x := x)) hl
  have headroom : ((s.measureStage l x).meas l).headroom lim = max (lim.pRated - x.pressure.getD lim.pRated) 50 := by
    rw [Meas.headroom, pressure]
  rw [tClose, qSurge, tStroke, Meas.qSurgeNow, Meas.tCloseNow, Meas.tSurge, headroom, q]
  refine ⟨?_, rfl⟩
  cases (s.drive l).tStroke with
  | none => rfl
  | some n => rw [Meas.tStrokePart, position]; rfl

/-- R16 to R18: in DISCONNECTED the figures of an event are absent. -/
theorem State.sampleEvent_disconnected (hs : (s.seq l).state = .disconnected) :
    ((s.sampleEvent l x).meas l).tClose = none ∧ ((s.sampleEvent l x).meas l).qSurge = none
      ∧ ((s.sampleEvent l x).meas l).tC = none := by
  have measured : ((s.measureStage l x).seq l).state = .disconnected := by
    rw [State.measureStage_disconnected hs]
    exact hs
  obtain ⟨tClose, qSurge, state⟩ := State.closureStage_disconnected measured
  unfold State.sampleEvent
  generalize (s.measureStage l x).closureStage l = v at *
  obtain ⟨a, b, c⟩ := v.handed_figures l x.position
  have rests := State.driveStage_resting (v := v) (l := l) (pos := x.position) (by rw [state]; simp)
  rw [a, b, c, rests]
  refine ⟨tClose, qSurge, ?_⟩
  show handedTc (v.seq l).state _ _ = none
  rw [state]
  rfl

end Event

/-! ### The drive step, as the rules say it -/

/-- The line after a drive step that takes no transition. -/
theorem State.line_of_step {s t : State} {l : LineId} {d : Drive} {rs : Vector Rate 4} {ns : List Notice}
    (h : t = { s with drives := vset s.drives l d, rates := rs, notices := ns }) : t.seq l = s.seq l ∧ t.drive l = d := by
  rw [h]
  exact ⟨rfl, by simp [State.drive]⟩

/-- R24: a ramp ends at its target, or moves the setpoint by its step. -/
theorem Drive.rampStep_of_ramp {d : Drive} {r : Ramp} (h : d.ramp = some r) : d.rampStep =
    if absDiff d.setpoint r.target ≤ r.step then { d with setpoint := r.target, ramp := none }
    else { d with setpoint := if d.setpoint < r.target then d.setpoint + r.step else d.setpoint - r.step } := by
  unfold Drive.rampStep
  simp only [h]
  by_cases up : d.setpoint < r.target
  · rw [if_pos up, if_pos up]
  · rw [if_neg up, if_neg up]

section Ramping

variable {v : State} {l : LineId} {pos : Option Nat} {n : Nat}

/-- R54, R94: a FINISHING line whose valve has closed, with its tanks. -/
theorem State.driveStage_finishes (hs : (v.seq l).state = .finishing)
    (hn : TracksTo (v.drive l) (v.drive l).rampStep.setpoint pos n)
    (le : n ≤ 20 + ceilDiv ((v.drive l).tStroke.getD 1800) 10) (shut : closedPos pos = true) (sound : LineupsSound v) :
    (v.driveStage l pos).seq l = { v.seq l with state := .connected, holds := [], pump := false }
      ∧ ∀ k ∈ v.lineup l, ∀ r, v.tank k = some r → TankFinished v (v.driveStage l pos) l k r := by
  obtain ⟨t, stage, departed⟩ := State.finished_tanks hs hn le shut sound
  obtain ⟨seq, tanks⟩ := departed.ofFinished (by rw [hs]; decide)
  rw [stage, State.modDrive_seq]
  exact ⟨seq, tanks⟩

end Ramping

end Sys2Proof.Machine
end

section
/-! SUPPORT. The drive step of a line in DELIVERING in the words of R64 to R70. -/

namespace Sys2Proof.Machine

section Looping

variable {v : State} {l : LineId} {lim : Limits} {q surge e : Nat} {g : Governing}

/-- R64: target_eff is the least term, for a rate-control state with the target and the throttle of the line. -/
theorem State.formed_of_least (hf : (v.seq l).state.formsTarget = true) (hl : v.limits l = some lim)
    (hsurge : (v.meas l).qSurge = some surge)
    (least : leastTerm (targetTerms (v.rate l) lim surge v.link.gauging) = some (e, g)) {r : Rate}
    (target : r.target = (v.rate l).target) (throttle : r.throttle = (v.rate l).throttle) :
    v.formed l r = { r with eff := some e, governing := some g } := by
  have term : v.surgeTerm l = surge := by rw [State.surgeTerm, hsurge]; rfl
  have terms : targetTerms r lim surge v.link.gauging = targetTerms (v.rate l) lim surge v.link.gauging := by
    unfold targetTerms
    rw [target, throttle]
  rw [State.formed_of_limits hl, if_pos hf, term, terms, least]
  rfl

/-- R69: the takeover runs of a drive step. -/
theorem State.countedRate_eq (hl : v.limits l = some lim) (hq : (v.meas l).q = some q)
    (hsurge : (v.meas l).qSurge = some surge) : v.countedRate l = { v.rate l with
      surgeRun := if surge < q then min 5 ((v.rate l).surgeRun + 1) else 0
      maxRun := if lim.qMax < q then min 5 ((v.rate l).maxRun + 1) else 0
      loopWaits := false } := by
  unfold State.countedRate Rate.countRuns
  simp [hl, hq, hsurge]

/-- R70: the takeover of a drive step, if a reason holds outside AUTO. -/
theorem Rate.takenOver_eq (r : Rate) : r.takenOver = if r.mode ≠ .auto ∧ r.takeoverReason ≠ none then
    { r with mode := .auto, opening := none, surgeRun := 0, maxRun := 0, mark := r.takeoverReason } else r := by
  unfold Rate.takenOver
  by_cases auto : r.mode = .auto
  · simp [auto]
  · cases r.takeoverReason <;> simp [auto]

/-- R64, R70: the rate-control state that the loop step leaves. -/
theorem State.loopRate_eq (hs : (v.seq l).state = .delivering) (hl : v.limits l = some lim)
    (hsurge : (v.meas l).qSurge = some surge)
    (least : leastTerm (targetTerms (v.rate l) lim surge v.link.gauging) = some (e, g)) :
    v.loopRate l = { (v.countedRate l).takenOver with eff := some e, governing := some g } := by
  obtain ⟨-, target, throttle⟩ := Rate.takenOver_eff (v.countedRate l)
  exact State.formed_of_least (by rw [hs]; rfl) hl hsurge least target throttle

/-- R69, R70: the rate-control state after the step, as the takeover leaves it or the runs alone. -/
theorem State.loopRate_taken (hs : (v.seq l).state = .delivering) (hl : v.limits l = some lim)
    (hq : (v.meas l).q = some q) (hsurge : (v.meas l).qSurge = some surge)
    (least : leastTerm (targetTerms (v.rate l) lim surge v.link.gauging) = some (e, g)) :
    v.loopRate l = if (v.rate l).mode ≠ .auto ∧ (v.countedRate l).takeoverReason ≠ none then
        { v.rate l with mode := .auto, opening := none, surgeRun := 0, maxRun := 0,
                        mark := (v.countedRate l).takeoverReason, eff := some e, governing := some g, loopWaits := false }
      else { v.rate l with
        surgeRun := if surge < q then min 5 ((v.rate l).surgeRun + 1) else 0
        maxRun := if lim.qMax < q then min 5 ((v.rate l).maxRun + 1) else 0
        eff := some e, governing := some g, loopWaits := false } := by
  have counted := State.countedRate_eq hl hq hsurge
  have mode : (v.countedRate l).mode = (v.rate l).mode := rfl
  rw [State.loopRate_eq hs hl hsurge least, Rate.takenOver_eq, mode]
  by_cases taken : (v.rate l).mode ≠ .auto ∧ (v.countedRate l).takeoverReason ≠ none
  · rw [if_pos taken, if_pos taken]
    rfl
  · rw [if_neg taken, if_neg taken, counted]

theorem State.formed_loop (v : State) (l : LineId) (r : Rate) :
    (v.formed l r).mode = r.mode ∧ (v.formed l r).opening = r.opening := by
  unfold State.formed
  split <;> exact ⟨rfl, rfl⟩

/-- R70: the loop mode of the step. -/
theorem State.loopRate_mode (v : State) (l : LineId) :
    (v.loopRate l).mode = if (v.countedRate l).takeoverReason = none then (v.rate l).mode else .auto := by
  have counted : (v.countedRate l).mode = (v.rate l).mode := rfl
  rw [State.loopRate, (v.formed_loop l _).1, Rate.takenOver_eq]
  by_cases auto : (v.rate l).mode = .auto <;> by_cases none : (v.countedRate l).takeoverReason = none <;>
    simp [counted, auto, none]

theorem State.loopRate_opening (h : (v.loopRate l).mode = .set) : (v.loopRate l).opening = (v.rate l).opening := by
  rw [State.loopRate, (v.formed_loop l _).1, Rate.takenOver_eq] at h
  rw [State.loopRate, (v.formed_loop l _).2, Rate.takenOver_eq]
  split at h
  · cases h
  · next n =>
    rw [if_neg n]
    rfl

/-- R67: the setpoint in AUTO. -/
theorem State.loopSp_auto (h : (v.loopRate l).mode = .auto) (he : (v.loopRate l).eff = some e)
    (hq : (v.meas l).q = some q) : v.loopSp l lim =
      if q + max (e / 100) 20 < e then max 50 (min 1000 ((v.drive l).setpoint + lim.loopStep))
      else if e + max (e / 100) 20 < q then max 50 (min 1000 ((v.drive l).setpoint - lim.loopStep))
      else (v.drive l).setpoint := by
  have auto : v.loopSp l lim = autoStep e q lim.loopStep (v.drive l).setpoint := by
    unfold State.loopSp loopSetpoint
    simp only [h, he, hq]
  exact auto

theorem State.loopSp_freeze (h : (v.loopRate l).mode = .freeze) : v.loopSp l lim = (v.drive l).setpoint := by
  unfold State.loopSp loopSetpoint
  simp only [h]

/-- R68: the setpoint in SET, which stays where it stands at the console opening. -/
theorem State.loopSp_set (h : (v.loopRate l).mode = .set) : v.loopSp l lim =
      if (v.drive l).setpoint < (v.rate l).opening.getD (v.drive l).setpoint then
        min ((v.rate l).opening.getD (v.drive l).setpoint) ((v.drive l).setpoint + lim.loopStep)
      else max ((v.rate l).opening.getD (v.drive l).setpoint) ((v.drive l).setpoint - lim.loopStep) := by
  unfold State.loopSp loopSetpoint
  simp only [h, State.loopRate_opening h]
  cases (v.rate l).opening with
  | none => simp
  | some o =>
    simp only [setStep, Option.getD_some]
    split
    · rfl
    · split
      · rfl
      · omega

/-- R14: a changed target_eff ends steady in DELIVERING. -/
theorem State.measAt_of_delivering (hs : (v.seq l).state = .delivering) (x : Option Nat) : v.measAt l x =
    if (v.rate l).eff ≠ x then { v.meas l with steady := false, inRun := 0, outRun := 0 } else v.meas l := by
  unfold State.measAt
  simp only [hs, true_and]
  rfl

end Looping

/-- R32: the stroke timer starts when the valve leaves the open end, and then runs. -/
theorem Drive.strokeTimed_eq (d : Drive) (pos : Option Nat) : d.strokeTimed pos =
    d.strokeTimer.elim (if pos.any (· < 980) then some 0 else none) fun m => some (m + 2) := by
  unfold Drive.strokeTimed Drive.strokeTimerStep
  cases h : d.strokeTimer with
  | none =>
    simp only []
    split <;> simp [h]
  | some m => rfl

end Sys2Proof.Machine
end

section
/-! SUPPORT. A sample event: measurement, closure, drive step and handing (R2). -/

namespace Sys2Proof.Machine

/-- Settles O20, stage by stage: the fields of the event and its frame, the judgements of the measurement stage, the handing stage,
the closure figures, and the drive step of a line that ramps or rests, forms target_eff, delivers, or makes a stroke test. Each
part reads the statement's local names as the model's own functions and then cites the rule of that outcome. -/
theorem sampleEventMeasures : Obligations.SampleEventMeasures := by
  unfold Obligations.SampleEventMeasures
  refine ⟨fun l x s sound => ?_, fun l x s => ?_, fun l u => ?_, fun l x s => ?_, ?_, ?_, ?_, ?_⟩
  · have frame := (s.sampleEvent_free l x).frame
    have within := State.sampleEvent_within sound l x
    obtain ⟨window, q, pTot, dBase, steadyN, allowed, pressure, stretch, position⟩ := s.sampleEvent_fields l x
    refine ⟨_, rfl, window, q, pTot, dBase, steadyN, allowed, pressure.trans ?_, stretch.trans ?_, position.trans ?_,
      within.lines, within.tanks, frame.loop, frame.far, frame.port, frame.pending, frame.clock, frame.phase, frame.key,
      frame.settings, frame.store⟩
    · cases x.pressure <;> rfl
    · cases x.stretch <;> rfl
    · cases x.position <;> rfl
  · refine ⟨fun hs => ?_, fun hs hd lim hl => ?_⟩
    · rw [State.measureStage_disconnected hs, State.modMeas_meas, if_pos rfl]
      exact ⟨rfl, rfl, rfl, rfl⟩
    · obtain ⟨detected, left, other⟩ := State.measureStage_steady (x := x) hs hd hl
      exact ⟨State.measureStage_runs hs hd hl, detected, left, other⟩
  · intro tc
    have handed : tc = handedTc (u.seq l).state (u.meas l) (u.drive l) := by
      simp only [tc, handedTc, Drive.tRem]
      cases (u.seq l).state <;> cases (u.drive l).ramp <;> rfl
    clear_value tc
    subst handed
    exact u.handStage_eq l
  · intro v u t
    refine ⟨rfl, State.sampleEvent_disconnected, fun hs lim hl => ?_, fun hs => ?_⟩
    · intro q head stroke
      have given : stroke = ((s.drive l).tStroke.map fun n => ceilDiv (n * x.position.getD 1000) 1000).getD lim.tMax := by
        simp only [stroke]
        cases (s.drive l).tStroke <;> rfl
      obtain ⟨tClose, qSurge, -⟩ := v.handed_figures l x.position
      obtain ⟨closes, surges⟩ := State.sampleEvent_closure (x := x) hs hl
      exact ⟨given ▸ tClose.trans closes, qSurge.trans surges⟩
    · obtain ⟨tClose, -, tC⟩ := v.handed_figures l x.position
      have closed := ((s.measureStage l x).closureStage_soft l).seq l
      have up : (u.seq l).state ≠ .disconnected := by
        refine State.driveStage_staysConnected v l x.position ?_
        rw [closed]
        exact (s.measureStage_staysUp l x).connected hs
      have same : (u.meas l).tClose = (t.meas l).tClose := by
        obtain ⟨_, _, _, driven⟩ := Meas.steadied_iff.mp (v.driveStage_steadied l x.position l)
        rw [tClose, driven]
      rw [tC]
      show handedTc (u.seq l).state (u.meas l) (u.drive l) = _
      revert up
      simp only [handedTc, Drive.tRem, same]
      cases (u.seq l).state <;> cases (u.drive l).ramp <;> simp
  · intro l pos v n d last ramped moved rested u
    have kept : last = d.lastAfter pos := by cases pos <;> rfl
    have stepped : ramped = d.rampStep := by
      cases h : d.ramp with
      | none => simp only [ramped, h, Drive.rampStep]
      | some r => simp only [ramped, h, Drive.rampStep_of_ramp h]
    clear_value last ramped
    subst kept stepped
    have ramps : (v.seq l).state ≠ .tripping → moved = d.rampStep := fun e => if_neg e
    have stands : (v.seq l).state = .tripping → moved = d := fun e => if_pos e
    refine ⟨fun hn => ⟨fun le => ⟨fun hs lim hl => ?_, fun hs => ⟨fun near => ?_, fun far => ?_⟩⟩,
      fun lt => ⟨fun hs hc => ?_, fun hs => ?_⟩⟩, fun hs => ?_, fun hs => State.driveStage_resting hs⟩
    · have ramp := ramps (by rw [hs]; decide)
      clear_value moved
      subst ramp
      refine ⟨fun near => ?_, fun far => ?_⟩
      · have whole := State.driveStage_delivers hs hl hn le near
        have rate := State.rate_of_rates (congrArg State.rates whole)
        have meas := State.meas_of_meass (congrArg State.meass whole)
        refine ⟨State.seq_of_seqs (congrArg State.seqs whole), State.drive_of_drives (congrArg State.drives whole), ?_⟩
        simp only [u, rate, meas, and_self]
      · have whole := State.driveStage_goesOn (by rw [hs]; decide) hn le (fun _ lim' p hl' hp => by
          cases hl.symm.trans hl'
          exact far p hp) fun e => absurd hs e
        exact State.line_of_step whole
    · have shut := (closedPos_iff pos).mpr near
      simp only [List.mem_cons, List.not_mem_nil, or_false] at hs
      rcases hs with hs | hs | hs
      · have ramp := ramps (by rw [hs]; decide)
        clear_value moved
        subst ramp
        have whole := State.driveStage_held hs hn le shut
        exact ⟨State.drive_of_drives (congrArg State.drives whole),
          fun _ => State.seq_of_seqs (congrArg State.seqs whole), by rw [hs]; simp, by rw [hs]; simp⟩
      · have ramp := ramps (by rw [hs]; decide)
        clear_value moved
        subst ramp
        exact ⟨(State.finished_told hs hn le shut).1, by rw [hs]; simp,
          fun _ sound => State.driveStage_finishes hs hn le shut sound, by rw [hs]; simp⟩
      · have stand := stands hs
        clear_value moved
        subst stand
        obtain ⟨seq, drive⟩ := State.driveStage_tripped hs hn le shut
        exact ⟨drive, by rw [hs]; simp, by rw [hs]; simp, fun _ => seq⟩
    · have ajar := closedPos_eq_false far
      by_cases tripping : (v.seq l).state = .tripping
      · have stand := stands tripping
        clear_value moved
        subst stand
        have whole := State.driveStage_tripping tripping hn le ajar
        exact State.line_of_step whole
      · have ramp := ramps tripping
        clear_value moved
        subst ramp
        have closing : (v.seq l).state ∈ [LineState.opening, .holding, .finishing] ∧ (v.seq l).state ≠ .opening := by
          revert hs tripping
          cases (v.seq l).state <;> simp
        have whole := State.driveStage_goesOn closing.1 hn le (fun e => absurd e closing.2) fun _ => ajar
        exact State.line_of_step whole
    · have ramp := ramps (by revert hs; cases (v.seq l).state <;> simp)
      clear_value moved
      subst ramp
      exact State.driveStage_trippingBy hs hn lt hc
    · have stand := stands hs
      clear_value moved
      subst stand
      exact State.driveStage_stuck hs hn lt
    · have whole := State.driveStage_paused (pos := pos) hs
      exact State.line_of_step whole
  · intro l pos v lim surge e g hs hl hsurge least u
    obtain ⟨stays, delivers, ends⟩ := State.driveStage_target (pos := pos) hs hl
    have formed := State.formed_of_least (by revert hs; cases (v.seq l).state <;> simp [LineState.formsTarget]) hl hsurge
      least (r := v.rate l) rfl rfl
    rw [formed] at stays delivers
    exact ⟨stays, delivers, ends⟩
  · intro l pos v lim q surge e n g hs hl hq hsurge least d r surgeRun maxRun why mode sp u hn
    have counted := State.countedRate_eq hl hq hsurge
    have loops := State.loopRate_taken hs hl hq hsurge least
    have target : (v.loopRate l).eff = some e := by rw [State.loopRate_eq hs hl hsurge least]
    have reason : (v.countedRate l).takeoverReason = why := by rw [counted]; rfl
    rw [reason] at loops
    have moves : (v.loopRate l).mode = mode := by rw [State.loopRate_mode, reason]
    have steps : sp = v.loopSp l lim := by
      simp only [sp]
      cases m : mode with
      | auto => exact (State.loopSp_auto (moves.trans m) target hq).symm
      | freeze => exact (State.loopSp_freeze (moves.trans m)).symm
      | set => exact (State.loopSp_set (moves.trans m)).symm
    clear_value sp
    subst steps
    refine ⟨fun le => ?_, fun lt hc => ?_⟩
    · have whole := State.driveStage_loops hs hl hn le
      have stays : (v.driveStage l pos).seq l = v.seq l := by rw [whole]; rfl
      refine ⟨stays, (State.drive_of_drives (congrArg State.drives whole)).trans (by cases pos <;> rfl), ?_, ?_⟩
      · exact (State.rate_of_rates (congrArg State.rates whole)).trans loops
      · rw [State.meas_of_meass (congrArg State.meass whole), target]
        exact State.measAt_of_delivering hs _
    · intro switched taken
      have tripped : trippedRate .delivering (v.loopRate l) = trippedRate .delivering taken := by
        rw [loops]
        simp only [taken, switched]
        by_cases switches : (v.rate l).mode ≠ .auto ∧ why ≠ none
        · rw [if_pos switches, if_pos switches]
          rfl
        · rw [if_neg switches, if_neg switches]
          rfl
      cases pos <;> exact State.driveStage_loop_trips hs hl hn lt hc tripped
  · intro l pos v timer n hs ht d last u failed goesOn
    have kept : last = d.lastAfter pos := by cases pos <;> rfl
    clear_value last
    subst kept
    have fails : ∀ why, StrokeEnds v u l pos why → failed why := fun _ h => h
    have goes : ∀ d' : Drive, v.strokeStep l pos = v.modDrive l (fun _ => d') → d'.lastPos = d.lastPos →
        d'.tStroke = d.tStroke → d'.track = d.track → d'.testFailed .travel = d.testFailed .travel →
        TracksTo d d'.setpoint pos n → goesOn d' := fun d' step position stroke track rest hn =>
      ⟨fun le => State.line_of_step (State.driveStage_strokes hs step position stroke track hn le),
        fun lt => fails _ (State.driveStage_stroke_travel hs step position stroke track hn lt rest)⟩
    refine ⟨fun hg => ⟨fun opened hn => goes _ (State.strokeStep_opened hg opened) rfl rfl rfl rfl hn, fun shut => ?_⟩,
      fun hg => ?_, fun hg => ?_⟩
    · have step := State.strokeStep_opening hs hg ht shut
      refine ⟨fun le => ?_, fun lt => ?_⟩
      · rw [if_pos le] at step
        exact fails _ (State.driveStage_timeout hs step (by rw [State.modDrive_drive, if_pos rfl]; rfl))
      · rw [if_neg (Nat.not_le.mpr lt)] at step
        exact goes _ step rfl rfl rfl rfl
    · have step := State.strokeStep_settling (pos := pos) hs hg ht
      refine ⟨fun le => ?_, fun lt => ?_⟩
      · rw [if_pos le] at step
        exact goes _ step rfl rfl rfl rfl
      · rw [if_neg (Nat.not_le.mpr lt)] at step
        exact goes _ step rfl rfl rfl rfl
    · intro stroke
      have timed : stroke = d.strokeTimed pos := by
        simp only [stroke, Drive.strokeTimed_eq]
        cases d.strokeTimer <;> rfl
      clear_value stroke
      subst timed
      refine ⟨fun m hm shut => ⟨fun range distinct => State.driveStage_passes hs hg ht hm shut range distinct,
        fun out => fails _ (State.driveStage_out_of_range hs hg ht hm shut fun range => ?_)⟩, fun ajar => ?_⟩
      · exact out.elim (fun lt => Nat.not_lt.mpr range.1 lt) fun lt => Nat.not_lt.mpr range.2 lt
      · have step := State.strokeStep_closing hs hg ht ajar
        refine ⟨fun le => ?_, fun lt => ?_⟩
        · rw [if_pos le] at step
          exact fails _ (State.driveStage_timeout hs step (by rw [State.modDrive_drive, if_pos rfl]; rfl))
        · rw [if_neg (Nat.not_le.mpr lt)] at step
          exact goes _ step rfl rfl rfl rfl

end Sys2Proof.Machine
end

section
/-! SUPPORT. One step does what `Acts` allows, and drive-enable follows the line state over every step (R21). -/

namespace Sys2Proof.Machine

/-- One step, its command taken off the queue, does what `Acts` allows: the command's own meaning, or one ds. -/
theorem step_acts {s t : State} (h : step s = .next t) : Acts { s with pending := s.pending.tail } t := by
  cases hp : s.pending with
  | nil =>
    have run : step s = .next s.tick := by unfold step; rw [hp]
    have same : ({ s with pending := [] } : State) = s := by rw [← hp]
    have ticked : s.tick = t := Host.Outcome.next.inj (run.symm.trans h)
    rw [List.tail_nil, same, ← ticked]
    exact s.tick_acts
  | cons c rest =>
    have run : step s = exec c { s with pending := rest } := by unfold step; rw [hp]
    rw [List.tail_cons]
    exact exec_acts c _ t (run.symm.trans h)

/-- Settles O9: no write of `Acts` but a connection, a disconnection and a reset touches drive-enable or the line state it
follows, and each of those writes both (`Acts.enabled`). -/
theorem driveEnableFollowsTheState : Obligations.DriveEnableFollowsTheState := fun _ _ enabled run =>
  (step_acts run).enabled enabled

end Sys2Proof.Machine
end

section
/-! SUPPORT. The stroke test: the stages that run out (R31 to R33), STROKE (R30, R42) and STROKESET (R35). -/

namespace Sys2Proof.Machine

/-! ### Stages that run out -/

section StagesEnd

variable {s : State} {l : LineId} {n : Nat} (hs : (s.seq l).state = .stroking) (ht : (s.drive l).stageTimer = some n)
include hs ht

theorem State.judgeOpenTimeout_of_late (hg : (s.drive l).stage = some .openMove) (hn : 1800 ≤ n) :
    s.judgeOpenTimeout l = s.failStroke l .openTimeout := if_pos ⟨hs, hg, by rw [ht]; exact hn⟩

theorem State.judgeCloseTimeout_of_late (hg : (s.drive l).stage = some .closeMove) (hn : 1800 ≤ n) :
    s.judgeCloseTimeout l = s.failStroke l .closeTimeout := if_pos ⟨hs, hg, by rw [ht]; exact hn⟩

theorem State.judgeSettleEnd_of_late (hg : (s.drive l).stage = some .settle) (hn : 20 ≤ n) :
    s.judgeSettleEnd l = s.modDrive l fun d => { d.adjust 0 with stage := some .closeMove, stageTimer := some 0 } :=
  if_pos ⟨hs, hg, by rw [ht]; exact hn⟩

end StagesEnd

/-- Settles O24: a timeout fails the test (`State.failStroke_strokeFailed`), and the end of SETTLE writes the drive alone. -/
theorem strokeStagesEnd : Obligations.StrokeStagesEnd := by
  refine fun l s n hs ht => ⟨fun hg hn => ?_, fun hg hn => ?_, fun hg hn => ?_⟩
  · exact ⟨_, congrArg Host.Outcome.next (State.judgeOpenTimeout_of_late hs ht hg hn), s.failStroke_strokeFailed l _⟩
  · exact ⟨_, congrArg Host.Outcome.next (State.judgeCloseTimeout_of_late hs ht hg hn), s.failStroke_strokeFailed l _⟩
  · exact congrArg Host.Outcome.next (State.judgeSettleEnd_of_late hs ht hg hn)

/-! ### STROKE -/

/-- R30, R42, R76: what a taken STROKE does, whole. -/
theorem State.strokeLine_eq {s : State} {l : LineId} (h : (s.seq l).state = .connected) : s.strokeLine l = { s with
    seqs := vset s.seqs l { s.seq l with state := .stroking, pump := false }
    rates := vset s.rates l { s.rate l with eff := none, governing := none }
    drives := vset s.drives l { s.drive l with ramp := none, setpoint := 1000, stage := some .openMove,
                                               stageTimer := some 0, strokeTimer := none, track := 0 }
    notices := noticesWith s (.line l) } := by
  have told : ((s.modSeq l fun q => { q with state := .stroking }).modDrive l Drive.startStroke).notices =
      noticesWith s (.line l) := s.modSeq_notices l _ fun e => by
    have state := congrArg Seq.state e
    rw [h] at state
    cases state
  unfold State.strokeLine State.dropTarget
  rw [State.setTarget_eq _ l none (by simp), told, noticesWith_twice s _ _ told (by simp), ite_self]
  apply State.eq_of_fields <;> simp [pumpPermit, Drive.startStroke]

theorem State.exec_stroke {s : State} {l : LineId} (hr : Ready s) (hs : (s.seq l).state = .connected) :
    exec (.stroke (lineNumber l)) s = .next (if (s.seq l).permit then
      s.refuse ["STROKE", numText (lineNumber l)] ["STATE", "PERMIT"]
      else (s.strokeLine l).take ["STROKE", numText (lineNumber l)] [LineState.stroking.text]) := by
  show Host.Outcome.next (s.drained.takeStroke (lineNumber l)) = _
  rw [s.drained_ready hr, State.takeStroke, State.lineRequest_ready hr.1]
  simp only [hs]

/-! ### STROKESET -/

theorem State.exec_strokeset {s : State} (hr : Ready s) (l : LineId) (time : Option Nat) :
    exec (.strokeset (lineNumber l) time) s = .next (s.takeStrokeset (lineNumber l) time) := by
  show Host.Outcome.next (s.drained.takeStrokeset (lineNumber l) time) = _
  rw [s.drained_ready hr]

theorem LineState.atRest_iff (st : LineState) : st.atRest = true ↔ st ∈ [LineState.disconnected, .connected] := by
  cases st <;> decide

/-- R35: the override stored, the drive of the reply being the one stored. -/
theorem State.takeStrokeset_some {s : State} (h : s.phase = .running) (l : LineId) (v : Nat) :
    s.takeStrokeset (lineNumber l) (some v) =
      let d := { s.drive l with tOvr := some (clamp 20 1800 v) }
      (s.modDrive l fun _ => d).take ["STROKESET", numText (lineNumber l)]
        ([numText (clamp 20 1800 v), optNum d.tStroke] ++ clampedMark v (clamp 20 1800 v) ++ d.heldToMeasured) := by
  rw [State.takeStrokeset, State.lineRequest_ready h]
  simp only [State.modDrive_drive, if_true]
  rfl

/-- R35: the override removed from a line at rest. -/
theorem State.takeStrokeset_none {s : State} (h : s.phase = .running) {l : LineId} (rest : (s.seq l).state.atRest = true) :
    s.takeStrokeset (lineNumber l) none =
      let d := { s.drive l with tOvr := none }
      (s.modDrive l fun _ => d).take ["STROKESET", numText (lineNumber l)] ["NONE", optNum d.tStroke] := by
  rw [State.takeStrokeset, State.lineRequest_ready h]
  simp only [rest, State.modDrive_drive, if_true]
  rfl

/-- Settles O29: the permit decides STROKE, and STROKESET writes the override alone. -/
theorem strokeAndStrokesetTaken : Obligations.StrokeAndStrokesetTaken := by
  refine ⟨fun l s hr hs hp => ?_, fun l s hr hs hp => ?_, fun l v s hr => ?_, fun l s hr hs => ?_⟩
  · rw [State.exec_stroke hr hs, hp, if_neg Bool.false_ne_true, State.strokeLine_eq hs]
    rfl
  · rw [State.exec_stroke hr hs, hp, if_pos rfl]
    rfl
  · rw [State.exec_strokeset hr, State.takeStrokeset_some hr.1]
    rfl
  · rw [State.exec_strokeset hr, State.takeStrokeset_none hr.1 ((LineState.atRest_iff _).mpr hs)]
    rfl

end Sys2Proof.Machine
end

section
/-! SUPPORT. The entry to OPENING (R45, R52, R64, R65), whole, and START (R44, R45). -/

namespace Sys2Proof.Machine

/-! ### The entry to OPENING -/

/-- R26, R28: a drive given the half-speed ramp to the start opening of a record. -/
def Drive.opening (d : Drive) (lim : Limits) : Drive :=
  (d.rampTo lim.startOpening (halfSpeedTime (d.tStroke.getD 0) d.setpoint lim.startOpening)).trackFrom0

/-- R64: a rate-control state with target_eff and the governing limit at the least of its terms. -/
def Rate.leastOf (r : Rate) (lim : Limits) (qSurge : Nat) (g : Gauging) : Rate :=
  { r with eff := (leastTerm (targetTerms r lim qSurge g)).map (·.1)
           governing := (leastTerm (targetTerms r lim qSurge g)).map (·.2) }

/-- R45, R52, R62: the sequence state of a line that has entered OPENING. -/
def Seq.opened (q : Seq) (loop : Contact) : Seq :=
  { q with state := .opening, holds := setErase .operator q.holds
           pump := q.permit && q.trips.isEmpty && decide (loop = .closed) }

/-- R45, R52: what the entry to OPENING does, whole. -/
theorem State.enterOpening_eq {s : State} {l : LineId} {lim : Limits} (h : s.limits l = some lim) :
    s.enterOpening l = { s with
      seqs := vset s.seqs l ((s.seq l).opened s.esd.loop)
      rates := vset s.rates l ((s.rate l).leastOf lim (s.surgeTerm l) s.link.gauging)
      drives := vset s.drives l ((s.drive l).opening lim)
      notices := (s.enterOpening l).notices } := by
  generalize hu : s.modSeq l (fun q => { q with state := .opening, holds := setErase .operator q.holds }) = u
  have limits : u.limits l = some lim := by rw [← hu, ← h]; simp [State.limits]
  have state : (u.seq l).state = .opening := by rw [← hu]; simp
  have formed : u.formed l (u.rate l) = (s.rate l).leastOf lim (s.surgeTerm l) s.link.gauging := by
    rw [State.formed_of_limits limits, state, ← hu]
    simp [LineState.formsTarget, Rate.leastOf, State.surgeTerm]
  have meas : ∀ eff, u.measAt l eff = s.meas l := fun eff => by
    rw [State.measAt, state, ← hu]
    simp
  have target := u.formTarget_eq l
  rw [formed, meas] at target
  have entered : s.enterOpening l = (u.formTarget l).modDrive l (Drive.opening · lim) := by
    have kept : (u.formTarget l).limits l = some lim := by rw [target]; exact limits
    unfold State.enterOpening
    simp only [hu, kept]
    rfl
  rw [entered, target]
  apply State.eq_of_fields <;> simp [← hu, State.meas, State.drive, vset_vget, Seq.opened, pumpPermit]

/-! ### The checks of START (R44) -/

/-- R44, row 4: a line has a condition of its own, or the device set a member. -/
theorem State.startTrips_iff (s : State) (l : LineId) : s.startTrips l ≠ [] ∨ s.device ≠ [] ↔
    s.esd.loop = .opened ∨ s.device ≠ [] ∨ s.pressureHigh l = true ∨ s.stretchHigh l = true := by
  have own : s.startTrips l ≠ [] ↔ s.esd.loop = .opened ∨ s.pressureHigh l = true ∨ s.stretchHigh l = true := by
    simp only [State.startTrips, ne_eq, List.append_eq_nil_iff, ite_eq_right_iff, List.cons_ne_nil, imp_false, not_and_or,
      not_not, or_assoc]
  rw [own]
  tauto

/-- R44, row 4: the words of a START refused TRIP (log 21). -/
theorem State.startTrips_words (s : State) (l : LineId) :
    (s.startTrips l).map TripCause.text ++ deviceWords (s.startTrips l) s.device =
      (if s.esd.loop = .opened then ["ESD_IN"] else []) ++ (if s.pressureHigh l = true then ["OVERPRESSURE"] else [])
        ++ (if s.stretchHigh l = true then ["STRETCH_TRIP"] else [])
        ++ (s.device.filter fun d => !(decide (d = .esdIn) && decide (s.esd.loop = .opened))).flatMap DeviceTrip.text := by
  have esd : TripCause.esdIn ∈ s.startTrips l ↔ s.esd.loop = .opened := by
    simp [State.startTrips]
  have words : (s.startTrips l).map TripCause.text =
      (if s.esd.loop = .opened then ["ESD_IN"] else []) ++ (if s.pressureHigh l = true then ["OVERPRESSURE"] else [])
        ++ (if s.stretchHigh l = true then ["STRETCH_TRIP"] else []) := by
    simp only [State.startTrips, List.map_append, apply_ite (List.map TripCause.text)]
    rfl
  rw [words, deviceWords]
  simp only [esd]

theorem Meas.faulted_iff (m : Meas) :
    m.faulted = true ↔ 5 ≤ m.pressureOut ∨ 5 ≤ m.stretchOut ∨ 5 ≤ m.positionOut := by
  simp [Meas.faulted, or_assoc]

theorem Drive.tStroke_eq_none (d : Drive) : d.tStroke = none ↔ d.tMeas = none ∧ d.tOvr = none := by
  unfold Drive.tStroke
  cases d.tMeas <;> cases d.tOvr <;> simp

theorem State.countIn_eq_zero (s : State) (l : LineId) (st : TankState) :
    s.countIn l st = 0 ↔ ∀ k ∈ s.lineup l, s.tankState k ≠ some st := by
  simp [State.countIn]

theorem State.fullTanks_eq_nil (s : State) (l : LineId) :
    s.fullTanks l = [] ↔ ∀ k ∈ s.lineup l, s.tankState k ≠ some .full := by
  simp [State.fullTanks]

/-! ### START -/

theorem State.exec_start {s : State} (hr : Ready s) (l : LineId) (rate : NumField) :
    exec (.start (lineNumber l) rate) s = .next (s.takeStart (lineNumber l) rate) := by
  show Host.Outcome.next (s.drained.takeStart (lineNumber l) rate) = _
  rw [s.drained_ready hr]

theorem State.exec_start_refused {s : State} {l : LineId} {why : List String} (hr : Ready s)
    (h : s.startRefusal l = some why) (asked : Nat) : exec (.start (lineNumber l) (some asked)) s = .next { s with
      port := replied s (["?", "START", numText (lineNumber l)] ++ why) } := by
  rw [State.exec_start hr, State.takeStart, State.lineRequest_ready hr.1]
  simp only [h]
  rfl

theorem State.exec_start_taken {s : State} {l : LineId} (hr : Ready s) (h : s.startRefusal l = none) (asked : Nat) :
    exec (.start (lineNumber l) (some asked)) s = .next
      ((s.startLine l (s.clampRate l asked)).take ["START", numText (lineNumber l)]
        ([LineState.opening.text, numText (s.clampRate l asked)] ++ clampedMark asked (s.clampRate l asked))) := by
  rw [State.exec_start hr, State.takeStart, State.lineRequest_ready hr.1]
  simp only [h]

section Rows

variable {s : State} {l : LineId} (connected : (s.seq l).state = .connected)
include connected

theorem State.startRefusal_busy (h : s.writing l = true) : s.startRefusal l = some ["BUSY"] := by
  rw [State.startRefusal, if_neg (not_not.mpr connected), if_pos h]

variable (written : s.writing l = false)
include written

theorem State.startRefusal_trip (h : s.startTrips l ≠ [] ∨ s.device ≠ []) : s.startRefusal l =
    some ("TRIP" :: ((s.startTrips l).map TripCause.text ++ deviceWords (s.startTrips l) s.device)) := by
  rw [State.startRefusal, if_neg (not_not.mpr connected), if_neg (by simp [written]), if_pos h]
  rfl

variable (closed : ¬ (s.startTrips l ≠ [] ∨ s.device ≠ []))
include closed

theorem State.startRefusal_sensor (h : (s.meas l).faulted = true) :
    s.startRefusal l = some ("SENSOR" :: (s.meas l).faultedNames) := by
  rw [State.startRefusal, if_neg (not_not.mpr connected), if_neg (by simp [written]), if_neg closed, if_pos h]

variable (sensed : ¬ (s.meas l).faulted = true)
include sensed

theorem State.startRefusal_permit (h : (s.seq l).permit = false) : s.startRefusal l = some ["PERMIT"] := by
  rw [State.startRefusal, if_neg (not_not.mpr connected), if_neg (by simp [written]), if_neg closed, if_neg sensed, if_pos h]

/-- R44, rows 7 to 9: the checks that are left once the ship permit is held. -/
theorem State.startRefusal_permitted (h : (s.seq l).permit = true) : s.startRefusal l =
    if (s.drive l).tStroke = none then some ["UNCHECKED"]
    else if s.countIn l .filling = 0 then some ["NO_OUTLET"]
    else if s.fullTanks l ≠ [] then some ("FULL" :: (s.fullTanks l).map fun t => numText (tankNumber t))
    else none := by
  rw [State.startRefusal, if_neg (not_not.mpr connected), if_neg (by simp [written]), if_neg closed, if_neg sensed,
    if_neg (by simp [h])]

end Rows

/-- R45: what a taken START does, whole. -/
theorem State.startLine_eq {s : State} {l : LineId} {lim : Limits} (h : s.limits l = some lim) (used : Nat) :
    s.startLine l used = { s with
      seqs := vset s.seqs l ((s.seq l).opened s.esd.loop)
      rates := vset s.rates l (Rate.leastOf { s.rate l with target := used } lim (s.surgeTerm l) s.link.gauging)
      drives := vset s.drives l ((s.drive l).opening lim)
      notices := (s.startLine l used).notices } := by
  have entered := State.enterOpening_eq (s := s.modRate l fun r => { r with target := used }) (l := l) h
  rw [State.startLine, entered]
  apply State.eq_of_fields <;> simp [State.rate, State.modRate, vset_vset, State.surgeTerm, State.seq, State.drive, State.meas]

/-- Settles O31: the rows of R44 in their order, and past them all the entry to OPENING. -/
theorem startTaken : Obligations.StartTaken := by
  refine ⟨fun l asked s lim hr hs hlim written loop pressure stretch device sensed permit stroke filling noFull trips => ?_,
    fun l s hr => ?_, fun l asked s hr hs => ?_⟩
  · intro used least
    have clamped : s.clampRate l asked = used := State.clampRate_eq hlim asked
    have closed : ¬ (s.startTrips l ≠ [] ∨ s.device ≠ []) := by
      rw [s.startTrips_iff]
      simp [loop, device, pressure, stretch]
    have unfaulted : ¬ (s.meas l).faulted = true := by
      rw [Meas.faulted_iff]
      omega
    have passed : s.startRefusal l = none := by
      rw [State.startRefusal_permitted hs written closed unfaulted permit, if_neg stroke, if_neg filling.ne',
        if_neg (not_not.mpr ((s.fullTanks_eq_nil l).mpr noFull))]
    have taken := State.exec_start_taken hr passed asked
    rw [clamped] at taken
    have whole := State.startLine_eq hlim used
    have own := s.startLine_own l used
    have seq := State.seq_of_seqs (congrArg State.seqs whole)
    have rate := State.rate_of_rates (congrArg State.rates whole)
    have drive := State.drive_of_drives (congrArg State.drives whole)
    refine ⟨_, taken, ?_, ?_, ?_, ?_, own.only, ?_⟩
    · rw [State.take, State.answer_seq, seq]
      simp [Seq.opened, permit, trips, loop]
    · rw [State.take, State.answer_rate, rate]
      rfl
    · rw [State.take, State.answer_drive, drive]
      rfl
    · rw [own.elsewhere.replied]
      rfl
    · apply State.eq_of_fields <;> simp only [State.take_eq]
      all_goals rw [whole]
  · rw [State.exec_start hr, State.takeStart, State.lineRequest_ready hr.1]
    rfl
  · intro m refused high stretched tripped faulted full
    have trip_iff : s.startTrips l ≠ [] ∨ s.device ≠ [] ↔ tripped := by
      rw [s.startTrips_iff, s.pressureHigh_iff, s.stretchHigh_iff]
    have fault_iff : (s.meas l).faulted = true ↔ faulted := Meas.faulted_iff _
    have refuses : ∀ why, s.startRefusal l = some why → refused why := fun _ h => State.exec_start_refused hr h asked
    refine ⟨fun busy => refuses _ (State.startRefusal_busy hs busy), fun written => ⟨fun trip => ?_, s.pressureHigh_iff l,
      s.stretchHigh_iff l, fun untripped => ⟨fun fault => ?_, fun unfaulted => ⟨fun no => ?_, fun permit => ?_⟩⟩⟩⟩
    · rw [← s.startTrips_words l]
      exact refuses _ (State.startRefusal_trip hs written (trip_iff.mpr trip))
    · exact refuses _ (State.startRefusal_sensor hs written (mt trip_iff.mp untripped) (fault_iff.mpr fault))
    · exact refuses _ (State.startRefusal_permit hs written (mt trip_iff.mp untripped) (mt fault_iff.mp unfaulted) no)
    · have rows := State.startRefusal_permitted hs written (mt trip_iff.mp untripped) (mt fault_iff.mp unfaulted) permit
      refine ⟨fun unchecked => refuses _ (rows.trans (if_pos ((Drive.tStroke_eq_none _).mpr unchecked))), fun checked => ?_⟩
      have stroke : (s.drive l).tStroke ≠ none := fun e =>
        have ⟨measured, override⟩ := (Drive.tStroke_eq_none _).mp e
        checked.elim (fun h => h measured) fun h => h override
      rw [if_neg stroke] at rows
      refine ⟨fun empty => refuses _ (rows.trans (if_pos ((s.countIn_eq_zero l _).mpr empty))), fun filling hfull => ?_⟩
      rw [if_neg ((s.countIn_pos l _).mpr filling).ne'] at rows
      exact refuses _ (rows.trans (if_pos hfull))

end Sys2Proof.Machine
end

section
/-! SUPPORT. RESUME (R52, R73, R95). -/

namespace Sys2Proof.Machine

/-- R52, R73, R95: what a taken RESUME does, whole. -/
theorem State.resumeLine_eq {s : State} {l : LineId} {lim : Limits} (h : s.limits l = some lim) :
    s.resumeLine l = { s with
      seqs := vset s.seqs l ((s.seq l).opened s.esd.loop)
      rates := vset s.rates l (Rate.leastOf
        { s.rate l with target := (s.rate l).pendingTarget.getD (s.rate l).target, pendingTarget := none }
        lim (s.surgeTerm l) s.link.gauging)
      drives := vset s.drives l ((s.drive l).opening lim)
      tanks := (s.clearRings l).tanks
      notices := (s.resumeLine l).notices } := by
  have rings := s.clearRings_eq l
  generalize hu : ((s.clearRings l).modRate l fun r =>
    { r with target := r.pendingTarget.getD r.target, pendingTarget := none }) = u
  have before : u = { s with
      rates := vset s.rates l
        { s.rate l with target := (s.rate l).pendingTarget.getD (s.rate l).target, pendingTarget := none }
      tanks := (s.clearRings l).tanks } := by
    rw [← hu, rings]
    rfl
  have resumed : s.resumeLine l = u.enterOpening l := congrArg (State.enterOpening · l) hu
  have rate : u.rate l = _ := State.rate_of_rates (congrArg State.rates before)
  have limits : u.limits l = some lim := by rw [before]; exact h
  rw [resumed, State.enterOpening_eq limits, rate, before]
  apply State.eq_of_fields <;> simp [vset_vset, State.seq, State.drive, State.surgeTerm, State.meas]

theorem State.exec_resume {s : State} {l : LineId} (hr : Ready s) (hs : (s.seq l).state ∈ [LineState.holding, .held]) :
    exec (.resume (lineNumber l)) s = .next (
      if (s.seq l).otherHolds ≠ [] then
        s.refuse ["RESUME", numText (lineNumber l)] ("CAUSES" :: (s.seq l).otherHolds.map HoldCause.text)
      else if (s.seq l).permit = false then s.refuse ["RESUME", numText (lineNumber l)] ["PERMIT"]
      else if s.countIn l .filling = 0 then s.refuse ["RESUME", numText (lineNumber l)] ["NO_OUTLET"]
      else (s.resumeLine l).take ["RESUME", numText (lineNumber l)] [LineState.opening.text]) := by
  have paused : (s.seq l).state.paused = true := by
    revert hs
    cases (s.seq l).state <;> simp [LineState.paused]
  show Host.Outcome.next (s.drained.takeResume (lineNumber l)) = _
  rw [s.drained_ready hr, State.takeResume, State.lineRequest_ready hr.1]
  simp only [paused, Bool.true_eq_false, if_false]

/-- R52, check 3: no other cause, where OPERATOR alone may stand. -/
theorem Seq.otherHolds_eq_nil (q : Seq) : q.otherHolds = [] ↔ ∀ c ∈ q.holds, c = .operator := by
  simp [Seq.otherHolds, setErase]

/-- Settles O35: the checks of R52 in their order, and past them the rings cleared and the entry to OPENING. -/
theorem resumeTaken : Obligations.ResumeTaken := by
  refine ⟨fun l s lim hr hs causes permit filling hlim => ?_, fun l s hr hs => ?_⟩
  · intro target least
    have alone : (s.seq l).otherHolds = [] := (Seq.otherHolds_eq_nil _).mpr causes
    have taken := State.exec_resume hr hs
    rw [if_neg (not_not.mpr alone), if_neg (by simp [permit]), if_neg filling.ne'] at taken
    have whole := State.resumeLine_eq hlim
    have tank : ∀ k, (s.resumeLine l).tank k = (s.clearRings l).tank k := fun k => by rw [whole]; rfl
    have seq := State.seq_of_seqs (congrArg State.seqs whole)
    have rate := State.rate_of_rates (congrArg State.rates whole)
    have drive := State.drive_of_drives (congrArg State.drives whole)
    refine ⟨_, taken, ?_, ?_, ?_, fun k hk => ?_, fun k hk => ?_, ?_, fun k hk => ?_, ?_⟩
    · rw [State.take, State.answer_seq, seq]
      have holds : setErase .operator (s.seq l).holds = [] := alone
      simp [Seq.opened, permit, holds]
    · rw [State.take, State.answer_rate, rate]
      rfl
    · rw [State.take, State.answer_drive, drive]
      rfl
    · rw [State.take, State.answer_tank, tank, State.clearRings_tank, if_pos hk]
    · rw [State.take, State.answer_tank, tank, State.clearRings_tank, if_neg hk]
    · rw [State.take_eq, whole]
      rfl
    · simp only [State.take_eq]
      rw [whole]
      simp [State.seq, State.rate, State.meas, State.drive, State.lineup, vget_vset, hk]
    · apply State.eq_of_fields <;> simp only [State.take_eq]
      all_goals rw [whole]
  · intro others refused
    have run := State.exec_resume hr hs
    refine ⟨fun (other : (s.seq l).otherHolds ≠ []) => run.trans ?_, fun (alone : (s.seq l).otherHolds = []) =>
      ⟨fun no => run.trans ?_, fun permit empty => run.trans ?_⟩⟩
    · rw [if_pos other]
      rfl
    · rw [if_neg (not_not.mpr alone), if_pos no]
      rfl
    · rw [if_neg (not_not.mpr alone), if_neg (by simp [permit]), if_pos ((s.countIn_eq_zero l _).mpr empty)]
      rfl

end Sys2Proof.Machine
end

section
/-! SUPPORT. R62 over every step, and the invariants right after reset. -/

namespace Sys2Proof.Machine

/-- Settles O4: each write that touches a sequence state re-judges its pump permit, and a changed loop reading re-judges all
four (`Acts.pumps`). -/
theorem pumpPermitFollows : Obligations.PumpPermitFollows := fun _ _ follows run => (step_acts run).pumps follows

/-- No tank is lined up right after reset. -/
theorem State.reset_lineupsSound : LineupsSound State.reset := by
  refine ⟨fun l k => ?_, fun k r h => ?_, fun l => ?_⟩
  · simp [State.tankLine]
  · simp at h
  · simp

/-- Right after reset the contact is open, nothing is connected, known or in flight, and the device set is empty. -/
theorem State.reset_overfillGuarded : OverfillGuarded State.reset := by
  refine ⟨fun t h => ?_, nofun, fun _ => rfl, fun _ => ⟨fun l => ?_, State.reset_tank, rfl, rfl, nofun⟩⟩
  · simp [State.tankState] at h
  · simp [Seq.initial]

/-- The link controller as reset leaves it keeps its bounds, and its poll queue follows the empty tank table. -/
theorem State.reset_link : LinkBounded State.reset ∧ PollFollows State.reset := by
  refine ⟨by decide, fun k => ?_⟩
  simp [State.reset_tank, show State.reset.link.poll = [] from rfl]

/-- target_eff is absent right after reset. -/
theorem State.reset_targetsBounded : TargetsBounded State.reset := by
  refine ⟨fun l _ => ?_, fun l h => ?_, fun l p h => ?_, fun l q h => ?_, fun l e h => ?_⟩
  · simp [Rate.initial]
  · simp [Seq.initial] at h
  · simp [Rate.initial] at h
  · simp [Meas.initial] at h
  · simp [Rate.initial] at h

/-- Settles O3: every block of `State.reset` is one of the initial blocks, and no tank is known. -/
theorem resetMeetsEveryInvariant : Obligations.ResetMeetsEveryInvariant := by
  have lineup (l : LineId) : State.reset.lineup l = [] := State.reset_lineup l
  refine ⟨fun l => ?_, rfl, List.nodup_nil, nofun, ⟨List.nodup_nil, nofun⟩, fun l h => ?_, fun l h => ?_, fun l h => ?_,
    fun l => ?_, fun l => ?_, State.reset_lineupsSound, by decide, State.reset_link.1, State.reset_link.2,
    State.reset_overfillGuarded, fun l _ => lineup l, fun l k h => ?_, fun l _ => ?_, fun l _ => ?_, fun l => ?_,
    ⟨fun l x h => ?_, nofun⟩, nofun, State.reset_targetsBounded⟩
  · rw [State.reset_seq]; rfl
  · simp [Seq.initial] at h
  · simp [Seq.initial] at h
  · simp [Seq.initial] at h
  · simp [Drive.initial, Seq.initial]
  · simp
  · rw [lineup] at h; cases h
  · simp [Drive.initial]
  · simp [Meas.initial, Rate.initial]
  · simp [Rate.initial, State.countIn]
  · simp [State.limits] at h

end Sys2Proof.Machine
end

section
/-! SUPPORT. What the rules on rest, quiet and lineups ask of a state, line by line and tank by tank, and which writes keep it
(`Placed`): R15, R39, R69, R82, R94. -/

namespace Sys2Proof.Machine

/-! ### What the rules ask -/

/-- R39: the valve of a line in state `st` rests where it has to. -/
def Restful (st : LineState) (d : Drive) : Prop :=
  st ∈ [.disconnected, .connected, .held, .tripping, .tripped] ∨ st = .stroking ∧ d.stage = some .closeMove →
    d.setpoint = 0 ∧ d.ramp = none

/-- R15, R69: the steady flag is off, and its runs and the takeover runs stand at 0. -/
def Calm (m : Meas) (r : Rate) : Prop :=
  m.steady = false ∧ m.inRun = 0 ∧ m.outRun = 0 ∧ r.surgeRun = 0 ∧ r.maxRun = 0

/-- R15, R69: a line outside DELIVERING is calm. -/
def State.Quiet (s : State) (l : LineId) : Prop := (s.seq l).state ≠ .delivering → Calm (s.meas l) (s.rate l)

/-- R82: what a lineup is judged by in a record. -/
def Tank.place (r : Tank) : Option LineId × Bool × Nat := (r.line, r.state.watched, r.grade)

/-- From `s` to `t` lineups stay sound, and then closed, and then graded (R82, R94). -/
def LineupsKept (s t : State) : Prop :=
  LineupsSound s → LineupsSound t ∧ (LineupsClosed s → LineupsClosed t ∧ (LineupsGraded s → LineupsGraded t))

/-- From `s` to `t` each line that rests and is quiet where it has to stays so. -/
structure LinesPlaced (s t : State) : Prop where
  rest : ∀ l, Restful (s.seq l).state (s.drive l) → Restful (t.seq l).state (t.drive l)
  quiet : ∀ l, s.Quiet l → t.Quiet l

/-- From `s` to `t` lines stay placed, and the lineups stay as the rules have them. -/
structure Placed (s t : State) : Prop where
  lines : LinesPlaced s t
  lineups : LineupsKept s t

theorem LinesPlaced.refl {s : State} : LinesPlaced s s := ⟨fun _ => id, fun _ => id⟩

theorem LinesPlaced.trans {s t u : State} (h : LinesPlaced s t) (g : LinesPlaced t u) : LinesPlaced s u :=
  ⟨fun l => g.rest l ∘ h.rest l, fun l => g.quiet l ∘ h.quiet l⟩

theorem Placed.refl {s : State} : Placed s s := ⟨.refl, fun h => ⟨h, fun c => ⟨c, id⟩⟩⟩

theorem Placed.trans {s t u : State} (h : Placed s t) (g : Placed t u) : Placed s u where
  lines := h.lines.trans g.lines
  lineups sound := by
    obtain ⟨sound', later⟩ := h.lineups sound
    obtain ⟨sound'', later'⟩ := g.lineups sound'
    refine ⟨sound'', fun closed => ?_⟩
    obtain ⟨closed', graded⟩ := later closed
    obtain ⟨closed'', graded'⟩ := later' closed'
    exact ⟨closed'', graded' ∘ graded⟩

theorem Placed.foldl {α : Type} {f : State → α → State} (hf : ∀ t x, Placed t (f t x)) (xs : List α) (s : State) :
    Placed s (xs.foldl f s) := by
  induction xs generalizing s with
  | nil => exact .refl
  | cons x xs ih => exact (hf s x).trans (ih _)

theorem State.eachLine_placed (s : State) {f : State → LineId → State} (hf : ∀ t l, Placed t (f t l)) :
    Placed s (s.eachLine f) := Placed.foldl hf allLines s

/-! ### Where the rules ask nothing, or are met -/

/-- A drive with its setpoint at 0 and no ramp rests in every line state. -/
theorem Restful.of_zero {st : LineState} {d : Drive} (setpoint : d.setpoint = 0) (ramp : d.ramp = none) : Restful st d :=
  fun _ => ⟨setpoint, ramp⟩

/-- R39: the states in which the valve may move. -/
theorem Restful.of_moving {st : LineState} {d : Drive} (h : st ∈ [.opening, .delivering, .holding, .finishing]) :
    Restful st d := by
  intro rests
  simp only [List.mem_cons, List.not_mem_nil, or_false] at h rests
  rcases h with rfl | rfl | rfl | rfl <;> simp at rests

/-- A stroke test rests the valve in CLOSE_MOVE alone (R31). -/
theorem Restful.of_stage {d : Drive} (h : d.stage ≠ some .closeMove) : Restful .stroking d := by
  intro rests
  simp [h] at rests

/-- What a drive rests by is its setpoint, its ramp and its stage. -/
theorem Restful.congr {st : LineState} {d e : Drive} (h : Restful st d) (setpoint : e.setpoint = d.setpoint)
    (ramp : e.ramp = d.ramp) (stage : e.stage = d.stage) : Restful st e := by
  unfold Restful
  rw [setpoint, ramp, stage]
  exact h

theorem Tank.place_eq {r r' : Tank} (line : r'.line = r.line) (watched : r'.state.watched = r.state.watched)
    (grade : r'.grade = r.grade) : r'.place = r.place := by
  rw [Tank.place, Tank.place, line, watched, grade]

theorem map_eq_some_of_map_eq {α β : Type} {f : α → β} {x y : Option α} (e : x.map f = y.map f) {a : α} (h : x = some a) :
    ∃ b, y = some b ∧ f b = f a := by
  rw [h, Option.map_some, eq_comm, Option.map_eq_some_iff] at e
  exact e

/-! ### Lineups -/

/-- The lineups stay as the rules have them where lineups, the places of the tanks and the grades stay, and no line
disconnects. -/
theorem LineupsKept.of_same {s t : State} (lineup : ∀ l, t.lineup l = s.lineup l)
    (place : ∀ k, (t.tank k).map Tank.place = (s.tank k).map Tank.place) (grade : ∀ l, (t.seq l).grade = (s.seq l).grade)
    (joined : ∀ l, (t.seq l).state = .disconnected → (s.seq l).state = .disconnected) : LineupsKept s t := by
  have line (k : TankId) : t.tankLine k = s.tankLine k := by
    have e := congrArg (fun p => p.bind Prod.fst) (place k)
    simpa [State.tankLine, Option.bind_map, Function.comp_def, Tank.place] using e
  rintro ⟨listed, watched, distinct⟩
  refine ⟨⟨fun l k => ?_, fun k r hr => ?_, fun l => ?_⟩, fun closed => ⟨fun l hl => ?_, fun graded l k hk r hr => ?_⟩⟩
  · rw [lineup, line]
    exact listed l k
  · obtain ⟨r', hr', same⟩ := map_eq_some_of_map_eq (place k) hr
    simp only [Tank.place, Prod.mk.injEq] at same
    rw [← same.1, ← same.2.1]
    exact watched k r' hr'
  · rw [lineup]
    exact distinct l
  · rw [lineup]
    exact closed l (joined l hl)
  · obtain ⟨r', hr', same⟩ := map_eq_some_of_map_eq (place k) hr
    simp only [Tank.place, Prod.mk.injEq] at same
    rw [grade, ← same.2.2]
    exact graded l k (lineup l ▸ hk) r' hr'

/-- R82: one tank leaves the lineup it stands in, or had left it before: the lineups stay as the rules have them. -/
theorem LineupsKept.off {s t : State} {k : TankId}
    (lineup : ∀ l, t.lineup l = if s.tankLine k = some l then setErase k (s.lineup l) else s.lineup l)
    (others : ∀ j, j ≠ k → t.tank j = s.tank j) (own : ∀ r, t.tank k = some r → r.line = none ∧ r.state.watched = false)
    (seq : ∀ l, t.seq l = s.seq l) : LineupsKept s t := by
  rintro ⟨listed, watched, distinct⟩
  have member (l : LineId) (j : TankId) : j ∈ t.lineup l ↔ j ∈ s.lineup l ∧ j ≠ k := by
    rw [lineup]
    split
    · exact mem_setErase
    · next elsewhere => exact ⟨fun h => ⟨h, fun e => elsewhere ((listed l k).mp (e ▸ h))⟩, And.left⟩
  have unlined : t.tankLine k = none := by
    cases h : t.tank k with
    | none => simp [State.tankLine, h]
    | some r => simpa [State.tankLine, h] using (own r h).1
  refine ⟨⟨fun l j => ?_, fun j r hr => ?_, fun l => ?_⟩, fun closed => ⟨fun l hl => ?_, fun graded l j hj r hr => ?_⟩⟩
  · rw [member]
    by_cases e : j = k
    · subst e
      simp [unlined]
    · simpa [State.tankLine, others j e, e] using listed l j
  · by_cases e : j = k
    · subst e
      obtain ⟨line, unwatched⟩ := own r hr
      rw [line, unwatched]
      rfl
    · exact watched j r (others j e ▸ hr)
  · rw [lineup]
    split
    · exact (distinct l).filter _
    · exact distinct l
  · refine List.eq_nil_iff_forall_not_mem.mpr fun j hj => ?_
    rw [seq] at hl
    have here := ((member l j).mp hj).1
    rw [closed l hl] at here
    cases here
  · obtain ⟨before, other⟩ := (member l j).mp hj
    rw [seq]
    exact graded l j before r (others j other ▸ hr)

/-! ### Writes of one line -/

/-- The writes of one line keep the rules where that line keeps its own. -/
theorem Own.placed {l : LineId} {s t : State} (h : Own l s t) (grade : (t.seq l).grade = (s.seq l).grade)
    (joined : (t.seq l).state = .disconnected → (s.seq l).state = .disconnected)
    (rest : Restful (s.seq l).state (s.drive l) → Restful (t.seq l).state (t.drive l)) (quiet : s.Quiet l → t.Quiet l) :
    Placed s t := by
  have same (k : LineId) (hk : k ≠ l) : t.seq k = s.seq k ∧ t.rate k = s.rate k ∧ t.meas k = s.meas k ∧ t.drive k = s.drive k :=
    let ⟨a, b, c, d, _⟩ := h.only k hk
    ⟨a, b, c, d⟩
  refine ⟨⟨fun k => ?_, fun k => ?_⟩, LineupsKept.of_same (fun k => ?_) (fun k => ?_) (fun k => ?_) fun k => ?_⟩
  · by_cases e : k = l
    · subst e; exact rest
    · obtain ⟨seq, -, -, drive⟩ := same k e
      rw [seq, drive]
      exact id
  · by_cases e : k = l
    · subst e; exact quiet
    · obtain ⟨seq, rate, meas, -⟩ := same k e
      unfold State.Quiet
      rw [seq, rate, meas]
      exact id
  · simp [State.lineup, h.elsewhere.lineups]
  · rw [h.tank]
  · by_cases e : k = l
    · subst e; exact grade
    · rw [(same k e).1]
  · by_cases e : k = l
    · subst e; exact joined
    · rw [(same k e).1]; exact id

/-- Writes of one line's rate, measurement and drive that keep what rests and what is calm. -/
theorem Soft.placed {l : LineId} {s t : State} (h : Soft l s t)
    (rest : Restful (s.seq l).state (s.drive l) → Restful (s.seq l).state (t.drive l))
    (calm : Calm (s.meas l) (s.rate l) → Calm (t.meas l) (t.rate l)) : Placed s t := by
  refine h.own.placed (by rw [h.seq]) (by rw [h.seq]; exact id) (by rw [h.seq]; exact rest) fun quiet out => calm (quiet ?_)
  rwa [h.seq] at out

/-- In DELIVERING the rules ask nothing of a line's drive, measurement and rate. -/
theorem Soft.placed_of_delivering {l : LineId} {s t : State} (h : Soft l s t) (st : (s.seq l).state = .delivering) :
    Placed s t := by
  refine h.own.placed (by rw [h.seq]) (by rw [h.seq]; exact id) (fun _ => ?_) fun _ out => ?_
  · rw [h.seq, st]
    exact Restful.of_moving (by decide)
  · rw [h.seq, st] at out
    exact absurd rfl out

/-- A write of the sequence state that keeps the line's state and grade. -/
theorem State.modSeq_placed (s : State) (l : LineId) {f : Seq → Seq} (state : (f (s.seq l)).state = (s.seq l).state)
    (grade : (f (s.seq l)).grade = (s.seq l).grade) : Placed s (s.modSeq l f) := by
  refine (Own.refl.seq f).placed ?_ ?_ ?_ fun quiet out => ?_
  · simpa using grade
  · simp [state]
  · simp [state]
  · simpa using quiet (by simpa [state] using out)

theorem State.modDrive_placed (s : State) (l : LineId) {f : Drive → Drive} (setpoint : (f (s.drive l)).setpoint = (s.drive l).setpoint)
    (ramp : (f (s.drive l)).ramp = (s.drive l).ramp) (stage : (f (s.drive l)).stage = (s.drive l).stage) :
    Placed s (s.modDrive l f) := by
  refine (Own.refl.drive f).placed (by simp) (by simp) (fun h => ?_) (by simp [State.Quiet])
  simpa using h.congr setpoint ramp stage

theorem State.modRate_placed (s : State) (l : LineId) {f : Rate → Rate}
    (calm : Calm (s.meas l) (s.rate l) → Calm (s.meas l) (f (s.rate l))) : Placed s (s.modRate l f) :=
  (Soft.refl.rate f).placed (by simp) (by simpa using calm)

theorem State.modMeas_placed (s : State) (l : LineId) {f : Meas → Meas} (move : MeasMove (s.meas l) (f (s.meas l)))
    (calm : Calm (s.meas l) (s.rate l) → Calm (f (s.meas l)) (s.rate l)) : Placed s (s.modMeas l f) :=
  (Soft.refl.meas f move).placed (by simp) (by simpa using calm)

/-! ### Writes away from the lines -/

/-- Writes that leave the lines alone. -/
theorem LinesPlaced.of_same {s t : State} (seqs : t.seqs = s.seqs) (rates : t.rates = s.rates) (meass : t.meass = s.meass)
    (drives : t.drives = s.drives) : LinesPlaced s t := by
  have seq (l : LineId) : t.seq l = s.seq l := congrArg (vget · l) seqs
  have rate (l : LineId) : t.rate l = s.rate l := congrArg (vget · l) rates
  have meas (l : LineId) : t.meas l = s.meas l := congrArg (vget · l) meass
  have drive (l : LineId) : t.drive l = s.drive l := congrArg (vget · l) drives
  refine ⟨fun l => ?_, fun l => ?_⟩
  · rw [seq, drive]
    exact id
  · unfold State.Quiet
    rw [seq, meas, rate]
    exact id

/-- Writes that leave lines, lineups and tanks alone. -/
theorem Placed.of_same {s t : State} (seqs : t.seqs = s.seqs) (rates : t.rates = s.rates) (meass : t.meass = s.meass)
    (drives : t.drives = s.drives) (lineups : t.lineups = s.lineups) (tanks : t.tanks = s.tanks) : Placed s t := by
  have seq (l : LineId) : t.seq l = s.seq l := congrArg (vget · l) seqs
  refine ⟨.of_same seqs rates meass drives, LineupsKept.of_same (fun l => ?_) (fun k => ?_) (fun l => by rw [seq]) fun l => ?_⟩
  · rw [State.lineup, lineups]
    rfl
  · rw [State.tank, tanks]
    rfl
  · rw [seq]
    exact id

/-- Writes of the link and the trip unit. -/
def Scope.aside : Scope := { lines := fun _ => False, tanks := fun _ => False, link := True, trip := True }

theorem Free.placed {s t : State} (h : Free .aside s t) : Placed s t := by
  have line (l : LineId) := h.line_eq (l := l) not_false
  refine ⟨⟨fun l => ?_, fun l => ?_⟩, LineupsKept.of_same (fun l => (line l).2.2.2.2) (fun k => ?_) (fun l => ?_) fun l => ?_⟩
  · obtain ⟨seq, -, -, drive, -⟩ := line l
    rw [seq, drive]; exact id
  · obtain ⟨seq, rate, meas, -⟩ := line l
    unfold State.Quiet
    rw [seq, rate, meas]; exact id
  · rw [h.tank_eq not_false]
  · rw [(line l).1]
  · rw [(line l).1]; exact id

theorem Placed.notify {s t : State} (h : Placed s t) (n : Notice) : Placed s (t.notify n) :=
  h.trans (Free.refl.notify n).placed

theorem Placed.raise {s t : State} (h : Placed s t) (k : AlarmKind) (o : AlarmObject) : Placed s (t.raiseAlarm k o) :=
  h.trans (Free.refl.raise k o).placed

theorem Placed.gone {s t : State} (h : Placed s t) (k : AlarmKind) (o : AlarmObject) : Placed s (t.alarmGone k o) :=
  h.trans (Free.refl.gone k o).placed

theorem State.modLink_placed (s : State) (f : Link → Link) : Placed s (s.modLink f) := (Free.refl.link f trivial).placed

theorem State.modLinkNoticed_placed (s : State) (f : Link → Link) : Placed s (s.modLinkNoticed f) :=
  (s.modLinkNoticed_free f trivial).placed

/-! ### Writes of one record -/

theorem State.modTankNoticed_lines (s : State) (k : TankId) (f : Tank → Tank) : LinesPlaced s (s.modTankNoticed k f) :=
  ⟨fun l => by simp, fun l => by simp [State.Quiet]⟩

/-- A write of one record that keeps its line, its grade and whether it is watched. -/
theorem State.modTankNoticed_placed (s : State) (k : TankId) {f : Tank → Tank}
    (h : ∀ r, s.tank k = some r → (f r).place = r.place) : Placed s (s.modTankNoticed k f) := by
  refine ⟨s.modTankNoticed_lines k f,
    LineupsKept.of_same (fun l => by simp) (fun j => ?_) (fun l => by simp) (fun l => by simp)⟩
  rw [State.modTankNoticed_tank]
  split
  · next e =>
    subst e
    cases hr : s.tank j with
    | none => rfl
    | some r => exact congrArg some (h r hr)
  · rfl

theorem State.modTank_placed (s : State) (k : TankId) {f : Tank → Tank} (h : ∀ r, (f r).place = r.place) :
    Placed s (s.modTank k f) := by
  refine ⟨⟨fun l => by simp, fun l => by simp [State.Quiet]⟩,
    LineupsKept.of_same (fun l => by simp) (fun j => ?_) (fun l => by simp) fun l => by simp⟩
  rw [State.modTank_tank]
  split
  · next e =>
    subst e
    cases s.tank j with
    | none => rfl
    | some r => exact congrArg some (h r)
  · rfl

end Sys2Proof.Machine
end

section
/-! SUPPORT. The operations of one line keep the rules on rest and quiet (R15, R39, R69). -/

namespace Sys2Proof.Machine

/-! ### target_eff, takeover and what the line is told -/

theorem State.setTarget_drive (s : State) (l k : LineId) (t : Option (Nat × Governing)) :
    (s.setTarget l t).drive k = s.drive k := by
  rw [State.setTarget_whole]
  rfl

theorem State.setTarget_calm (s : State) (l : LineId) (t : Option (Nat × Governing))
    (calm : Calm (s.meas l) (s.rate l)) : Calm ((s.setTarget l t).meas l) ((s.setTarget l t).rate l) := by
  have meas : (s.setTarget l t).meas l = s.measAt l (t.map (·.1)) := State.meas_of_meass (by rw [State.setTarget_whole])
  have rate := State.rate_of_rates (t := s.setTarget l t) (l := l) (by rw [State.setTarget_whole])
  obtain ⟨-, -, -, surge, max⟩ := id calm
  rw [meas, rate, State.measAt]
  split
  · exact ⟨rfl, rfl, rfl, surge, max⟩
  · exact calm

theorem State.setTarget_placed (s : State) (l : LineId) (t : Option (Nat × Governing)) : Placed s (s.setTarget l t) :=
  (s.setTarget_soft l t).placed (by rw [State.setTarget_drive]; exact id) (s.setTarget_calm l t)

theorem State.formTarget_placed (s : State) (l : LineId) : Placed s (s.formTarget l) := by
  unfold State.formTarget
  split
  · exact s.setTarget_placed l _
  · exact .refl

theorem State.takeOver_placed (s : State) (l : LineId) (why : TakeoverReason) : Placed s (s.takeOver l why) :=
  (s.modRate_placed l fun ⟨steady, inRun, outRun, _, _⟩ => ⟨steady, inRun, outRun, rfl, rfl⟩).notify _

theorem State.judgeTakeover_placed (s : State) (l : LineId) : Placed s (s.judgeTakeover l) := by
  unfold State.judgeTakeover
  split
  · split
    · exact s.takeOver_placed l _
    · exact .refl
  · exact .refl

theorem State.reportTopping_placed (s : State) (l : LineId) (entered : Bool) : Placed s (s.reportTopping l entered) := by
  have told : Placed s ((s.modRate l fun r => { r with throttle := decide (0 < s.countIn l .topping) }).formTarget l) :=
    (s.modRate_placed l id).trans (State.formTarget_placed _ l)
  unfold State.reportTopping State.tellTopping
  simp only []
  split
  · exact told.trans (State.takeOver_placed _ l _)
  · exact told

theorem State.dropHold_placed (s : State) (l : LineId) (c : HoldCause) : Placed s (s.dropHold l c) :=
  s.modSeq_placed l rfl rfl

theorem State.clearPermit_placed (s : State) (l : LineId) : Placed s (s.clearPermit l) := s.modSeq_placed l rfl rfl

theorem State.reportLeftFull_placed (s : State) (l : LineId) : Placed s (s.reportLeftFull l) := by
  unfold State.reportLeftFull
  split
  · exact s.dropHold_placed l _
  · exact .refl

theorem State.tellDeparture_placed (s : State) (l : LineId) (was : TankState) : Placed s (s.tellDeparture l was) := by
  cases was
  case topping => exact s.reportTopping_placed l false
  case full => exact s.reportLeftFull_placed l
  all_goals exact .refl

/-! ### Hold causes -/

/-- R14, R69: a line that is quiet has left DELIVERING calm. -/
theorem State.leaveDelivering_calm (s : State) (l : LineId) (quiet : s.Quiet l) :
    Calm ((s.leaveDelivering l).meas l) ((s.leaveDelivering l).rate l) := by
  obtain ⟨-, meas, rate⟩ := s.leaveDelivering_line l
  rw [meas, rate]
  split
  · exact ⟨rfl, rfl, rfl, rfl, rfl⟩
  · next out => exact quiet out

/-- R48, R53: a line that closes on its profile, from the state it has left DELIVERING in. -/
theorem State.closing_placed {s t : State} {l : LineId} (own : Own l s t) (state : (t.seq l).state ∈ [.holding, .finishing])
    (grade : (t.seq l).grade = (s.seq l).grade) (meas : t.meas l = (s.leaveDelivering l).meas l)
    (surge : (t.rate l).surgeRun = ((s.leaveDelivering l).rate l).surgeRun)
    (max : (t.rate l).maxRun = ((s.leaveDelivering l).rate l).maxRun) : Placed s t := by
  simp only [List.mem_cons, List.not_mem_nil, or_false] at state
  refine own.placed grade (fun out => ?_) (fun _ => Restful.of_moving ?_) fun quiet _ => ?_
  · rcases state with e | e <;> rw [e] at out <;> cases out
  · rcases state with e | e <;> rw [e] <;> decide
  · unfold Calm
    rw [meas, surge, max]
    exact s.leaveDelivering_calm l quiet

theorem State.addHold_placed (s : State) (l : LineId) (c : HoldCause) : Placed s (s.addHold l c) := by
  by_cases joins : (s.seq l).state.takesHold = true ∧ c ∉ (s.seq l).holds
  · by_cases moving : (s.seq l).state.moving = true
    · have e := State.addHold_of_moving moving joins.2
      have left := s.leaveDelivering_soft l
      refine State.closing_placed (s.addHold_own l c) ?_ ?_ ?_ ?_ ?_
      all_goals rw [e]
      · simp [State.closeOnProfile]
      · simp [State.closeOnProfile, left.seq]
      all_goals simp [State.closeOnProfile]
    · rw [State.addHold_of_paused joins.1 (by simpa using moving) joins.2]
      exact s.modSeq_placed l rfl rfl
  · rw [not_and_or, not_not, Bool.not_eq_true] at joins
    rw [State.addHold_eq_self joins]
    exact .refl

theorem State.reportOutlets_placed (s : State) (l : LineId) (n : Nat) : Placed s (s.reportOutlets l n) := by
  unfold State.reportOutlets
  split
  · exact s.addHold_placed l _
  · exact .refl

/-! ### Trip causes -/

/-- R55, R56: a line that a cause takes into TRIPPING rests and is quiet; one that is TRIPPING or TRIPPED gains the cause. -/
theorem State.addTrip_placed (s : State) (l : LineId) (c : TripCause) : Placed s (s.addTrip l c) := by
  by_cases out : (s.seq l).state = .disconnected ∨ c ∈ (s.seq l).trips
  · rw [State.addTrip_eq_self s l c out]
    exact .refl
  · obtain ⟨connected, new⟩ := not_or.mp out
    by_cases trips : (s.seq l).state.trips = true
    · have seq : ((s.addTrip l c).seq l).state = .tripping ∧ ((s.addTrip l c).seq l).grade = (s.seq l).grade := by
        rw [State.addTrip_seq]
        simp [connected, new, trips]
      obtain ⟨drive, rate, meas⟩ := s.addTrip_line l c trips new
      refine (s.addTrip_own l c).placed seq.2 (fun e => ?_) (fun _ => ?_) fun quiet _ => ?_
      · rw [seq.1] at e
        cases e
      · rw [drive]
        exact Restful.of_zero rfl rfl
      · rw [rate, meas]
        by_cases st : (s.seq l).state = .delivering
        · rw [if_pos st, st]
          exact ⟨rfl, rfl, rfl, rfl, rfl⟩
        · obtain ⟨steady, inRun, outRun, surge, max⟩ := quiet st
          rw [if_neg st]
          refine ⟨steady, inRun, outRun, ?_, ?_⟩
          all_goals simpa [trippedRate, st]
    · have joined : s.addTrip l c = s.joinTrip l c := by
        rw [s.addTrip_eq_joined l c connected new, if_neg trips]
      rw [joined]
      exact (s.modSeq_placed l rfl rfl).raise _ _

/-! ### Entries to the line states -/

/-- A line calm outside DELIVERING enters a state in which its valve may move (R45, R46). -/
theorem Own.placed_of_moving {l : LineId} {s t : State} (own : Own l s t) (grade : (t.seq l).grade = (s.seq l).grade)
    (state : (t.seq l).state ∈ [.opening, .delivering, .holding, .finishing]) (quiet : s.Quiet l → t.Quiet l) : Placed s t := by
  refine own.placed grade (fun out => ?_) (fun _ => Restful.of_moving state) quiet
  rw [out] at state
  simp at state

theorem State.enterOpening_placed (s : State) (l : LineId) (out : (s.seq l).state ≠ .delivering) :
    Placed s (s.enterOpening l) := by
  have entered : ∀ k, ((s.enterOpening l).seq k) =
      (s.modSeq l fun q => { q with state := .opening, holds := setErase .operator q.holds }).seq k := by
    intro k
    unfold State.enterOpening
    simp only []
    split <;> simp [(State.formTarget_soft _ l).seq]
  have formed (quiet : s.Quiet l) := (State.formTarget_placed (s.modSeq l fun q =>
    { q with state := .opening, holds := setErase .operator q.holds }) l).lines.quiet l (fun _ => by simpa using quiet out)
  refine (s.enterOpening_own l).placed_of_moving ?_ ?_ fun quiet _ => ?_
  · simp [entered]
  · simp [entered]
  · have calm := formed quiet (by simp [(State.formTarget_soft _ l).seq])
    unfold State.enterOpening
    simp only []
    split
    · simpa using calm
    · exact calm

theorem State.enterDelivering_placed (s : State) (l : LineId) : Placed s (s.enterDelivering l) := by
  have state : ((s.enterDelivering l).seq l).state = .delivering := by simp [State.enterDelivering]
  refine (s.enterDelivering_own l).placed_of_moving (by simp [State.enterDelivering]) (by simp [state]) fun _ out => ?_
  exact absurd state out

/-- A line calm outside DELIVERING enters a state in which its valve rests (R39, R50, R54, R57). -/
theorem Own.placed_of_rest {l : LineId} {s t : State} (own : Own l s t) (out : (s.seq l).state ≠ .delivering)
    (grade : (t.seq l).grade = (s.seq l).grade) (connected : (t.seq l).state ≠ .disconnected)
    (setpoint : (t.drive l).setpoint = 0) (ramp : (t.drive l).ramp = none)
    (calm : Calm (s.meas l) (s.rate l) → Calm (t.meas l) (t.rate l)) : Placed s t :=
  own.placed grade (fun e => absurd e connected) (fun _ => Restful.of_zero setpoint ramp) fun quiet _ => calm (quiet out)

theorem State.enterHeld_placed (s : State) (l : LineId) (out : (s.seq l).state ≠ .delivering) : Placed s (s.enterHeld l) := by
  refine (s.enterHeld_own l).placed_of_rest out ?_ ?_ ?_ ?_ ?_
  all_goals simp [State.enterHeld, Drive.rest, Drive.trackFrom0]

theorem State.dropTarget_calm (s : State) (l : LineId) (calm : Calm (s.meas l) (s.rate l)) :
    Calm ((s.dropTarget l).meas l) ((s.dropTarget l).rate l) := s.setTarget_calm l none calm

theorem State.dropTarget_drive (s : State) (l k : LineId) : (s.dropTarget l).drive k = s.drive k := s.setTarget_drive l k none

theorem State.dropTarget_seq (s : State) (l k : LineId) : (s.dropTarget l).seq k = s.seq k := (s.dropTarget_soft l).seq k

theorem State.enterTripped_placed (s : State) (l : LineId) (out : (s.seq l).state ≠ .delivering) :
    Placed s (s.enterTripped l) := by
  refine (s.enterTripped_own l).placed_of_rest out ?_ ?_ ?_ ?_ fun calm => State.dropTarget_calm _ l (by simpa using calm)
  all_goals simp [State.enterTripped, State.dropTarget_seq, State.dropTarget_drive, Drive.rest, Drive.trackFrom0]

theorem State.enterConnected_placed (s : State) (l : LineId) (out : (s.seq l).state ≠ .delivering) :
    Placed s (s.enterConnected l) := by
  refine (s.enterConnected_own l).placed_of_rest out ?_ ?_ ?_ ?_ fun calm => ?_
  case refine_5 =>
    have dropped := State.dropTarget_calm ((s.modSeq l fun q => { q with state := .connected, holds := [] }).modDrive l
      fun d => d.rest.trackFrom0) l (by simpa using calm)
    simpa [State.enterConnected, Calm] using dropped
  all_goals simp [State.enterConnected, State.dropTarget_seq, State.dropTarget_drive, Drive.rest, Drive.trackFrom0]

/-! ### Stroke tests -/

/-- R43: a stroke test that ends with the valve at rest returns its line to CONNECTED. -/
theorem State.strokeToConnected_placed {s t : State} {l : LineId} (test : Soft l s t) (stroking : (s.seq l).state = .stroking)
    (zero : Restful (s.seq l).state (s.drive l) → (t.drive l).setpoint = 0 ∧ (t.drive l).ramp = none)
    (meas : t.meas l = s.meas l) (rate : t.rate l = s.rate l) : Placed s (t.strokeToConnected l) := by
  have own : Own l s (t.strokeToConnected l) := test.own.trans (t.strokeToConnected_own l)
  have seq : ((t.strokeToConnected l).seq l).state = .connected ∧ ((t.strokeToConnected l).seq l).grade = (s.seq l).grade := by
    simp [State.strokeToConnected, State.dropTarget_seq, test.seq]
  have drive : (t.strokeToConnected l).drive l = (t.drive l).trackFrom0 := by
    simp [State.strokeToConnected, State.dropTarget_drive]
  refine own.placed seq.2 (fun e => ?_) (fun rest => ?_) fun quiet _ => ?_
  · rw [seq.1] at e
    cases e
  · rw [drive]
    exact Restful.of_zero (zero rest).1 (zero rest).2
  · have calm := quiet (by rw [stroking]; decide)
    rw [← meas, ← rate] at calm
    have dropped := State.dropTarget_calm ((t.modSeq l fun q => { q with state := .connected, holds := [] }).modDrive l
      Drive.trackFrom0) l (by simpa using calm)
    simpa [State.strokeToConnected, Calm] using dropped

theorem State.failStroke_placed (s : State) (l : LineId) (why : StrokeFailure) (stroking : (s.seq l).state = .stroking) :
    Placed s (s.failStroke l why) := by
  refine State.strokeToConnected_placed (((Soft.refl.drive _ rfl).notify _).raise _ _) stroking (fun _ => ?_) ?_ ?_
  all_goals simp [Drive.adjust]

/-- R32: a test judged at the end of CLOSE_MOVE, in which the valve rests. -/
theorem State.judgeStroke_placed (s : State) (l : LineId) (n : Nat) (stroking : (s.seq l).state = .stroking)
    (closing : (s.drive l).stage = some .closeMove) : Placed s (s.judgeStroke l n) := by
  have test : Soft l s (s.modDrive l fun d => { d with stage := some .done }) := Soft.refl.drive _ rfl
  unfold State.judgeStroke
  simp only []
  split
  · refine State.strokeToConnected_placed (test.trans (((Soft.refl.drive _ rfl).notify _).gone _ _)) stroking (fun rest => ?_)
      ?_ ?_
    · simpa [Drive.endStroke] using rest (.inr ⟨stroking, closing⟩)
    all_goals simp
  · refine (test.placed (fun _ => ?_) (by simp)).trans (State.failStroke_placed _ l _ stroking)
    rw [stroking]
    exact Restful.of_stage (by simp)

theorem State.judgeOpenTimeout_placed (s : State) (l : LineId) : Placed s (s.judgeOpenTimeout l) := by
  unfold State.judgeOpenTimeout
  simp only []
  split
  · next due => exact s.failStroke_placed l _ due.1
  · exact .refl

theorem State.judgeCloseTimeout_placed (s : State) (l : LineId) : Placed s (s.judgeCloseTimeout l) := by
  unfold State.judgeCloseTimeout
  simp only []
  split
  · next due => exact s.failStroke_placed l _ due.1
  · exact .refl

/-- R31: SETTLE ends with the valve ordered to 0. -/
theorem State.judgeSettleEnd_placed (s : State) (l : LineId) : Placed s (s.judgeSettleEnd l) := by
  have settled := s.judgeSettleEnd_soft l
  unfold State.judgeSettleEnd at settled ⊢
  simp only [] at settled ⊢
  split at settled
  · next due =>
    rw [if_pos due]
    refine settled.placed (fun _ => Restful.of_zero ?_ ?_) ?_
    all_goals simp [Drive.adjust]
  · next due =>
    rw [if_neg due]
    exact .refl

theorem Drive.strokeTimerStep_view (pos : Option Nat) (d : Drive) :
    (d.strokeTimerStep pos).setpoint = d.setpoint ∧ (d.strokeTimerStep pos).ramp = d.ramp
      ∧ (d.strokeTimerStep pos).stage = d.stage := by
  unfold Drive.strokeTimerStep
  split <;> (try split) <;> exact ⟨rfl, rfl, rfl⟩

theorem State.strokeStep_placed (s : State) (l : LineId) (pos : Option Nat) (stroking : (s.seq l).state = .stroking) :
    Placed s (s.strokeStep l pos) := by
  have staged : Placed s (s.modDrive l Drive.stageStep) := s.modDrive_placed l rfl rfl rfl
  unfold State.strokeStep
  split
  · simp only []
    split
    · refine staged.trans ((Soft.refl.drive _ rfl : Soft l _ _).placed (fun _ => ?_) ?_)
      · rw [State.modDrive_seq, stroking]
        exact Restful.of_stage (by simp)
      · simp
    · exact staged.trans (State.judgeOpenTimeout_placed _ l)
  · exact staged.trans (State.judgeSettleEnd_placed _ l)
  · next closing =>
    obtain ⟨setpoint, ramp, stage⟩ := Drive.strokeTimerStep_view pos (s.drive l).stageStep
    have timed : Placed s (s.modDrive l fun d => d.stageStep.strokeTimerStep pos) := s.modDrive_placed l setpoint ramp stage
    simp only []
    split
    · split
      · refine timed.trans (State.judgeStroke_placed _ l _ stroking ?_)
        simpa using stage.trans closing
      · exact timed.trans (State.judgeCloseTimeout_placed _ l)
    · exact timed.trans (State.judgeCloseTimeout_placed _ l)
  · exact .refl
  · exact .refl

/-! ### The tracking check -/

theorem State.failTracking_placed (s : State) (l : LineId) : Placed s (s.failTracking l) := by
  have reset : Placed s (s.modDrive l Drive.trackFrom0) := s.modDrive_placed l rfl rfl rfl
  unfold State.failTracking
  simp only []
  split
  iterate 4 exact reset.trans (State.addTrip_placed _ l _)
  · next tripping =>
    refine (reset.trans (State.addTrip_placed _ l _)).trans (State.enterTripped_placed _ l ?_)
    rw [State.addTrip_seq]
    split <;> simp [tripping, LineState.trips]
  · next stroking => exact reset.trans (State.failStroke_placed _ l _ stroking)
  all_goals exact reset

theorem State.judgeTracking_placed (s : State) (l : LineId) : Placed s (s.judgeTracking l) := by
  unfold State.judgeTracking
  split
  · exact s.failTracking_placed l
  · exact .refl

end Sys2Proof.Machine
end

section
/-! SUPPORT. The tank watch keeps the rules on lineups (R82, R86 to R97). -/

namespace Sys2Proof.Machine

/-! ### Records that stay lined up -/

theorem State.deviceTrip_placed (s : State) (d : DeviceTrip) : Placed s (s.deviceTrip d) := (s.deviceTrip_free d trivial).placed

theorem State.queueAdvice_placed (s : State) (k : TankId) (a : AdviceKind) : Placed s (s.queueAdvice k a) :=
  (s.queueAdvice_free k a trivial).placed

theorem State.judgeStale_placed (s : State) (k : TankId) : Placed s (s.judgeStale k) :=
  s.modTankNoticed_placed k fun _ _ => rfl

theorem State.clearRing_placed (s : State) (k : TankId) : Placed s (s.clearRing k) := s.modTank_placed k fun _ => rfl

theorem State.clearRings_placed (s : State) (l : LineId) : Placed s (s.clearRings l) :=
  Placed.foldl (fun t k => t.clearRing_placed k) _ s

/-- The record of a tank is watched exactly when the state `st` is. -/
def State.AsWatched (s : State) (k : TankId) (st : TankState) : Prop :=
  ∀ r, s.tank k = some r → r.state.watched = st.watched

theorem State.moveTank_placed {s : State} {k : TankId} {st : TankState} (h : s.AsWatched k st) : Placed s (s.moveTank k st) := by
  have moved : Placed s (s.modTankNoticed k (Tank.moved st s.clock)) :=
    s.modTankNoticed_placed k fun r hr => Tank.place_eq rfl (h r hr).symm rfl
  unfold State.moveTank
  simp only []
  split
  · exact moved.gone _ _
  · exact moved

theorem State.shiftTank_lines (s : State) (k : TankId) (st : TankState) : LinesPlaced s (s.shiftTank k st) := by
  have moved : LinesPlaced s (s.moveTank k st) := by
    have written := s.modTankNoticed_lines k (Tank.moved st s.clock)
    unfold State.moveTank
    simp only []
    split
    · exact written.trans (Placed.refl.gone _ _).lines
    · exact written
  unfold State.shiftTank
  split
  · exact .refl
  · simp only []
    split
    · split
      · exact moved
      · exact moved.trans (State.tellDeparture_placed _ _ _).lines
    · exact moved

theorem State.shiftTank_placed {s : State} {k : TankId} {st : TankState} (h : s.AsWatched k st) :
    Placed s (s.shiftTank k st) := by
  have moved := State.moveTank_placed h
  unfold State.shiftTank
  split
  · exact .refl
  · simp only []
    split
    · split
      · exact moved
      · exact moved.trans (State.tellDeparture_placed _ _ _)
    · exact moved

theorem State.startFilling_placed {s : State} {k : TankId} (h : s.AsWatched k .filling) : Placed s (s.startFilling k) := by
  unfold State.startFilling
  simp only []
  split
  · exact (State.shiftTank_placed h).trans (State.dropHold_placed _ _ _)
  · exact State.shiftTank_placed h

/-! ### Evaluation -/

theorem State.AsWatched.of_record {s : State} {k : TankId} {st : TankState} {r : Tank} (hr : s.tank k = some r)
    (h : r.state.watched = st.watched) : s.AsWatched k st := fun r' hr' => by
  rw [hr] at hr'
  exact Option.some.inj hr' ▸ h

theorem State.enterFull_placed {s : State} {k : TankId} (l : LineId) (h : s.AsWatched k .full) : Placed s (s.enterFull k l) :=
  ((State.shiftTank_placed h).trans (State.addHold_placed _ l _)).trans (State.queueAdvice_placed _ k _)

theorem State.enterTopping_placed {s : State} {k : TankId} (l : LineId) (h : s.AsWatched k .topping) :
    Placed s (s.enterTopping k l) :=
  ((State.moveTank_placed h).trans (State.reportTopping_placed _ l true)).trans (State.queueAdvice_placed _ k _)

/-- R106: the margin moves watched tanks among the watched states. -/
theorem State.actOn_placed {s : State} {k : TankId} {r x : Tank} (l : LineId) (e : Results) (hx : s.tank k = some x)
    (state : x.state = r.state) : Placed s (s.actOn k l r e) := by
  unfold State.actOn
  split
  · exact s.addTrip_placed l _
  · split
    · next full =>
      refine State.enterFull_placed l (.of_record hx ?_)
      rw [state]
      rcases full.2 with h | h | h <;> rw [h] <;> rfl
    · split
      · split
        · next topping =>
          refine State.enterTopping_placed l (.of_record hx ?_)
          rw [state, topping.2]
          rfl
        · exact .refl
      · exact .refl

theorem State.evaluate_placed (s : State) (k : TankId) : Placed s (s.evaluate k) := by
  unfold State.evaluate
  split
  · exact .refl
  · next r hr =>
    split
    · next l v _ _ =>
      split
      · have written : Placed s ((s.judgeStale k).modTank k fun x => { x with results := some (s.evaluation l r v) }) :=
          (s.judgeStale_placed k).trans (State.modTank_placed _ k fun _ => rfl)
        have acted := written.trans (State.actOn_placed (k := k) (r := r) l (s.evaluation l r v)
          (x := { r with stale := r.isStale s.clock s.staleLimit, results := some (s.evaluation l r v) })
          (by simp [State.judgeStale, hr]) rfl)
        simp only []
        split
        · exact acted.trans (State.addHold_placed _ l _)
        · exact acted
      · exact .refl
    · exact .refl

theorem State.lineSampled_placed (s : State) (l : LineId) : Placed s (s.lineSampled l) :=
  Placed.foldl (fun t k => (t.judgeStale_placed k).trans (State.evaluate_placed _ k)) _ s

/-! ### Tanks that leave their lineup -/

theorem State.leaveLineup_lineup (s : State) (k : TankId) (l : LineId) :
    (s.leaveLineup k).lineup l = if s.tankLine k = some l then setErase k (s.lineup l) else s.lineup l := by
  unfold State.leaveLineup
  split
  · next none => simp [none]
  · next j line =>
    rw [line]
    by_cases e : l = j
    · subst e; simp
    · simp [e, Ne.symm e]

/-- Writes that leave the lines alone and take one tank off its lineup, or leave it off. -/
theorem Placed.off {s t : State} {k : TankId} (seqs : t.seqs = s.seqs) (rates : t.rates = s.rates) (meass : t.meass = s.meass)
    (drives : t.drives = s.drives)
    (lineup : ∀ l, t.lineup l = if s.tankLine k = some l then setErase k (s.lineup l) else s.lineup l)
    (others : ∀ j, j ≠ k → t.tank j = s.tank j) (own : ∀ r, t.tank k = some r → r.line = none ∧ r.state.watched = false) :
    Placed s t :=
  ⟨.of_same seqs rates meass drives, LineupsKept.off lineup others own fun l => congrArg (vget · l) seqs⟩

theorem State.tankState_moveTank (s : State) (k : TankId) (st : TankState) :
    (s.moveTank k st).tankState k = (s.tank k).map fun _ => st := by
  unfold State.moveTank State.tankState
  simp only []
  split <;> simp [Function.comp_def, Tank.moved]

theorem State.tankState_leaveLineup (s : State) (k : TankId) : (s.leaveLineup k).tankState k = s.tankState k := by
  unfold State.leaveLineup State.tankState
  split <;> simp [Function.comp_def]

/-- R82: the record of a tank that has left its lineup in the state `st`. -/
theorem State.left_record {s : State} {k : TankId} {st : TankState} {r : Tank}
    (h : ((s.moveTank k st).leaveLineup k).tank k = some r) : r.line = none ∧ r.state = st := by
  have line := (s.moveTank k st).tankLine_leaveLineup k
  have state := (s.moveTank k st).tankState_leaveLineup k
  rw [State.tankState_moveTank, State.tankState, h, eq_comm] at state
  rw [State.tankLine, h] at line
  obtain ⟨_, -, e⟩ := Option.map_eq_some_iff.mp state
  exact ⟨line, e.symm⟩

/-- R82: a tank that takes a state in which it is not watched leaves its lineup. -/
theorem State.leave_placed (s : State) (k : TankId) {st : TankState} (out : st.watched = false) :
    Placed s ((s.moveTank k st).leaveLineup k) := by
  have moved : Free { Scope.aside with tanks := (· = k) } s (s.moveTank k st) := s.moveTank_free k st rfl
  refine Placed.off (k := k) ?_ ?_ ?_ ?_ (fun l => ?_) (fun j other => ?_) fun r hr => ?_
  iterate 4
    unfold State.leaveLineup State.moveTank
    simp only []
    split <;> split <;> simp
  · rw [State.leaveLineup_lineup, State.tankLine_moveTank, (moved.line_eq not_false).2.2.2.2]
  · have kept : ((s.moveTank k st).leaveLineup k).tank j = (s.moveTank k st).tank j := by
      unfold State.leaveLineup
      split <;> simp [other]
    rw [kept]
    exact moved.tank_eq other
  · obtain ⟨line, state⟩ := State.left_record hr
    exact ⟨line, state ▸ out⟩

/-- A record that names no line and is not watched. -/
def State.Unlined (s : State) (k : TankId) : Prop := ∀ r, s.tank k = some r → r.line = none ∧ r.state.watched = false

theorem State.Unlined.tankLine {s : State} {k : TankId} (h : s.Unlined k) : s.tankLine k = none := by
  cases hr : s.tank k with
  | none => simp [State.tankLine, hr]
  | some r => simpa [State.tankLine, hr] using (h r hr).1

/-- In sound lineups a record that is not watched names no line. -/
theorem LineupsSound.unlined {s : State} (sound : LineupsSound s) {k : TankId} {r : Tank} (hr : s.tank k = some r)
    (out : r.state.watched = false) : s.Unlined k := fun r' hr' => by
  rw [hr] at hr'
  obtain rfl := Option.some.inj hr'
  have named := sound.2.1 k r hr
  rw [out, Option.isSome_eq_false_iff, Option.isNone_iff_eq_none] at named
  exact ⟨named, out⟩

/-- A write of one record that names no line before and after it, in sound lineups. -/
theorem Placed.rewrite {s t : State} {k : TankId} (seqs : t.seqs = s.seqs) (rates : t.rates = s.rates)
    (meass : t.meass = s.meass) (drives : t.drives = s.drives) (lineups : t.lineups = s.lineups)
    (others : ∀ j, j ≠ k → t.tank j = s.tank j) (before : LineupsSound s → s.Unlined k)
    (after : LineupsSound s → t.Unlined k) : Placed s t := by
  refine ⟨.of_same seqs rates meass drives, fun sound => ?_⟩
  refine LineupsKept.off (k := k) (fun l => ?_) others (after sound) (fun l => congrArg (vget · l) seqs) sound
  rw [(before sound).tankLine, if_neg nofun, State.lineup, lineups]
  rfl

theorem State.removeTank_placed {s : State} {k : TankId} (h : LineupsSound s → s.Unlined k) : Placed s (s.removeTank k) := by
  refine Placed.rewrite (k := k) ?_ ?_ ?_ ?_ ?_ (fun j other => ?_) h fun _ r hr => ?_
  iterate 5 simp [State.removeTank, State.forgetTank]
  · simp [State.removeTank, State.forgetTank, other]
  · simp [State.removeTank, State.forgetTank] at hr

/-- R84: an entry's fields are written into a record that is not watched. -/
theorem State.withEntry_placed {s : State} {k : TankId} (e : DirEntry) (h : LineupsSound s → s.Unlined k) :
    Placed s (s.modTankNoticed k (Tank.withEntry e)) := by
  refine Placed.rewrite (k := k) ?_ ?_ ?_ ?_ ?_ (fun j other => ?_) h fun sound r hr => ?_
  iterate 5 simp
  · simp [other]
  · rw [State.modTankNoticed_tank, if_pos rfl] at hr
    obtain ⟨r', hr', rfl⟩ := Option.map_eq_some_iff.mp hr
    exact h sound r' hr'

theorem State.applyPending_placed {s : State} {k : TankId} (h : LineupsSound s → s.Unlined k) :
    Placed s (s.applyPending k) := by
  unfold State.applyPending
  split
  · exact .refl
  · exact State.removeTank_placed h
  · exact State.withEntry_placed _ h

/-- R86: a tank becomes LISTED. -/
theorem State.listTank_placed (s : State) (k : TankId) (topped : Bool) : Placed s (s.listTank k topped) := by
  have listed : Placed s (((s.moveTank k .listed).leaveLineup k).modTankNoticed k fun x =>
      { x with topped := x.topped || topped }) :=
    (s.leave_placed k rfl).trans (State.modTankNoticed_placed _ k fun _ _ => rfl)
  have unlined : State.Unlined (((s.moveTank k .listed).leaveLineup k).modTankNoticed k fun x =>
      { x with topped := x.topped || topped }) k := by
    intro r hr
    rw [State.modTankNoticed_tank, if_pos rfl] at hr
    obtain ⟨r', hr', rfl⟩ := Option.map_eq_some_iff.mp hr
    obtain ⟨line, state⟩ := State.left_record hr'
    exact ⟨line, by rw [state]; rfl⟩
  unfold State.listTank
  split
  · exact .refl
  · simp only []
    split
    · refine (listed.trans (State.tellDeparture_placed _ _ _)).trans (State.applyPending_placed fun _ r hr => ?_)
      rw [(State.tellDeparture_own _ _ _).tank] at hr
      exact unlined r hr
    · exact listed.trans (State.applyPending_placed fun _ => unlined)

/-- R107: a tank enters OVERFILL. -/
theorem State.enterOverfill_placed (s : State) (k : TankId) : Placed s (s.enterOverfill k) := by
  have left : Placed s ((((s.moveTank k .overfill).leaveLineup k).clearRing k).modTankNoticed k fun x =>
      { x with stale := false }) :=
    ((s.leave_placed k rfl).trans (State.clearRing_placed _ k)).trans (State.modTankNoticed_placed _ k fun _ _ => rfl)
  unfold State.enterOverfill
  split
  · exact .refl
  · simp only []
    split
    · exact (((left.trans (State.tellDeparture_placed _ _ _)).trans (State.reportOutlets_placed _ _ _)).trans
        (State.deviceTrip_placed _ _)).trans (State.queueAdvice_placed _ _ _)
    · exact (left.trans (State.deviceTrip_placed _ _)).trans (State.queueAdvice_placed _ _ _)

/-! ### Level reports -/

theorem Tank.estimate_place (steady : Bool) (epoch w v m : Nat) (r : Tank) : (r.estimate steady epoch w v m).place = r.place := by
  unfold Tank.estimate
  (repeat' split) <;> rfl

theorem State.estimate_placed (s : State) (k : TankId) : Placed s (s.estimate k) := by
  unfold State.estimate
  split
  · exact .refl
  · split
    · exact s.modTank_placed k fun r => r.estimate_place _ _ _ _ _
    · exact s.modTank_placed k fun _ => rfl

theorem State.takeReport_placed (s : State) (p : LevelReport) (m : Nat) : Placed s (s.takeReport p m) :=
  s.modTankNoticed_placed _ fun r _ => by
    unfold Tank.reported
    simp only []
    split <;> rfl

theorem State.reportTransition_placed (s : State) (k : TankId) (v : ValveWord) : Placed s (s.reportTransition k v) := by
  unfold State.reportTransition
  split
  · exact .refl
  · next r hr =>
    split
    · split
      · next assigned => exact State.startFilling_placed (.of_record hr (by rw [assigned.1]; rfl))
      · exact .refl
    · have cleared := s.clearRing_placed k
      have record : (s.clearRing k).tank k = some { r with ring := [], anchor := none } := by simp [State.clearRing, hr]
      simp only []
      split
      iterate 2 next st => exact cleared.trans (State.shiftTank_placed (.of_record record (by rw [st]; rfl)))
      iterate 2 exact cleared.trans (State.listTank_placed _ k _)
      all_goals exact cleared

theorem State.afterReport_placed (s : State) (p : LevelReport) (line : Option LineId) (n : Nat) :
    Placed s (s.afterReport p line n) := by
  have rest : ∀ u, Placed s u → Placed s (match u.tank p.tank with
      | none => u
      | some r => if r.overfills then u.enterOverfill p.tank else (if p.fault then u else u.estimate p.tank).evaluate p.tank) := by
    intro u moved
    split
    · exact moved
    · split
      · exact moved.trans (u.enterOverfill_placed _)
      · split
        · exact moved.trans (u.evaluate_placed _)
        · exact (moved.trans (u.estimate_placed _)).trans (State.evaluate_placed _ _)
  have moved := s.reportTransition_placed p.tank p.valve
  cases line with
  | none => exact rest _ moved
  | some l => exact rest _ (moved.trans (State.reportOutlets_placed _ l n))

theorem State.levelReport_placed (s : State) (p : LevelReport) : Placed s (s.levelReport p) := by
  unfold State.levelReport
  split
  · exact .refl
  · simp only []
    split
    · exact .refl
    · exact (s.takeReport_placed p _).trans (State.afterReport_placed _ p _ _)

/-! ### Events from the lines -/

/-- Tanks handled one after another, each `Ready` as the handling of the others leaves it. -/
theorem Placed.foldl_tanks {f : State → TankId → State} {Ready : State → TankId → Prop} {s : State} {ks : List TankId}
    (lines : ∀ t k, LinesPlaced t (f t k)) (step : ∀ t k, Ready t k → Placed t (f t k))
    (others : ∀ t k j, j ≠ k → Ready t j → Ready (f t k) j)
    (ready : LineupsSound s → ks.Nodup ∧ ∀ k ∈ ks, Ready s k) : Placed s (ks.foldl f s) := by
  by_cases sound : LineupsSound s
  · replace ready := ready sound
    clear sound
    obtain ⟨distinct, ready⟩ := ready
    induction ks generalizing s with
    | nil => exact .refl
    | cons k ks ih =>
      obtain ⟨new, distinct⟩ := List.nodup_cons.mp distinct
      refine (step s k (ready k (List.mem_cons_self ..))).trans (ih distinct fun j hj => ?_)
      exact others s k j (fun e => new (e ▸ hj)) (ready j (List.mem_cons_of_mem _ hj))
  · refine ⟨?_, fun h => absurd h sound⟩
    clear sound ready
    induction ks generalizing s with
    | nil => exact .refl
    | cons k ks ih => exact (lines s k).trans ih

/-- A tank is watched: it stands in a lineup. -/
theorem LineupsSound.asWatched {s : State} (sound : LineupsSound s) {l : LineId} {k : TankId} (hk : k ∈ s.lineup l) :
    s.AsWatched k .releasing := fun r hr => by
  obtain ⟨r', hr', line⟩ := sound.record hk
  rw [hr] at hr'
  rw [← sound.2.1 k r hr, Option.some.inj hr', line]
  rfl

theorem State.AsWatched.congr {s t : State} {k : TankId} {st : TankState} (h : s.AsWatched k st) (same : t.tank k = s.tank k) :
    t.AsWatched k st := fun r hr => h r (same ▸ hr)

theorem State.finishTank_placed {s : State} {k : TankId} (h : s.AsWatched k .releasing) : Placed s (s.finishTank k) := by
  unfold State.finishTank
  split
  · exact s.listTank_placed k false
  · exact State.shiftTank_placed h

theorem State.finishTank_lines (s : State) (k : TankId) : LinesPlaced s (s.finishTank k) := by
  unfold State.finishTank
  split
  · exact (s.listTank_placed k false).lines
  · exact s.shiftTank_lines k _

/-- The scope of one tank, with all lines. -/
def Scope.tank (k : TankId) : Scope := { lines := fun _ => True, tanks := (· = k), link := True, trip := True }

theorem State.lineFinished_placed (s : State) (l : LineId) : Placed s (s.lineFinished l) := by
  refine Placed.foldl_tanks (Ready := fun t k => t.AsWatched k .releasing) State.finishTank_lines
    (fun t k => State.finishTank_placed) (fun t k j other h => h.congr ?_) fun sound => ⟨sound.2.2 l, fun k hk => sound.asWatched hk⟩
  exact (t.finishTank_free (c := Scope.tank k) k rfl trivial fun _ _ => trivial).tank_eq other

theorem State.lineDisconnected_placed (s : State) (l : LineId) : Placed s (s.lineDisconnected l) :=
  Placed.foldl (fun t k => t.listTank_placed k false) _ s

theorem State.finishLine_placed (s : State) (l : LineId) (out : (s.seq l).state ≠ .delivering) : Placed s (s.finishLine l) :=
  (s.enterConnected_placed l out).trans (State.lineFinished_placed _ l)

theorem State.expireChange_placed (s : State) (k : TankId) : Placed s (s.expireChange k) := by
  unfold State.expireChange
  split
  · split
    · exact ((s.modTank_placed k (by exact fun _ => rfl)).notify _).raise _ _
    · exact .refl
  · exact .refl

theorem State.judgeChange_placed (s : State) (k : TankId) : Placed s (s.judgeChange k) := by
  unfold State.judgeChange
  split
  · split
    · exact s.expireChange_placed k
    · exact .refl
  · exact .refl

/-! ### The directory -/

/-- R83: an entry creates a record that names no line. -/
theorem State.createTank_placed {s : State} {k : TankId} (e : DirEntry) (h : s.tank k = none) :
    Placed s (s.setTank k (some (Tank.created e))) := by
  refine Placed.rewrite (k := k) rfl rfl rfl rfl rfl (fun j other => by simp [other]) (fun _ r hr => ?_) fun _ r hr => ?_
  · rw [h] at hr
    cases hr
  · rw [State.setTank_tank, if_pos rfl] at hr
    obtain rfl := Option.some.inj hr
    exact ⟨rfl, rfl⟩

theorem Tank.watched_of_heldBack {r : Tank} (h : ¬r.heldBack = true) : r.state.watched = false := by
  simp only [Tank.heldBack, Bool.or_eq_true, not_or, Bool.not_eq_true] at h
  exact h.1

theorem State.acceptEntry_placed (s : State) (k : TankId) (e : DirEntry) : Placed s (s.acceptEntry k e) := by
  unfold State.acceptEntry
  split
  · next new => exact ((State.createTank_placed e new).notify _).trans (State.joinPoll_free _ k trivial).placed
  · next r hr =>
    split
    · split
      · exact s.modTankNoticed_placed k fun _ _ => rfl
      · exact (s.modTankNoticed_placed k (by exact fun _ _ => rfl)).notify _
    · next free =>
      split
      · exact s.modTankNoticed_placed k fun _ _ => rfl
      · exact State.withEntry_placed e fun sound => sound.unlined hr (Tank.watched_of_heldBack free)

theorem State.rejectEntry_placed (s : State) (o : Option TankId) : Placed s (s.rejectEntry o) := by
  cases o with
  | some k => exact (s.modTankNoticed_placed k (by exact fun _ _ => rfl)).notify _
  | none => exact (s.modLink_placed _).notify _

theorem State.applyEntries_placed (s : State) (seen : List Nat) (es : List DirEntry) : Placed s (s.applyEntries seen es) := by
  induction es generalizing s seen with
  | nil => exact .refl
  | cons e es ih =>
    unfold State.applyEntries
    simp only []
    refine Placed.trans ?_ (ih _ _)
    split
    · split
      · exact s.acceptEntry_placed _ e
      · exact s.rejectEntry_placed _
    · exact s.rejectEntry_placed _

theorem State.dropUnnamed_placed (s : State) (named : List Nat) (k : TankId) : Placed s (s.dropUnnamed named k) := by
  unfold State.dropUnnamed
  split
  · exact .refl
  · next r hr =>
    split
    · exact .refl
    · split
      · exact (s.modTankNoticed_placed k (by exact fun _ _ => rfl)).notify _
      · next free => exact State.removeTank_placed fun sound => sound.unlined hr (Tank.watched_of_heldBack free)

theorem State.applyDirectory_placed (s : State) (es : List DirEntry) : Placed s (s.applyDirectory es) :=
  ((s.modLink_placed _).trans (State.applyEntries_placed _ [] es)).trans
    (Placed.foldl (fun t k => t.dropUnnamed_placed _ k) _ _)

end Sys2Proof.Machine
end

section
/-! SUPPORT. Sample events, the ship link and the loop readings keep the rules on rest, quiet and lineups. -/

namespace Sys2Proof.Machine

/-! ### Measurement (R3 to R14) -/

theorem State.judgeSensorFault_placed (s : State) (l : LineId) : Placed s (s.judgeSensorFault l) := by
  unfold State.judgeSensorFault
  split
  · exact s.addTrip_placed l _
  · exact .refl

theorem State.judgeOverpressure_placed (s : State) (l : LineId) : Placed s (s.judgeOverpressure l) := by
  unfold State.judgeOverpressure
  split
  · exact s.addTrip_placed l _
  · exact .refl

theorem State.judgeStretchTrip_placed (s : State) (l : LineId) : Placed s (s.judgeStretchTrip l) := by
  unfold State.judgeStretchTrip
  split
  · exact (s.addTrip_placed l _).trans (State.deviceTrip_placed _ _)
  · exact .refl

theorem State.warnStretch_placed (s : State) (l : LineId) (v w : Nat) : Placed s (s.warnStretch l v w) := by
  unfold State.warnStretch
  split
  · exact (Placed.refl.raise _ _).trans (State.addHold_placed _ l _)
  · exact .refl

theorem State.judgeStretchClear_placed (s : State) (l : LineId) : Placed s (s.judgeStretchClear l) := by
  unfold State.judgeStretchClear
  simp only []
  split
  · have cleared : Placed s (s.modMeas l fun m => { m with warn := false }) := s.modMeas_placed l ⟨rfl, Nat.le_refl _⟩ id
    exact (cleared.trans (State.dropHold_placed _ l _)).gone _ _
  · exact .refl

theorem State.stretchStage_placed (s : State) (l : LineId) (x : Option Nat) (lim : Limits) :
    Placed s (s.stretchStage l x lim) := by
  have judged (t : State) : Placed t ((t.judgeStretchClear l).judgeStretchTrip l) :=
    (t.judgeStretchClear_placed l).trans (State.judgeStretchTrip_placed _ l)
  unfold State.stretchStage
  simp only []
  split
  · next v =>
    have taken : Placed s (s.modMeas l (Meas.takeStretch v lim)) := s.modMeas_placed l (Meas.takeStretch_move _ _ _) id
    exact (taken.trans (State.warnStretch_placed _ l _ _)).trans (judged _)
  · exact judged s

theorem State.judgeSteady_placed (s : State) (l : LineId) : Placed s (s.judgeSteady l) := by
  by_cases st : (s.seq l).state = .delivering
  · exact (s.judgeSteady_soft l).placed_of_delivering st
  · simp [State.judgeSteady, st, Placed.refl]

theorem State.judgeUnsteady_placed (s : State) (l : LineId) : Placed s (s.judgeUnsteady l) := by
  by_cases st : (s.seq l).state = .delivering
  · exact (s.judgeUnsteady_soft l).placed_of_delivering st
  · simp [State.judgeUnsteady, st, Placed.refl]

theorem State.steadyStage_placed (s : State) (l : LineId) : Placed s (s.steadyStage l) := by
  by_cases st : (s.seq l).state = .delivering
  · exact (s.steadyStage_soft l).placed_of_delivering st
  · unfold State.steadyStage
    split
    · next delivering _ _ => exact absurd delivering st
    · exact .refl

theorem State.measureStage_placed (s : State) (l : LineId) (x : Sample) : Placed s (s.measureStage l x) := by
  have taken : Placed s (s.modMeas l fun m =>
      (m.takeSample x ((s.limits l).map (·.f)) (decide ((s.seq l).state ≠ .disconnected))).takeUp
        s.settings.steadyn (s.drive l).allowance) :=
    s.modMeas_placed l (Meas.takeUp_move _ _ _ _ _ _) id
  unfold State.measureStage
  simp only []
  split
  · next lim _ _ =>
    have pressed : ∀ t : State, Placed t (t.modMeas l (Meas.takePressure x.pressure lim.pRated)) := fun t =>
      t.modMeas_placed l (Meas.takePressure_move _ _ _) fun calm => by
        unfold Meas.takePressure
        split <;> exact calm
    exact ((((taken.trans (State.judgeSensorFault_placed _ l)).trans (pressed _)).trans
      (State.judgeOverpressure_placed _ l)).trans (State.stretchStage_placed _ l _ _)).trans (State.steadyStage_placed _ l)
  · exact taken.trans (State.judgeSensorFault_placed _ l)
  · exact taken.trans (State.modMeas_placed _ l ⟨rfl, Nat.le_refl _⟩ id)

/-! ### Closure, drive step, handing (R2) -/

theorem State.closureStage_placed (s : State) (l : LineId) : Placed s (s.closureStage l) := by
  unfold State.closureStage
  split
  · exact s.modMeas_placed l ⟨rfl, Nat.le_refl _⟩ id
  · split
    all_goals exact s.modMeas_placed l ⟨rfl, Nat.le_refl _⟩ id

theorem State.positionTransition_placed (s : State) (l : LineId) (pos : Option Nat) :
    Placed s (s.positionTransition l pos) := by
  unfold State.positionTransition
  split
  · split
    · split
      · exact s.enterDelivering_placed l
      · exact .refl
    · exact .refl
  · next st =>
    split
    · exact s.enterHeld_placed l (by rw [st]; decide)
    · exact .refl
  · next st =>
    split
    · exact s.finishLine_placed l (by rw [st]; decide)
    · exact .refl
  · next st =>
    split
    · exact s.enterTripped_placed l (by rw [st]; decide)
    · exact .refl
  all_goals exact .refl

theorem Drive.trackStep_view (pos : Option Nat) (d : Drive) :
    (d.trackStep pos).setpoint = d.setpoint ∧ (d.trackStep pos).ramp = d.ramp ∧ (d.trackStep pos).stage = d.stage := by
  unfold Drive.trackStep
  split <;> exact ⟨rfl, rfl, rfl⟩

theorem Drive.keepPos_view (pos : Option Nat) (d : Drive) :
    (d.keepPos pos).setpoint = d.setpoint ∧ (d.keepPos pos).ramp = d.ramp ∧ (d.keepPos pos).stage = d.stage := by
  unfold Drive.keepPos
  split <;> exact ⟨rfl, rfl, rfl⟩

theorem State.trackAndMove_placed (s : State) (l : LineId) (pos : Option Nat) : Placed s (s.trackAndMove l pos) := by
  unfold State.trackAndMove
  split
  · obtain ⟨setpoint, ramp, stage⟩ := Drive.trackStep_view pos (s.drive l)
    have tracked : Placed s (s.modDrive l (Drive.trackStep pos)) := s.modDrive_placed l setpoint ramp stage
    simp only []
    split
    · exact tracked.trans (State.failTracking_placed _ l)
    · exact tracked.trans (State.positionTransition_placed _ l pos)
  · exact .refl

/-- R24: a ramp steps only where one is in flight. -/
theorem State.rampStep_placed (s : State) (l : LineId) (out : (s.seq l).state ≠ .stroking) :
    Placed s (s.modDrive l Drive.rampStep) := by
  refine (Soft.refl.drive _ (Drive.rampStep_enabled _)).placed (fun rest must => ?_) (by simp)
  have zero := rest (must.imp_right fun h => absurd h.1 out)
  simpa [Drive.rampStep, zero.2] using zero

theorem State.driveStage_placed (s : State) (l : LineId) (pos : Option Nat) : Placed s (s.driveStage l pos) := by
  have finished : ∀ t, Placed s t → Placed s ((t.trackAndMove l pos).modDrive l (Drive.keepPos pos)) := fun t stepped =>
    let ⟨setpoint, ramp, stage⟩ := Drive.keepPos_view pos ((t.trackAndMove l pos).drive l)
    (stepped.trans (t.trackAndMove_placed l pos)).trans (State.modDrive_placed _ l setpoint ramp stage)
  unfold State.driveStage
  simp only []
  split
  · next st => exact finished _ ((s.rateLoopStep_soft l).placed_of_delivering st)
  · next st => exact finished _ (s.strokeStep_placed l pos st)
  iterate 4
    next st => exact finished _ ((s.rampStep_placed l (by rw [st]; decide)).trans (State.formTarget_placed _ l))
  all_goals exact finished _ .refl

theorem State.handStage_placed (s : State) (l : LineId) : Placed s (s.handStage l) := by
  unfold State.handStage
  simp only []
  exact Placed.trans (State.modMeas_placed s l ⟨rfl, Nat.le_refl _⟩ id) (State.lineSampled_placed _ l)

theorem State.sampleEvent_placed (s : State) (l : LineId) (x : Sample) : Placed s (s.sampleEvent l x) :=
  (((s.measureStage_placed l x).trans (State.closureStage_placed _ l)).trans (State.driveStage_placed _ l _)).trans
    (State.handStage_placed _ l)

/-! ### The ship link -/

theorem State.chooseNext_placed (s : State) : Placed s s.chooseNext := (s.chooseNext_free trivial).placed

theorem State.setOutcome_placed (s : State) (l : LineId) (o : PermitOutcome) : Placed s (s.setOutcome l o) :=
  (s.setOutcome_free l o trivial).placed

theorem State.dropQueries_placed (s : State) : Placed s s.dropQueries := (s.dropQueries_free trivial).placed

theorem State.enterLost_placed (s : State) : Placed s s.enterLost := by
  have lost : Placed s (((s.modLinkNoticed fun k => { k with state := .lost, succRun := 0 }).raiseAlarm .linkLost
      .link).dropQueries) := ((s.modLinkNoticed_placed _).raise _ _).trans (State.dropQueries_placed _)
  unfold State.enterLost
  simp only []
  split
  · exact lost.trans (State.eachLine_placed _ fun t l => (t.addHold_placed l _).trans (State.clearPermit_placed _ l))
  · exact lost

theorem State.linkBack_placed (s : State) : Placed s s.linkBack :=
  (Placed.refl.gone _ _).trans (State.eachLine_placed _ fun t l => t.dropHold_placed l _)

theorem State.judgeLost_placed (s : State) : Placed s s.judgeLost := by
  unfold State.judgeLost
  split
  · exact s.enterLost_placed
  · exact .refl

theorem State.judgeRecovered_placed (s : State) : Placed s s.judgeRecovered := by
  unfold State.judgeRecovered
  split
  · exact (s.modLinkNoticed_placed _).trans (State.linkBack_placed _)
  · exact .refl

theorem State.judgeQuality_placed (s : State) : Placed s s.judgeQuality := by
  unfold State.judgeQuality
  split
  iterate 2
    split
    · exact s.judgeLost_placed
    · split
      · exact s.modLinkNoticed_placed _
      · exact .refl
  · exact s.judgeRecovered_placed
  all_goals exact .refl

theorem State.closeExchange_placed (s : State) (refresh failed : Bool) : Placed s (s.closeExchange refresh failed) := by
  unfold State.closeExchange State.countOutcome
  split
  · exact ((s.modLink_placed _).trans (State.modLink_placed _ _)).trans (State.judgeQuality_placed _)
  · exact s.modLink_placed _

theorem State.takeStop_placed (s : State) (stop : Bool) : Placed s (s.takeStop stop) := by
  refine (s.modLinkNoticed_placed _).trans (State.eachLine_placed _ fun t l => ?_)
  split
  · exact (t.addHold_placed l _).trans (State.clearPermit_placed _ l)
  · exact t.dropHold_placed l _

theorem State.acquired_placed (s : State) (h : Header) (es : List DirEntry) : Placed s (s.acquired h es) := by
  have stored : Placed s (((s.notify .doneLinkstart).modLinkNoticed fun k =>
      { k with rev := some h.revision, acq := none }).setAcqResult (.pass h.count h.revision)) :=
    ((Placed.refl.notify _).trans (State.modLinkNoticed_placed _ _)).trans (State.setAcqResult_free _ _ trivial).placed
  exact ((stored.trans (State.applyDirectory_placed _ es)).trans (State.modLinkNoticed_placed _ _)).trans
    (State.linkBack_placed _)

theorem State.takeEntry_placed (s : State) (refresh : Bool) (e : DirEntry) : Placed s (s.takeEntry refresh e) := by
  unfold State.takeEntry
  split
  · split
    · split
      · exact (s.modLinkNoticed_placed _).trans (State.applyDirectory_placed _ _)
      · exact s.modLink_placed _
    · exact .refl
  · split
    · split
      · exact s.acquired_placed _ _
      · exact s.modLink_placed _
    · exact .refl

theorem State.takePermit_placed (s : State) (l : LineId) (granted stop : Bool) : Placed s (s.takePermit l granted stop) := by
  unfold State.takePermit
  split
  · split
    · split
      · exact (s.clearPermit_placed l).trans (State.setOutcome_placed _ l _)
      · exact (s.modSeq_placed l (by exact rfl) (by exact rfl)).trans (State.setOutcome_placed _ l _)
    · exact (s.clearPermit_placed l).trans (State.setOutcome_placed _ l _)
  · exact s.setOutcome_placed l _

theorem State.takeBody_placed (s : State) (x : Exchange) (stop : Bool) (b : ReplyBody) : Placed s (s.takeBody x stop b) := by
  unfold State.takeBody
  split
  · exact s.modLink_placed _
  · exact s.takeEntry_placed _ _
  · exact (s.levelReport_placed _).trans (State.compareRevision_free _ _ trivial).placed
  · exact s.takePermit_placed _ _ _
  · exact .refl

theorem State.endGood_placed (s : State) (x : Exchange) (stop : Bool) (b : ReplyBody) : Placed s (s.endGood x stop b) :=
  (((s.closeExchange_placed _ _).trans (State.takeStop_placed _ _)).trans (State.takeBody_placed _ x stop b)).trans
    (State.chooseNext_placed _)

theorem State.endFailed_placed (s : State) (x : Exchange) : Placed s (s.endFailed x) :=
  ((s.closeExchange_placed _ _).trans (State.takeFailure_free _ x trivial).placed).trans (State.chooseNext_placed _)

theorem State.takeReply_placed (s : State) (isKind : Query → Bool) (more : Bool) (t : List Byte) :
    Placed s (s.takeReply isKind more t) := by
  unfold State.takeReply
  split
  · split
    · split
      · split
        · split
          · split
            · exact s.modLink_placed _
            · exact .refl
          · exact s.endGood_placed _ _ _
        · exact .refl
      · exact .refl
    · exact .refl
  · exact .refl

theorem State.takeContinuation_placed (s : State) (t : List Byte) : Placed s (s.takeContinuation t) := by
  unfold State.takeContinuation
  split
  · split
    · split
      · exact s.endGood_placed _ _ _
      · exact .refl
    · exact .refl
  · exact .refl

theorem State.continuationLate_placed (s : State) : Placed s s.continuationLate := by
  unfold State.continuationLate
  split
  · split
    · exact s.endFailed_placed _
    · exact .refl
  · exact .refl

theorem State.windowOut_placed (s : State) : Placed s s.windowOut := by
  unfold State.windowOut
  split
  · split
    · exact .refl
    · exact s.endFailed_placed _
  · exact .refl

theorem State.toManual_placed (s : State) : Placed s s.toManual :=
  ((s.modLinkNoticed_placed _).trans (State.dropQueries_placed _)).trans
    (State.eachLine_placed _ fun t l => (t.dropHold_placed l _).trans (State.formTarget_placed _ l))

theorem State.toLinked_placed (s : State) : Placed s s.toLinked :=
  ((s.modLinkNoticed_placed _).trans (State.eachLine_placed _ State.formTarget_placed)).trans (State.chooseNext_placed _)

/-! ### The loop readings -/

theorem State.judgePumps_placed (s : State) : Placed s s.judgePumps :=
  s.eachLine_placed fun t l => t.modSeq_placed l rfl rfl

theorem State.setLoopReading_placed (s : State) (x : Contact) : Placed s (s.setLoopReading x) := by
  have read : Placed s { s with esd := { s.esd with loop := x } } := .of_same rfl rfl rfl rfl rfl rfl
  have judged := (read.notify .trip).trans (State.judgePumps_placed _)
  unfold State.setLoopReading
  split
  · exact .refl
  · simp only []
    split
    · exact judged.trans (State.eachLine_placed _ fun t l => t.addTrip_placed l _)
    · exact judged

theorem State.setFarReading_placed (s : State) (x : Contact) : Placed s (s.setFarReading x) := by
  have read : Placed s { s with esd := { s.esd with far := x } } := .of_same rfl rfl rfl rfl rfl rfl
  unfold State.setFarReading
  split
  · exact .refl
  · simp only []
    split
    · exact ((read.notify .trip).trans (State.joinDevice_free _ _ trivial).placed).raise _ _
    · exact ((read.notify .trip).trans (State.leaveDevice_free _ _ trivial).placed).gone _ _

end Sys2Proof.Machine
end

section
/-! SUPPORT. CONNECT, DISCONNECT, ASSIGN and RELEASE keep the rules on lineups (R40, R41, R82, R90 to R94). -/

namespace Sys2Proof.Machine

/-! ### Lines that connect and disconnect -/

/-- R40, R41: a line without tanks may change its grade, and whether it is connected. -/
theorem LineupsKept.of_empty {s t : State} {l : LineId} (lineups : t.lineups = s.lineups) (tanks : t.tanks = s.tanks)
    (others : ∀ k, k ≠ l → t.seq k = s.seq k) (empty : LineupsClosed s → s.lineup l = []) : LineupsKept s t := by
  have lineup (k : LineId) : t.lineup k = s.lineup k := congrArg (vget · k) lineups
  have tank (k : TankId) : t.tank k = s.tank k := congrArg (vget · k) tanks
  rintro ⟨listed, watched, distinct⟩
  refine ⟨⟨fun k j => ?_, fun j r hr => watched j r (tank j ▸ hr), fun k => lineup k ▸ distinct k⟩, fun closed =>
    ⟨fun k out => ?_, fun graded k j hj r hr => ?_⟩⟩
  · rw [lineup, State.tankLine, tank]
    exact listed k j
  · rw [lineup]
    by_cases e : k = l
    · rw [e]
      exact empty closed
    · exact closed k (others k e ▸ out)
  · rw [lineup] at hj
    have other : k ≠ l := fun e => by
      rw [e, empty closed] at hj
      cases hj
    rw [others k other]
    exact graded k j hj r (tank j ▸ hr)

/-- R40: a line connects, its drive on with the setpoint at 0. -/
theorem State.connectLine_placed (s : State) (l : LineId) (g : Nat) (out : (s.seq l).state = .disconnected) :
    Placed s (s.connectLine l g) := by
  rw [s.connectLine_eq l g out]
  refine ⟨⟨fun k => ?_, fun k quiet => ?_⟩, LineupsKept.of_empty (l := l) rfl rfl (fun k other => ?_) fun closed => closed l out⟩
  · simp only [State.seq, State.drive, vget_vset]
    split
    · exact fun _ => Restful.of_zero rfl rfl
    · exact id
  · unfold State.Quiet at quiet ⊢
    simp only [State.seq, State.meas, State.rate, vget_vset]
    split
    · next e =>
      subst e
      exact fun _ => quiet (by rw [out]; decide)
    · exact quiet
  · simp only [State.seq, vget_vset, if_neg other]

/-- Tanks listed one after another stand in no lineup, and no other tank gains a line. -/
theorem tankLine_foldl_listTank (b : Bool) (ks : List TankId) (s : State) {k : TankId} {l : LineId}
    (h : (ks.foldl (fun t j => t.listTank j b) s).tankLine k = some l) : s.tankLine k = some l ∧ k ∉ ks := by
  induction ks generalizing s with
  | nil => exact ⟨h, List.not_mem_nil⟩
  | cons j ks ih =>
    obtain ⟨line, later⟩ := ih _ h
    have other : k ≠ j := fun e => by
      subst e
      rw [State.tankLine_listTank] at line
      cases line
    have same := (s.listTank_free (c := Scope.tank j) j b rfl trivial fun _ _ => trivial).tank_eq (k := k) other
    rw [State.tankLine, same] at line
    exact ⟨line, List.not_mem_cons_of_ne_of_not_mem other later⟩

/-- R94: a line that disconnects has lost all its tanks. -/
theorem State.lineDisconnected_lineup {s : State} (sound : LineupsSound s) (l : LineId) : (s.lineDisconnected l).lineup l = [] := by
  obtain ⟨⟨listed, -, -⟩, -⟩ := (s.lineDisconnected_placed l).lineups sound
  refine List.eq_nil_iff_forall_not_mem.mpr fun k hk => ?_
  obtain ⟨line, gone⟩ := tankLine_foldl_listTank false _ s ((listed l k).mp hk)
  exact gone ((sound.1 l k).mpr line)

theorem State.enterDisconnected_lines (s : State) (l : LineId) (out : (s.seq l).state ≠ .delivering) :
    LinesPlaced s (s.enterDisconnected l) := by
  rw [s.enterDisconnected_eq l]
  refine ⟨fun k => ?_, fun k quiet => ?_⟩
  · simp only [State.seq, State.drive, vget_vset]
    split
    · exact fun _ => Restful.of_zero rfl rfl
    · exact id
  · unfold State.Quiet at quiet ⊢
    simp only [State.seq, State.meas, State.rate, vget_vset]
    split
    · next e =>
      subst e
      obtain ⟨-, -, -, surge, max⟩ := quiet out
      exact fun _ => ⟨rfl, rfl, rfl, surge, max⟩
    · exact quiet

/-- R41: a connected line disconnects, its tanks listed first. -/
theorem State.disconnectLine_placed (s : State) (l : LineId) (connected : (s.seq l).state = .connected) :
    Placed s (s.disconnectLine l) := by
  have listed := s.lineDisconnected_placed l
  have out : ((s.lineDisconnected l).seq l).state ≠ .delivering := by
    rw [State.lineDisconnected_state, connected]
    decide
  have lines := (s.lineDisconnected l).enterDisconnected_lines l out
  refine ⟨listed.lines.trans lines, fun sound => (listed.trans ⟨lines, ?_⟩).lineups sound⟩
  rw [State.enterDisconnected_eq]
  refine LineupsKept.of_empty (l := l) rfl rfl (fun k other => ?_) fun _ => State.lineDisconnected_lineup sound l
  simp only [State.seq, vget_vset, if_neg other]

/-- R183: after a reset every line is DISCONNECTED, its valve at rest, and no tank is known. -/
theorem State.resetBlocks_placed (s u : State) : Placed s u.resetBlocks := by
  have lineup (l : LineId) : u.resetBlocks.lineup l = [] := vget_replicate _ l
  have tank (k : TankId) : u.resetBlocks.tank k = none := vget_replicate _ k
  refine ⟨⟨fun l _ => ?_, fun l _ _ => ?_⟩, fun _ => ⟨⟨fun l k => ?_, fun k r hr => ?_, fun l => ?_⟩, fun _ =>
    ⟨fun l _ => lineup l, fun _ l k hk => ?_⟩⟩⟩
  · refine Restful.of_zero ?_ ?_ <;> simp [State.drive, State.resetBlocks, Drive.initial]
  · simp [Calm, State.meas, State.rate, State.resetBlocks, resetMeas, Meas.initial, Rate.initial]
  · simp [lineup, State.tankLine, tank]
  · rw [tank] at hr
    cases hr
  · rw [lineup]
    exact List.nodup_nil
  · rw [lineup] at hk
    cases hk

theorem State.farAtReset_placed (s : State) : Placed s s.farAtReset := by
  unfold State.farAtReset
  split
  · exact (State.joinDevice_free s _ trivial).placed.raise _ _
  · exact .refl

/-! ### ASSIGN (R90, R91) -/

/-- R90: a tank that line `l` may take, `l` connected. -/
def State.Assignable (l : LineId) (s : State) (k : TankId) : Prop :=
  (s.seq l).state ≠ .disconnected ∧ s.Unlined k ∧ ∀ r, s.tank k = some r → (s.seq l).grade = some r.grade

/-- R91: a tank that line `l` may take joins its lineup. -/
theorem LineupsKept.join {s t : State} {l : LineId} {k : TankId} {r : Tank} (free : s.Assignable l k)
    (seq : ∀ j, t.seq j = s.seq j) (lineup : ∀ j, t.lineup j = if j = l then s.lineup l ++ [k] else s.lineup j)
    (others : ∀ j, j ≠ k → t.tank j = s.tank j) (own : t.tank k = some r) (line : r.line = some l)
    (watched : r.state.watched = true) (grade : (s.seq l).grade = some r.grade) : LineupsKept s t := by
  obtain ⟨connected, unlined, -⟩ := free
  have new := unlined.tankLine
  rintro ⟨listed, watching, distinct⟩
  have apart (j : LineId) : k ∉ s.lineup j := fun h => by
    rw [listed, new] at h
    cases h
  have member (m : LineId) (j : TankId) : j ∈ t.lineup m ↔ j ∈ s.lineup m ∨ m = l ∧ j = k := by
    rw [lineup]
    split
    · next e => simp [e]
    · next e => simp [e]
  refine ⟨⟨fun m j => ?_, fun j r' hr' => ?_, fun m => ?_⟩, fun closed => ⟨fun m hm => ?_, fun graded m j hj r' hr' => ?_⟩⟩
  · rw [member]
    by_cases e : j = k
    · subst e
      simp [apart, State.tankLine, own, line, eq_comm]
    · simpa [State.tankLine, others j e, e] using listed m j
  · by_cases e : j = k
    · subst e
      rw [own] at hr'
      rw [← Option.some.inj hr', line, watched]
      rfl
    · exact watching j r' (others j e ▸ hr')
  · rw [lineup]
    split
    · exact List.nodup_append.mpr ⟨distinct l, List.nodup_singleton k, fun a ha b hb e =>
        apart l (List.mem_singleton.mp hb ▸ e ▸ ha)⟩
    · exact distinct m
  · rw [seq] at hm
    have other : m ≠ l := fun e => connected (e ▸ hm)
    rw [lineup, if_neg other]
    exact closed m hm
  · rw [seq]
    rcases (member m j).mp hj with old | ⟨rfl, rfl⟩
    · have other : j ≠ k := fun e => apart m (e ▸ old)
      exact graded m j old r' (others j other ▸ hr')
    · rw [own] at hr'
      rw [grade, Option.some.inj hr']

/-- R91: the record of a tank that joins the lineup of `l`. -/
def Tank.joined (l : LineId) (r : Tank) : Tank :=
  { r with line := some l, ring := [], anchor := none, topped := false, results := none, state := r.assignedState }

/-- R91: a tank joins the lineup of `l`, before the hold cause NO_OUTLET is cleared. -/
def State.joinLineup (s : State) (l : LineId) (k : TankId) : State :=
  ((s.modTankNoticed k (Tank.joined l)).setLineup l (s.lineup l ++ [k])).notify (.line l)

theorem State.assignTank_eq (s : State) (l : LineId) (k : TankId) : s.assignTank l k = (s.tank k).elim s fun r =>
    if r.assignedState = .filling then (s.joinLineup l k).dropHold l .noOutlet else s.joinLineup l k := by
  unfold State.assignTank
  cases s.tank k <;> rfl

theorem State.joinLineup_lines (s : State) (l : LineId) (k : TankId) : LinesPlaced s (s.joinLineup l k) := by
  apply LinesPlaced.of_same <;> simp [State.joinLineup]

theorem Tank.assignedState_watched (r : Tank) : r.assignedState.watched = true := by
  unfold Tank.assignedState
  split <;> rfl

theorem State.joinLineup_placed {s : State} {l : LineId} {k : TankId} {r : Tank} (hr : s.tank k = some r)
    (free : s.Assignable l k) : Placed s (s.joinLineup l k) := by
  refine ⟨s.joinLineup_lines l k, LineupsKept.join (r := r.joined l) free (fun j => ?_) (fun j => ?_) (fun j other => ?_) ?_ rfl
    r.assignedState_watched (free.2.2 r hr)⟩
  · simp [State.joinLineup]
  · simp [State.joinLineup]
  · simp [State.joinLineup, other]
  · simp [State.joinLineup, hr]

theorem State.assignTank_lines (s : State) (l : LineId) (k : TankId) : LinesPlaced s (s.assignTank l k) := by
  rw [State.assignTank_eq]
  cases s.tank k with
  | none => exact .refl
  | some r =>
    simp only [Option.elim_some]
    split
    · exact (s.joinLineup_lines l k).trans (State.dropHold_placed _ l _).lines
    · exact s.joinLineup_lines l k

theorem State.assignTank_placed {s : State} {l : LineId} {k : TankId} (free : s.Assignable l k) :
    Placed s (s.assignTank l k) := by
  rw [State.assignTank_eq]
  cases hr : s.tank k with
  | none => exact .refl
  | some r =>
    simp only [Option.elim_some]
    split
    · exact (State.joinLineup_placed hr free).trans (State.dropHold_placed _ l _)
    · exact State.joinLineup_placed hr free

/-- A tank that line `l` may take, it may take also once another tank has joined. -/
theorem State.Assignable.after {s : State} {l : LineId} {k j : TankId} (other : j ≠ k) (free : s.Assignable l j) :
    (s.assignTank l k).Assignable l j := by
  have tank : (s.assignTank l k).tank j = s.tank j := by
    rw [State.assignTank_eq]
    cases s.tank k with
    | none => rfl
    | some r => simp only [Option.elim_some]; split <;> simp [State.joinLineup, State.dropHold, other]
  have seq : ((s.assignTank l k).seq l).state = (s.seq l).state ∧ ((s.assignTank l k).seq l).grade = (s.seq l).grade := by
    rw [State.assignTank_eq]
    cases s.tank k with
    | none => exact ⟨rfl, rfl⟩
    | some r => simp only [Option.elim_some]; split <;> simp [State.joinLineup, State.dropHold]
  obtain ⟨connected, unlined, grade⟩ := free
  refine ⟨by rw [seq.1]; exact connected, fun r hr => unlined r (tank ▸ hr), fun r hr => ?_⟩
  rw [seq.2]
  exact grade r (tank ▸ hr)

theorem tankOf_some {n : Nat} {k : TankId} (h : tankOf n = some k) : n = tankNumber k := by
  have e := List.find?_some h
  simpa [eq_comm] using e

/-- Distinct numbers name distinct tanks. -/
theorem tanksOf_nodup {ns : List Nat} (h : ns.Nodup) : (tanksOf ns).Nodup :=
  h.filterMap fun _ _ _ hn hm => (tankOf_some hn).trans (tankOf_some hm).symm

theorem mem_tanksOf {ns : List Nat} {k : TankId} (h : k ∈ tanksOf ns) : ∃ n ∈ ns, tankOf n = some k :=
  List.mem_filterMap.mp h

/-- R90: a number that passes the checks names a LISTED tank of the line's grade. -/
theorem State.assignRefusal_none {s : State} {l : LineId} {b n : Nat} {k : TankId} (h : s.assignRefusal l b n = none)
    (hk : tankOf n = some k) : ∃ r, s.tank k = some r ∧ r.state = .listed ∧ (s.seq l).grade = some r.grade := by
  unfold State.assignRefusal at h
  rw [hk, Option.bind_some] at h
  cases hr : s.tank k with
  | none => rw [hr] at h; cases h
  | some r =>
    rw [hr] at h
    simp only [] at h
    split at h
    · cases h
    · split at h
      · cases h
      · next listed =>
        split at h
        · cases h
        · next grade => exact ⟨r, rfl, not_not.mp (not_or.mp listed).1, not_not.mp grade⟩

theorem State.assignRefusals_none {s : State} {l : LineId} {b : Nat} {ns : List Nat} (h : s.assignRefusals l b ns = none) :
    ∀ n ∈ ns, ∃ b, s.assignRefusal l b n = none := by
  induction ns generalizing b with
  | nil => exact nofun
  | cons m ms ih =>
    unfold State.assignRefusals at h
    split at h
    · cases h
    · next passed =>
      intro n hn
      rcases List.mem_cons.mp hn with rfl | hn
      · exact ⟨b, passed⟩
      · exact ih h n hn

/-- R90, R91: the tanks of a taken ASSIGN join the lineup. -/
theorem State.assignAll_placed {s : State} {l : LineId} {ns : List Nat} (assigns : (s.seq l).state.assigns = true)
    (distinct : ns.Nodup) (passed : s.assignRefusals l 0 ns = none) :
    Placed s ((tanksOf ns).foldl (fun t k => t.assignTank l k) s) := by
  refine Placed.foldl_tanks (Ready := State.Assignable l) (fun t k => t.assignTank_lines l k) (fun t k => State.assignTank_placed)
    (fun t k j other => State.Assignable.after other) fun sound => ⟨tanksOf_nodup distinct, fun k hk => ?_⟩
  obtain ⟨n, hn, named⟩ := mem_tanksOf hk
  obtain ⟨b, ok⟩ := State.assignRefusals_none passed n hn
  obtain ⟨r, hr, listed, grade⟩ := State.assignRefusal_none ok named
  refine ⟨fun out => ?_, sound.unlined hr (by rw [listed]; rfl), fun r' hr' => ?_⟩
  · rw [out] at assigns
    cases assigns
  · rw [hr] at hr'
    exact Option.some.inj hr' ▸ grade

/-! ### RELEASE (R92) -/

theorem State.releaseTank_placed {s : State} {k : TankId} (h : s.AsWatched k .releasing) : Placed s (s.releaseTank k) := by
  unfold State.releaseTank
  split
  · exact .refl
  · split
    · exact State.shiftTank_placed h
    all_goals exact s.listTank_placed k false

theorem State.releaseTank_lines (s : State) (k : TankId) : LinesPlaced s (s.releaseTank k) := by
  unfold State.releaseTank
  split
  · exact .refl
  · split
    · exact s.shiftTank_lines k _
    all_goals exact (s.listTank_placed k false).lines

theorem State.releaseTank_others (s : State) {k j : TankId} (other : j ≠ k) : (s.releaseTank k).tank j = s.tank j := by
  have moved : Free (Scope.tank k) s (s.releaseTank k) := by
    unfold State.releaseTank
    split
    · exact .refl
    · split
      · exact s.shiftTank_free k _ rfl fun _ _ => trivial
      all_goals exact s.listTank_free k _ rfl trivial fun _ _ => trivial
  exact moved.tank_eq other

theorem State.releaseAll_placed {s : State} {ks : List TankId}
    (h : LineupsSound s → ks.Nodup ∧ ∃ l, ∀ k ∈ ks, k ∈ s.lineup l) : Placed s (ks.foldl State.releaseTank s) := by
  refine Placed.foldl_tanks (Ready := fun t k => t.AsWatched k .releasing) State.releaseTank_lines
    (fun t k => State.releaseTank_placed) (fun t k j other ready => ready.congr (t.releaseTank_others other)) fun sound => ?_
  obtain ⟨distinct, l, lined⟩ := h sound
  exact ⟨distinct, fun k hk => sound.asWatched (lined k hk)⟩

/-- R92: the numbers of a taken RELEASE name tanks of the lineup. -/
theorem State.releaseRefusal_none {s : State} {l : LineId} {ns : List Nat} (h : s.releaseRefusal l ns = none) :
    ∀ k ∈ tanksOf ns, k ∈ s.lineup l := by
  induction ns with
  | nil => exact nofun
  | cons n ns ih =>
    unfold State.releaseRefusal at h
    split at h
    · cases h
    · next j named =>
      split at h
      · next lined =>
        intro k hk
        rw [tanksOf, List.filterMap_cons, named] at hk
        rcases List.mem_cons.mp hk with rfl | hk
        · exact lined
        · exact ih h k hk
      · cases h

end Sys2Proof.Machine
end

section
/-! SUPPORT. Every request of a line keeps lines placed and lineups as the rules have them: R35, R40 to R42, R44 to R46, R51 to
R54, R58, R61, R71 to R74. -/

namespace Sys2Proof.Machine

/-! ### The frame of a request -/

theorem State.answer_placed (s : State) (fs : List String) : Placed s (s.answer fs) := .of_same rfl rfl rfl rfl rfl rfl

theorem State.refuse_placed (s : State) (a b : List String) : Placed s (s.refuse a b) := s.answer_placed _

theorem State.take_placed (s : State) (a b : List String) : Placed s (s.take a b) := s.answer_placed _

theorem Placed.take {s t : State} (h : Placed s t) (a b : List String) : Placed s (t.take a b) := h.trans (t.take_placed a b)

theorem State.afterStartup_placed (s : State) (name : List String) {body : State → State} (h : Placed s (body s)) :
    Placed s (s.afterStartup name body) := State.afterStartup_of s.answer_placed name h

theorem State.lineRequest_placed (s : State) (kw : String) (n : Nat) {body : State → LineId → List String → State}
    (h : ∀ l hd, Placed s (body s l hd)) : Placed s (s.lineRequest kw n body) :=
  s.afterStartup_placed _ (State.onLine_of s.answer_placed _ n fun l => h l _)

theorem State.onTank_placed (s : State) (name : List String) (n : Nat) {body : State → TankId → Tank → State}
    (h : ∀ k r, s.tank k = some r → Placed s (body s k r)) : Placed s (s.onTank name n body) := by
  unfold State.onTank
  split
  · split
    · next hr => exact h _ _ hr
    · exact s.refuse_placed _ _
  · exact s.refuse_placed _ _

/-! ### Lines at rest -/

theorem State.takeConnect_placed (s : State) (n g : Nat) : Placed s (s.takeConnect n g) := by
  refine s.lineRequest_placed _ n fun l hd => ?_
  split
  · exact s.refuse_placed _ _
  · next out =>
    split
    · exact s.refuse_placed _ _
    · split
      · exact s.refuse_placed _ _
      · exact (s.connectLine_placed l g (not_not.mp out)).take _ _

theorem State.takeDisconnect_placed (s : State) (n : Nat) : Placed s (s.takeDisconnect n) := by
  refine s.lineRequest_placed _ n fun l hd => ?_
  split
  · next connected => exact (s.disconnectLine_placed l connected).take _ _
  · exact s.refuse_placed _ _

/-- R30, R42: the stroke test begins with the valve opening. -/
theorem State.strokeLine_placed (s : State) (l : LineId) (connected : (s.seq l).state = .connected) :
    Placed s (s.strokeLine l) := by
  have seq : ((s.strokeLine l).seq l).state = .stroking ∧ ((s.strokeLine l).seq l).grade = (s.seq l).grade := by
    simp [State.strokeLine, State.dropTarget_seq]
  refine (s.strokeLine_own l).placed seq.2 (fun out => ?_) (fun _ => ?_) fun quiet _ => ?_
  · rw [seq.1] at out
    cases out
  · rw [seq.1]
    exact Restful.of_stage (by simp [State.strokeLine, State.dropTarget_drive, Drive.startStroke])
  · have calm := quiet (by rw [connected]; decide)
    exact State.dropTarget_calm _ l (by simpa using calm)

theorem State.takeStroke_placed (s : State) (n : Nat) : Placed s (s.takeStroke n) := by
  refine s.lineRequest_placed _ n fun l hd => ?_
  split
  · next connected =>
    split
    · exact s.refuse_placed _ _
    · exact (s.strokeLine_placed l connected).take _ _
  all_goals exact s.refuse_placed _ _

theorem State.takeStrokeset_placed (s : State) (n : Nat) (time : Option Nat) : Placed s (s.takeStrokeset n time) := by
  refine s.lineRequest_placed _ n fun l hd => ?_
  have stored (x : Option Nat) : Placed s (s.modDrive l fun d => { d with tOvr := x }) := s.modDrive_placed l rfl rfl rfl
  split
  · exact (stored _).take _ _
  · split
    · exact (stored _).take _ _
    · exact s.refuse_placed _ _

theorem State.takePermitQuery_placed (s : State) (n : Nat) : Placed s (s.takePermitQuery n) := by
  refine s.lineRequest_placed _ n fun l hd => ?_
  split
  · exact s.refuse_placed _ _
  · split
    · exact s.refuse_placed _ _
    · exact ((s.queuePermit_free l trivial).placed).take _ _

theorem State.takePermitConfirm_placed (s : State) (n : Nat) : Placed s (s.takePermitConfirm n) := by
  refine s.lineRequest_placed _ n fun l hd => ?_
  split
  · exact s.refuse_placed _ _
  · split
    · exact s.refuse_placed _ _
    · exact (s.modSeq_placed l (by rfl) (by rfl)).take _ _

/-! ### START, RATE and LOOP -/

theorem State.startLine_placed (s : State) (l : LineId) (used : Nat) (connected : (s.seq l).state = .connected) :
    Placed s (s.startLine l used) := by
  have set : Placed s (s.modRate l fun r => { r with target := used }) := s.modRate_placed l id
  exact set.trans (State.enterOpening_placed _ l (by simp [connected]))

theorem State.takeStart_placed (s : State) (n : Nat) (rate : NumField) : Placed s (s.takeStart n rate) := by
  refine s.lineRequest_placed _ n fun l hd => ?_
  split
  · exact s.refuse_placed _ _
  · split
    · exact s.refuse_placed _ _
    · next passed => exact (s.startLine_placed l _ (s.startRefusal_state l passed)).take _ _

theorem State.setRate_placed (s : State) (l : LineId) (used : Nat) : Placed s (s.setRate l used) := by
  have formed : Placed s ((s.modRate l fun r => { r with target := used }).formTarget l) :=
    (s.modRate_placed l id).trans (State.formTarget_placed _ l)
  unfold State.setRate
  simp only []
  split
  · exact formed
  · exact formed.trans (State.clearRings_placed _ l)

theorem State.storeRate_placed (s : State) (l : LineId) (used : Nat) : Placed s (s.storeRate l used) := by
  have stored : Placed s (s.modRate l fun r => { r with pendingTarget := some used }) := s.modRate_placed l id
  unfold State.storeRate
  simp only []
  split
  · exact stored
  · exact stored.trans (State.clearRings_placed _ l)

theorem State.takeRate_placed (s : State) (n : Nat) (target : NumField) : Placed s (s.takeRate n target) := by
  refine s.lineRequest_placed _ n fun l hd => ?_
  split
  · exact s.refuse_placed _ _
  · simp only []
    split
    iterate 2 exact (s.setRate_placed l _).take _ _
    iterate 2 exact (s.storeRate_placed l _).take _ _
    all_goals exact s.refuse_placed _ _

theorem Rate.chooseMode_runs (w : LoopWord) (r : Rate) :
    (r.chooseMode w).surgeRun = r.surgeRun ∧ (r.chooseMode w).maxRun = r.maxRun := by
  cases w <;> exact ⟨rfl, rfl⟩

theorem State.setLoop_placed (s : State) (l : LineId) (w : LoopWord) : Placed s (s.setLoop l w) := by
  have chosen : Placed s (s.modRate l (Rate.chooseMode w)) := s.modRate_placed l fun calm => by
    obtain ⟨surge, max⟩ := Rate.chooseMode_runs w (s.rate l)
    rw [Calm, surge, max]
    exact calm
  unfold State.setLoop
  simp only []
  split
  · exact chosen
  · exact chosen.notify _

theorem State.takeLoop_placed (s : State) (n : Nat) (mode : Option LoopWord) : Placed s (s.takeLoop n mode) := by
  refine s.lineRequest_placed _ n fun l hd => ?_
  split
  · exact s.refuse_placed _ _
  · split
    · exact s.refuse_placed _ _
    · exact (s.setLoop_placed l _).take _ _

/-! ### HOLD, RESUME and FINISH -/

theorem State.takeHold_placed (s : State) (n : Nat) : Placed s (s.takeHold n) := by
  refine s.lineRequest_placed _ n fun l hd => ?_
  split
  · exact (s.addHold_placed l _).take _ _
  · exact s.refuse_placed _ _

theorem LineState.paused_out {x : LineState} (h : x.paused = true) : x ≠ .delivering := by
  rintro rfl
  cases h

theorem State.resumeLine_placed (s : State) (l : LineId) (paused : (s.seq l).state.paused = true) :
    Placed s (s.resumeLine l) := by
  have resumed : Placed s ((s.clearRings l).modRate l
      fun r => { r with target := r.pendingTarget.getD r.target, pendingTarget := none }) :=
    (s.clearRings_placed l).trans (State.modRate_placed _ l id)
  refine resumed.trans (State.enterOpening_placed _ l ?_)
  rw [State.modRate_seq, State.clearRings_seq]
  exact LineState.paused_out paused

theorem State.takeResume_placed (s : State) (n : Nat) : Placed s (s.takeResume n) := by
  refine s.lineRequest_placed _ n fun l hd => ?_
  simp only []
  split
  · exact s.refuse_placed _ _
  · next paused =>
    split
    · exact s.refuse_placed _ _
    · split
      · exact s.refuse_placed _ _
      · split
        · exact s.refuse_placed _ _
        · exact (s.resumeLine_placed l (by simpa using paused)).take _ _

/-- R53: a line whose valve may move closes on its profile to finish. -/
theorem State.finishMoving_placed (s : State) (l : LineId) :
    Placed s (((s.leaveDelivering l).enterFinishing l).closeOnProfile l) := by
  have left := s.leaveDelivering_soft l
  have own : Own l s (((s.leaveDelivering l).enterFinishing l).closeOnProfile l) :=
    (left.own.trans (State.enterFinishing_own _ l)).soft (State.closeOnProfile_soft _ l)
  refine State.closing_placed own ?_ ?_ ?_ ?_ ?_
  all_goals simp [State.closeOnProfile, State.enterFinishing, left.seq]

theorem State.enterFinishing_placed (s : State) (l : LineId) (holding : (s.seq l).state = .holding) :
    Placed s (s.enterFinishing l) := by
  refine (s.enterFinishing_own l).placed_of_moving ?_ ?_ fun quiet _ => ?_
  · simp [State.enterFinishing]
  · simp [State.enterFinishing]
  · simpa [State.enterFinishing, Calm] using quiet (by rw [holding]; decide)

theorem State.takeFinish_placed (s : State) (n : Nat) : Placed s (s.takeFinish n) := by
  refine s.lineRequest_placed _ n fun l hd => ?_
  split
  iterate 2 exact (s.finishMoving_placed l).take _ _
  · next holding => exact (s.enterFinishing_placed l holding).take _ _
  · next held =>
    refine ((s.clearPermit_placed l).trans (State.finishLine_placed _ l ?_)).take _ _
    simp [State.clearPermit, held]
  all_goals exact s.refuse_placed _ _

/-! ### CLEAR -/

theorem State.stretchTripGone_placed (s : State) (l : LineId) : Placed s (s.stretchTripGone l) := by
  unfold State.stretchTripGone
  split
  · exact .refl
  · exact Placed.refl.gone _ _

theorem State.causeGone_placed (s : State) (l : LineId) (c : TripCause) : Placed s (s.causeGone l c) := by
  cases c
  case stretchTrip => exact s.stretchTripGone_placed l
  all_goals exact Placed.refl.gone _ _

theorem State.clearLine_placed (s : State) (l : LineId) (tripped : (s.seq l).state = .tripped) : Placed s (s.clearLine l) := by
  have emptied : Placed s (s.modSeq l fun q => { q with trips := [] }) := s.modSeq_placed l rfl rfl
  refine (emptied.trans (State.enterConnected_placed _ l ?_)).trans (Placed.foldl (fun t c => t.causeGone_placed l c) _ _)
  simp [tripped]

theorem State.takeClear_placed (s : State) (n : Nat) : Placed s (s.takeClear n) := by
  refine s.lineRequest_placed _ n fun l hd => ?_
  split
  · exact s.refuse_placed _ _
  · next tripped =>
    split
    · exact s.refuse_placed _ _
    · exact (s.clearLine_placed l (not_not.mp tripped)).take _ _

theorem State.clearIfFit_placed (s : State) (l : LineId) : Placed s (s.clearIfFit l) := by
  unfold State.clearIfFit
  split
  · next fit => exact s.clearLine_placed l fit.1
  · exact .refl

end Sys2Proof.Machine
end

section
/-! SUPPORT. Every other command keeps lines placed and lineups as the rules have them: the requests of the tank watch, of the
link, the trip unit, the settings and the store, the resets, and what time brings; and one step. -/

namespace Sys2Proof.Machine

/-! ### Requests of the tank watch -/

theorem State.takeAssign_placed (s : State) (n : Nat) (tanks : List NumField) : Placed s (s.takeAssign n tanks) := by
  refine s.lineRequest_placed _ n fun l hd => ?_
  split
  · exact s.refuse_placed _ _
  · next assigns =>
    split
    · exact s.refuse_placed _ _
    · split
      · exact s.refuse_placed _ _
      · next numbers =>
        obtain ⟨-, -, distinct⟩ := by simpa only [not_or, not_not] using numbers
        split
        · exact s.refuse_placed _ _
        · next passed =>
          exact (State.assignAll_placed (by simpa using assigns) distinct passed).take _ _

theorem State.takeRelease_placed (s : State) (n : Nat) (tanks : TankWords) : Placed s (s.takeRelease n tanks) := by
  refine s.lineRequest_placed _ n fun l hd => ?_
  split
  · exact s.refuse_placed _ _
  · split
    · exact (State.releaseAll_placed fun sound => ⟨sound.2.2 l, l, fun _ => id⟩).take _ _
    · split
      · exact s.refuse_placed _ _
      · split
        · exact s.refuse_placed _ _
        · next numbers =>
          split
          · exact s.refuse_placed _ _
          · next passed =>
            have distinct := not_not.mp (not_or.mp numbers).2
            exact (State.releaseAll_placed fun _ => ⟨tanksOf_nodup distinct, l, State.releaseRefusal_none passed⟩).take _ _

/-- R81: a TOPPING tank whose limit is raised fills again: it stays watched. -/
theorem State.fillTank_placed {s : State} {k : TankId} {r : Tank} (hr : s.tank k = some r) (used : Nat) :
    Placed s (s.fillTank k r used) := by
  have stored : Placed s (s.modTankNoticed k fun r => { r with fl := used }) := s.modTankNoticed_placed k fun _ _ => rfl
  unfold State.fillTank
  simp only []
  split
  · next topping =>
    have filling : (s.modTankNoticed k fun r => { r with fl := used }).AsWatched k .filling :=
      .of_record (r := { r with fl := used }) (by simp [hr]) (by rw [topping.1]; rfl)
    exact (stored.trans (State.startFilling_placed filling)).trans (State.evaluate_placed _ k)
  · exact stored

theorem State.takeFill_placed (s : State) (n : Nat) (limit : NumField) : Placed s (s.takeFill n limit) := by
  refine s.afterStartup_placed _ (s.onTank_placed _ n fun k r hr => ?_)
  split
  · exact s.refuse_placed _ _
  · exact (State.fillTank_placed hr _).take _ _

theorem State.takeSound_placed (s : State) (n : Nat) (volume : NumField) (valve : Option ValveWord) :
    Placed s (s.takeSound n volume valve) := by
  refine s.afterStartup_placed _ ?_
  split
  · exact s.refuse_placed _ _
  · refine s.onTank_placed _ n fun k r _ => ?_
    split
    · exact (s.levelReport_placed _).take _ _
    · exact s.refuse_placed _ _

theorem State.clearTank_placed (s : State) (k : TankId) : Placed s (s.clearTank k) :=
  (s.listTank_placed k false).trans (.of_same rfl rfl rfl rfl rfl rfl)

theorem State.takeClearTank_placed (s : State) (n : Nat) : Placed s (s.takeClearTank n) := by
  refine s.afterStartup_placed _ (s.onTank_placed _ n fun k r _ => ?_)
  simp only []
  split
  · exact s.refuse_placed _ _
  · split
    · exact s.refuse_placed _ _
    · exact (s.clearTank_placed k).take _ _

/-! ### Requests of the link and the trip unit -/

theorem State.takeLinkstart_placed (s : State) : Placed s s.takeLinkstart := by
  refine s.afterStartup_placed _ ?_
  split
  · exact s.refuse_placed _ _
  · exact ((s.beginAcquisition_free trivial).placed).take _ _

theorem State.takeGaugingManual_placed (s : State) : Placed s s.takeGaugingManual := by
  refine s.afterStartup_placed _ ?_
  split
  · exact s.toManual_placed.take _ _
  · exact s.take_placed _ _

theorem State.takeGaugingLinked_placed (s : State) : Placed s s.takeGaugingLinked := by
  refine s.afterStartup_placed _ ?_
  split
  · split
    · exact s.toLinked_placed.take _ _
    · exact s.take_placed _ _
  · exact s.refuse_placed _ _

theorem State.takeEsd_placed (s : State) : Placed s s.takeEsd :=
  s.afterStartup_placed _ ((s.deviceTrip_placed _).take _ _)

theorem State.memberGone_placed (s : State) (d : DeviceTrip) : Placed s (s.memberGone d) := by
  cases d with
  | esdIn => exact .refl
  | stretchTrip l => exact s.stretchTripGone_placed l
  | consoleEsd => exact Placed.refl.gone _ _
  | overfill k => exact Placed.refl.gone _ _

theorem State.emptyDevice_placed (s : State) : Placed s s.emptyDevice := by
  have emptied : Free .aside s ((({ s with device := [] }).notify .trip).setContact .closed) :=
    ((Free.refl.device [] trivial).notify .trip).trans (State.setContact_free _ _ trivial)
  exact emptied.placed.trans (Placed.foldl State.memberGone_placed _ _)

theorem State.takeClearAll_placed (s : State) : Placed s s.takeClearAll := by
  refine s.afterStartup_placed _ ?_
  split
  · exact s.refuse_placed _ _
  · have cleared : Placed s ((if s.device = [] then s else s.emptyDevice).eachLine State.clearIfFit) := by
      refine Placed.trans ?_ (State.eachLine_placed _ State.clearIfFit_placed)
      split
      · exact .refl
      · exact s.emptyDevice_placed
    generalize (if s.device = [] then s else s.emptyDevice).eachLine State.clearIfFit = u at cleared
    simp only []
    split
    · exact cleared.take _ _
    · exact s.refuse_placed _ _

theorem State.acknowledge_placed (s : State) (f : Alarm → Bool) : Placed s (s.acknowledge f) := by
  unfold State.acknowledge
  refine Placed.trans ?_ (Placed.foldl (fun _ _ => Placed.refl.notify _) _ _)
  generalize ackedSet f s.alarms = as
  exact .of_same rfl rfl rfl rfl rfl rfl

theorem State.takeAck_placed (s : State) (os : Option (List ObjectWord)) (ks : Option (List (Option AlarmKind))) :
    Placed s (s.takeAck os ks) := by
  refine s.afterStartup_placed _ ?_
  split
  · exact s.refuse_placed _ _
  · split
    · exact s.refuse_placed _ _
    · exact (s.acknowledge_placed _).take _ _

/-! ### Requests of the settings and the store -/

theorem State.setOne_placed (s : State) (p : SettingName × Nat) : Placed s (s.setOne p) := by
  have stored : Placed s { s with settings := p.1.store p.2 s.settings } := .of_same rfl rfl rfl rfl rfl rfl
  unfold State.setOne
  simp only []
  split
  · exact stored.trans (Placed.foldl (fun t k => t.modTank_placed (f := Tank.trimRing p.2) k fun _ => rfl) _ _)
  · exact stored.trans (Placed.foldl State.judgeChange_placed _ _)
  all_goals exact stored

theorem State.takeSet_placed (s : State) (fs : List Field) : Placed s (s.takeSet fs) := by
  refine s.afterStartup_placed _ ?_
  split
  · exact s.refuse_placed _ _
  · split
    · exact s.refuse_placed _ _
    · exact (Placed.foldl State.setOne_placed _ s).take _ _

theorem State.setMask_placed (s : State) (m : List NoticeKind) : Placed s (s.setMask m) := .of_same rfl rfl rfl rfl rfl rfl

theorem State.takeMask_placed (s : State) (ws : List String) : Placed s (s.takeMask ws) := by
  refine s.afterStartup_placed _ ?_
  simp only []
  split
  · exact s.refuse_placed _ _
  · split
    · exact (s.setMask_placed _).take _ _
    · exact s.refuse_placed _ _

theorem State.beginWrite_placed (s : State) (l : LineId) (x : Limits) : Placed s (s.beginWrite l x) :=
  .of_same rfl rfl rfl rfl rfl rfl

theorem State.takeLimits_placed (s : State) (n : Nat) (vs : List NumField) : Placed s (s.takeLimits n vs) := by
  refine s.lineRequest_placed _ n fun l hd => ?_
  split
  · exact s.refuse_placed _ _
  · split
    · exact s.refuse_placed _ _
    · split
      · exact s.refuse_placed _ _
      · split
        · exact s.refuse_placed _ _
        · exact (s.beginWrite_placed l _).take _ _

theorem State.setLock_placed (s : State) (b : Bool) : Placed s (s.setLock b) := .of_same rfl rfl rfl rfl rfl rfl

theorem State.takeLock_placed (s : State) : Placed s s.takeLock := by
  refine s.afterStartup_placed _ ?_
  split
  · exact s.take_placed _ _
  · exact (s.setLock_placed _).take _ _

theorem State.takeUnlock_placed (s : State) : Placed s s.takeUnlock := by
  refine s.afterStartup_placed _ ?_
  split
  · split
    · exact (s.setLock_placed _).take _ _
    · exact s.take_placed _ _
  · exact s.refuse_placed _ _

/-! ### Resets -/

theorem State.hardReset_placed (s : State) (loop far : Contact) : Placed s (s.hardReset loop far) :=
  (s.resetBlocks_placed _).trans (State.farAtReset_placed _)

theorem State.takeRestart_placed (s : State) : Placed s s.takeRestart := by
  refine s.afterStartup_placed _ ?_
  split
  · exact s.refuse_placed _ _
  · exact s.refuse_placed _ _
  · exact (s.resetBlocks_placed _).trans (State.farAtReset_placed _)

/-! ### Every request -/

/-- A request does its own taking, once the replies that wait are sent. -/
theorem request_placed {c : Instr} {s t : State} (hc : isRequest c = true) (run : exec c s = .next t) : Placed s.drained t := by
  generalize hu : s.drained = u
  cases c <;> cases hc <;> cases run <;> rw [hu]
  case connect n g => exact u.takeConnect_placed n g
  case disconnect n => exact u.takeDisconnect_placed n
  case stroke n => exact u.takeStroke_placed n
  case strokeset n x => exact u.takeStrokeset_placed n x
  case permit n => exact u.takePermitQuery_placed n
  case permitConfirm n => exact u.takePermitConfirm_placed n
  case start n r => exact u.takeStart_placed n r
  case rate n r => exact u.takeRate_placed n r
  case loop n m => exact u.takeLoop_placed n m
  case hold n => exact u.takeHold_placed n
  case resume n => exact u.takeResume_placed n
  case finish n => exact u.takeFinish_placed n
  case clear n => exact u.takeClear_placed n
  case assign n ts => exact u.takeAssign_placed n ts
  case release n ts => exact u.takeRelease_placed n ts
  case fill n v => exact u.takeFill_placed n v
  case sound n v w => exact u.takeSound_placed n v w
  case clearTank n => exact u.takeClearTank_placed n
  case linkstart => exact u.takeLinkstart_placed
  case gaugingManual => exact u.takeGaugingManual_placed
  case gaugingLinked => exact u.takeGaugingLinked_placed
  case esd => exact u.takeEsd_placed
  case clearAll => exact u.takeClearAll_placed
  case ack os ks => exact u.takeAck_placed os ks
  case set fs => exact u.takeSet_placed fs
  case limits n vs => exact u.takeLimits_placed n vs
  case lock => exact u.takeLock_placed
  case unlock => exact u.takeUnlock_placed
  case mask ws => exact u.takeMask_placed ws
  case restart => exact u.takeRestart_placed

/-! ### The console port -/

/-- R161: a record is answered, or does what the request it names does. -/
theorem State.answerLine_placed {s : State} (idle : s.port.waiting = none) (e : EndedLine) : Placed s (s.answerLine e) := by
  have same := s.drained_of_none idle
  have fields : ∀ ws, Placed s (s.drained.takeFields ws) := State.takeFields_of (by rw [same]; exact s.answer_placed)
    fun c t hc run => by
      have placed := request_placed hc run
      rwa [same] at placed
  rw [same] at fields
  unfold State.answerLine
  split
  · exact s.answer_placed _
  · split
    · exact s.answer_placed _
    · exact fields _

theorem State.port_placed (s : State) (p : Port) : Placed s { s with port := p } := .of_same rfl rfl rfl rfl rfl rfl

theorem State.lineFeed_placed (s : State) (cs : String) : Placed s (s.lineFeed cs) := by
  unfold State.lineFeed
  simp only []
  split
  · exact s.port_placed _
  · split
    · next idle =>
      exact (s.port_placed _).trans (State.answerLine_placed (s := { s with port := { s.port with rx := "" } }) idle _)
    all_goals exact s.port_placed _

theorem State.sendWaiting_placed (s : State) : Placed s s.sendWaiting := by
  unfold State.sendWaiting
  split
  · exact s.port_placed _
  · exact .refl

theorem State.sendWaiting_idle (s : State) : s.sendWaiting.port.waiting = none := by
  unfold State.sendWaiting
  split
  · rfl
  · next idle => exact idle

theorem State.replyGone_placed (s : State) : Placed s s.replyGone := by
  unfold State.replyGone
  split
  · exact .refl
  · simp only []
    split
    · exact s.sendWaiting_placed
    · exact (s.sendWaiting_placed.trans (State.port_placed _ _)).trans (State.answerLine_placed
        (s := { s.sendWaiting with port := { s.sendWaiting.port with held := none } }) s.sendWaiting_idle _)

theorem State.drained_placed (s : State) : Placed s s.drained := s.replyGone_placed.trans (State.replyGone_placed _)

theorem State.noticeGone_placed (s : State) (n : Notice) : Placed s (s.noticeGone n) := by
  cases n with
  | loop l => exact s.modRate_placed l (f := fun r => { r with mark := none }) id
  | link => exact .of_same rfl rfl rfl rfl rfl rfl
  | _ => exact .refl

theorem State.sendNotice_placed (s : State) : Placed s s.sendNotice := by
  unfold State.sendNotice
  split
  · next n rest _ _ =>
    have sent : Placed s { s with
        notices := rest, port := { s.port with out := some (written ("!" :: s.noticeText n)) } } :=
      .of_same rfl rfl rfl rfl rfl rfl
    exact sent.trans (State.noticeGone_placed _ n)
  all_goals exact .refl

/-- R169 to R171: a READ changes the port alone. -/
theorem read_placed {c : Instr} {s t : State} (hc : c ∈ ([.readStatus, .readTanks, .readSet] : List Instr) ∨
    ∃ n, c ∈ ([.readLine n, .readTank n, .readLimits n] : List Instr)) (run : exec c s = .next t) : Placed s t := by
  refine s.drained_placed.trans ?_
  generalize hu : s.drained = u
  simp only [List.mem_cons, List.not_mem_nil, or_false] at hc
  rcases hc with (rfl | rfl | rfl) | ⟨n, rfl | rfl | rfl⟩ <;> cases run <;> rw [hu]
  · exact u.take_placed _ _
  · exact u.take_placed _ _
  · exact u.take_placed _ _
  · exact State.onLine_of u.answer_placed _ _ fun _ => u.take_placed _ _
  · unfold State.takeReadTank
    split
    · exact u.take_placed _ _
    · exact u.refuse_placed _ _
  · exact State.onLine_of u.answer_placed _ _ fun _ => u.take_placed _ _

/-! ### What time brings -/

theorem State.foldedMeas_calm (s : State) (w : Write) {r : Rate} (h : Calm (s.meas w.line) r) : Calm (s.foldedMeas w) r := by
  unfold State.foldedMeas
  split <;> exact h

/-- R7, R75, R180: the fold, the lowered target and the record touch nothing that rests, is calm or is lined up. -/
theorem State.endWrite_placed (s : State) (w : Write) : Placed s (s.endWrite w) := by
  rw [State.endWrite_eq]
  refine ⟨⟨fun _ => id, fun l quiet out => ?_⟩, LineupsKept.of_same (fun _ => rfl) (fun _ => rfl) (fun _ => rfl) fun _ => id⟩
  have calm := quiet out
  by_cases e : l = w.line
  · subst e
    simpa [State.meas, State.rate, Calm] using s.foldedMeas_calm w calm
  · simpa [State.meas, State.rate, e] using calm

theorem State.judgeWrite_placed (s : State) : Placed s s.judgeWrite := by
  unfold State.judgeWrite
  split
  · split
    · exact s.endWrite_placed _
    · exact .refl
  · exact .refl

theorem State.judgeStartup_placed (s : State) : Placed s s.judgeStartup := by
  rw [State.judgeStartup_eq]
  exact .of_same rfl rfl rfl rfl rfl rfl

theorem State.nextDs_placed (s : State) : Placed s s.nextDs := .of_same rfl rfl rfl rfl rfl rfl

theorem State.tick_placed (s : State) : Placed s s.tick :=
  ((s.nextDs_placed.trans (State.judgeStartup_placed _)).trans (State.judgeWrite_placed _)).trans
    (Placed.foldl State.judgeChange_placed _ _)

theorem State.passTo_placed (s : State) (m : Nat) : Placed s (s.passTo m) := by
  unfold State.passTo
  generalize m - s.clock = n
  induction n with
  | zero => exact .refl
  | succ n ih => exact ih.trans (State.tick_placed _)

theorem State.changeLate_placed (s : State) (k : TankId) : Placed s (s.changeLate k) := by
  unfold State.changeLate
  split
  · exact (s.passTo_placed _).trans (State.judgeChange_placed _ k)
  · exact .refl

theorem State.writeDone_placed (s : State) : Placed s s.writeDone := by
  unfold State.writeDone
  split
  · exact (s.passTo_placed _).trans (State.judgeWrite_placed _)
  · exact .refl

theorem State.startupDone_placed (s : State) : Placed s s.startupDone := by
  unfold State.startupDone
  split
  · exact (s.passTo_placed _).trans (State.judgeStartup_placed _)
  · exact .refl

/-! ### Every command, and one step -/

theorem event_placed {c : Instr} {s t : State} (hc : isRequest c = false) (run : exec c s = .next t) : Placed s t := by
  cases c <;> cases hc
  case readStatus | readTanks | readSet => exact read_placed (.inl (by simp)) run
  case readLine n | readTank n | readLimits n => exact read_placed (.inr ⟨n, by simp⟩) run
  all_goals cases run
  case sampleEvent l x => exact s.sampleEvent_placed l x
  case sensorFault l => exact s.judgeSensorFault_placed l
  case overpressure l => exact s.judgeOverpressure_placed l
  case stretchWarnClear l => exact s.judgeStretchClear_placed l
  case stretchTrip l => exact s.judgeStretchTrip_placed l
  case enterSteady l => exact s.judgeSteady_placed l
  case flowUnsteady l => exact s.judgeUnsteady_placed l
  case trackingCheckFail l => exact s.judgeTracking_placed l
  case openTimeout l => exact s.judgeOpenTimeout_placed l
  case settleEnd l => exact s.judgeSettleEnd_placed l
  case closeTimeout l => exact s.judgeCloseTimeout_placed l
  case takeover l => exact s.judgeTakeover_placed l
  case recordRejected cs => exact s.lineFeed_placed cs
  case heldLine cs => exact s.lineFeed_placed cs
  case replySent => exact s.replyGone_placed
  case noticeSent => exact s.sendNotice_placed
  case headerReply b | entryReply b | entryReplyMore b | levelReply b | permitReply b | adviceReply b | aliveReply b =>
    exact s.takeReply_placed _ _ b
  case continuation b => exact s.takeContinuation_placed b
  case continuationTimeout => exact s.continuationLate_placed
  case replyWindowExpired => exact s.windowOut_placed
  case linkLost => exact s.judgeLost_placed
  case linkRecovered => exact s.judgeRecovered_placed
  case loopReadingChange x => exact s.setLoopReading_placed x
  case farLoopReadingChange x => exact s.setFarReading_placed x
  case keyInputChange b => exact .of_same rfl rfl rfl rfl rfl rfl
  case changeoverLate k => exact s.changeLate_placed k
  case limitsWriteEnd => exact s.writeDone_placed
  case powerOn l f => exact s.hardReset_placed l f
  case resetInput l f => exact s.hardReset_placed l f
  case startupEnd => exact s.startupDone_placed

theorem exec_placed {c : Instr} {s t : State} (run : exec c s = .next t) : Placed s t := by
  cases hc : isRequest c
  · exact event_placed hc run
  · exact s.drained_placed.trans (request_placed hc run)

/-- One step, its command taken off the queue, keeps lines placed and lineups as the rules have them. -/
theorem step_placed {s t : State} (run : step s = .next t) : Placed s t := by
  cases hp : s.pending with
  | nil =>
    unfold step at run
    rw [hp] at run
    exact Host.Outcome.next.inj run ▸ s.tick_placed
  | cons c rest =>
    unfold step at run
    rw [hp] at run
    have taken : Placed s { s with pending := rest } := .of_same rfl rfl rfl rfl rfl rfl
    exact taken.trans (exec_placed run)

/-- Settles O8: the placing of causes and permits is in what a step may do (`Acts`), and rest and quiet are kept line by line
(`Placed`). -/
theorem causesAndPermitsStayPlaced : Obligations.CausesAndPermitsStayPlaced := by
  unfold Obligations.CausesAndPermitsStayPlaced
  intro s t run
  have acts := step_acts run
  have lines := (step_placed run).lines
  refine ⟨fun ⟨holds, trips, permits⟩ => ?_, fun rest l => lines.rest l (rest l), fun quiet l => lines.quiet l (quiet l)⟩
  exact ⟨acts.holds holds, acts.trips trips, acts.permits permits⟩

/-- Settles O10: six tanks at most is in what a step may do (`Acts`), and sound, closed and graded lineups are kept write by
write (`Placed`). -/
theorem lineupsStaySound : Obligations.LineupsStaySound := by
  unfold Obligations.LineupsStaySound
  rintro s t ⟨sound, bounded⟩ run
  obtain ⟨sound', later⟩ := (step_placed run).lineups sound
  exact ⟨sound', (step_acts run).lineups bounded, later⟩

end Sys2Proof.Machine
end

section
/-! SUPPORT. PERMIT and PERMIT CONFIRM (R61, R137). -/

namespace Sys2Proof.Machine

/-! ### The states in which a permit is asked for -/

theorem LineState.asksPermit_iff {x : LineState} : x.asksPermit = true ↔ x ∈ [.connected, .held] := by
  cases x <;> decide

/-! ### The query -/

theorem State.setOutcome_eq (s : State) (l : LineId) (o : PermitOutcome) : s.setOutcome l o = { s with
    link := { s.link with outcomes := vset s.link.outcomes l (some o) }
    notices := if vget s.link.outcomes l = some o then s.notices else noticesWith s (.line l) } := by
  unfold State.setOutcome
  split
  · next same => rw [← same, vset_vget]
  · rw [State.notify_eq]
    rfl

/-- R137: a queued query, whole. -/
theorem State.queuePermit_eq (s : State) (l : LineId) : s.queuePermit l = { s with
    link := { s.link with
      queries := if l ∈ s.link.queries then s.link.queries else s.link.queries ++ [l]
      outcomes := vset s.link.outcomes l (some .pending) }
    notices := if vget s.link.outcomes l = some .pending then s.notices else noticesWith s (.line l) } := by
  rw [State.queuePermit, State.setOutcome_eq]
  split <;> rfl

/-! ### The requests -/

section Asked

variable {s : State} {l : LineId} (ready : Ready s) (asks : (s.seq l).state ∈ [.connected, .held])
include ready asks

/-- R137: PERMIT, once its line may ask. -/
theorem execPermit_eq : exec (.permit (lineNumber l)) s = .next
    (if s.link.gauging = .manual ∨ s.link.state.carries = false then s.refuse ["PERMIT", numText (lineNumber l)] ["LINK"]
      else (s.queuePermit l).take ["PERMIT", numText (lineNumber l)] ["QUERIED"]) := by
  have may : ¬ (s.seq l).state.asksPermit = false := by simp [LineState.asksPermit_iff.mpr asks]
  show Host.Outcome.next (s.drained.takePermitQuery (lineNumber l)) = _
  rw [s.drained_ready ready, State.takePermitQuery, State.lineRequest_ready ready.1, if_neg may]

/-- R61: PERMIT CONFIRM, once its line may ask. -/
theorem execPermitConfirm_eq : exec (.permitConfirm (lineNumber l)) s = .next
    (if s.link.gauging = .linked then s.refuse ["PERMIT", numText (lineNumber l)] ["LINK"]
      else (s.modSeq l fun q => { q with permit := true }).take ["PERMIT", numText (lineNumber l)] ["GRANTED"]) := by
  have may : ¬ (s.seq l).state.asksPermit = false := by simp [LineState.asksPermit_iff.mpr asks]
  show Host.Outcome.next (s.drained.takePermitConfirm (lineNumber l)) = _
  rw [s.drained_ready ready, State.takePermitConfirm, State.lineRequest_ready ready.1, if_neg may]

end Asked

/-- R62: a permit given at rest turns no pump on. -/
theorem pumpPermit_at_rest {q : Seq} {loop : Contact} (h : q.state ∈ [.connected, .held]) : pumpPermit q loop = false := by
  simp only [List.mem_cons, List.not_mem_nil, or_false] at h
  rcases h with h | h <;> simp [pumpPermit, h]

/-- Settles O30: the checks of R61 and R137 in their order, and the two writes whole. -/
theorem permitTaken : Obligations.PermitTaken := by
  refine ⟨fun l s ready asks linked carries => ?_, fun l s ready asks manual => ?_, fun l s ready asks => ⟨fun off => ?_,
    fun linked => ?_⟩⟩
  · have admitted : ¬ (s.link.gauging = .manual ∨ s.link.state.carries = false) := by
      simp [linked, (linkState_carries_iff _).mpr carries]
    rw [execPermit_eq ready asks, if_neg admitted, State.queuePermit_eq]
    rfl
  · rw [execPermitConfirm_eq ready asks, if_neg (by simp [manual]), State.modSeq_eq,
      pumpPermit_at_rest (q := { s.seq l with permit := true }) asks]
    rfl
  · rw [execPermit_eq ready asks, if_pos (off.imp id fun out => by simpa using mt (linkState_carries_iff _).mp out)]
    rfl
  · rw [execPermitConfirm_eq ready asks, if_pos linked]
    rfl

end Sys2Proof.Machine
end

section
/-! SUPPORT. CLEAR ALL (R59, R150): the device set emptied, the TRIPPED lines cleared, and the alarm conditions that end. -/

namespace Sys2Proof.Machine

/-! ### Conditions that only end -/

/-- From `s` to `t` no alarm condition has come about, and the set stays distinct. -/
structure Fades (s t : State) : Prop where
  distinct : AlarmsDistinct s → AlarmsDistinct t
  absent : AlarmsDistinct s → ∀ k o, ¬ AlarmPresent s k o → ¬ AlarmPresent t k o

theorem Fades.refl {s : State} : Fades s s := ⟨id, fun _ _ _ => id⟩

theorem Fades.trans {s t u : State} (h : Fades s t) (g : Fades t u) : Fades s u :=
  ⟨g.distinct ∘ h.distinct, fun d k o out => g.absent (h.distinct d) k o (h.absent d k o out)⟩

theorem Fades.foldl {α : Type} {f : State → α → State} (hf : ∀ t x, Fades t (f t x)) (xs : List α) (s : State) :
    Fades s (xs.foldl f s) := by
  induction xs generalizing s with
  | nil => exact .refl
  | cons x xs ih => exact (hf s x).trans (ih _)

theorem Fades.of_alarms {s t : State} (h : t.alarms = s.alarms) : Fades s t :=
  ⟨fun d => by rw [AlarmsDistinct, h]; exact d, fun _ k o out => mt (AlarmPresent.congr h k o).mp out⟩

theorem State.alarmGone_fades (s : State) (k : AlarmKind) (o : AlarmObject) : Fades s (s.alarmGone k o) :=
  ⟨s.alarmGone_distinct k o, fun d _ _ => s.not_present_alarmGone d⟩

/-! ### The members of the device set -/

theorem State.stretchTripGone_eq_or (s : State) (l : LineId) :
    s.stretchTripGone l = s ∨ s.stretchTripGone l = s.alarmGone .stretchTrip (.line l) := by
  unfold State.stretchTripGone
  split
  · exact .inl rfl
  · exact .inr rfl

theorem State.memberGone_eq_or (s : State) (d : DeviceTrip) :
    s.memberGone d = s ∨ s.memberGone d = s.alarmGone d.alarm.1 d.alarm.2 := by
  cases d with
  | esdIn => exact .inl rfl
  | stretchTrip l => exact s.stretchTripGone_eq_or l
  | consoleEsd => exact .inr rfl
  | overfill k => exact .inr rfl

theorem State.memberGone_fades (s : State) (d : DeviceTrip) : Fades s (s.memberGone d) := by
  rcases s.memberGone_eq_or d with e | e <;> rw [e]
  · exact .refl
  · exact s.alarmGone_fades _ _

theorem State.alarmGone_eq (s : State) (k : AlarmKind) (o : AlarmObject) : s.alarmGone k o = { s with
    alarms := (s.alarmGone k o).alarms, horn := (s.alarmGone k o).horn, notices := (s.alarmGone k o).notices } := by
  apply State.eq_of_fields <;> simp

theorem State.memberGone_eq (s : State) (d : DeviceTrip) : s.memberGone d = { s with
    alarms := (s.memberGone d).alarms, horn := (s.memberGone d).horn, notices := (s.memberGone d).notices } := by
  rcases s.memberGone_eq_or d with e | e <;> rw [e]
  exact s.alarmGone_eq _ _

theorem State.membersGone_eq (s : State) (ds : List DeviceTrip) :
    let t := ds.foldl State.memberGone s
    t = { s with alarms := t.alarms, horn := t.horn, notices := t.notices } := by
  induction ds generalizing s with
  | nil => rfl
  | cons d ds ih =>
    rw [List.foldl_cons, ih, s.memberGone_eq]

/-- R150, R154: the condition of a member's entry ends with the emptied set, unless its line still holds it. ESD_IN of the set
follows the far loop (R146). -/
def DeviceTrip.ends (s : State) (d : DeviceTrip) : Prop :=
  d ≠ .esdIn ∧ ∀ l, d = .stretchTrip l → TripCause.stretchTrip ∉ (s.seq l).trips

theorem State.memberGone_ends {s : State} {d : DeviceTrip} (empty : s.device = []) (ends : d.ends s) :
    s.memberGone d = s.alarmGone d.alarm.1 d.alarm.2 := by
  obtain ⟨other, free⟩ := ends
  cases d with
  | esdIn => exact absurd rfl other
  | stretchTrip l => simp [State.memberGone, State.stretchTripGone, free l rfl, empty, DeviceTrip.alarm]
  | consoleEsd => rfl
  | overfill k => rfl

theorem State.membersGone_absent {s : State} {ds : List DeviceTrip} {d : DeviceTrip} (empty : s.device = []) (hd : d ∈ ds)
    (ends : d.ends s) (distinct : AlarmsDistinct s) :
    ¬ AlarmPresent (ds.foldl State.memberGone s) d.alarm.1 d.alarm.2 := by
  induction ds generalizing s with
  | nil => cases hd
  | cons x xs ih =>
    rw [List.foldl_cons]
    rcases List.mem_cons.mp hd with rfl | hd
    · refine (Fades.foldl State.memberGone_fades xs _).absent ((s.memberGone_fades d).distinct distinct) _ _ ?_
      rw [State.memberGone_ends empty ends]
      exact s.alarmGone_not_present _ _ distinct
    · refine ih ?_ hd ?_ ((s.memberGone_fades x).distinct distinct)
      · rw [s.memberGone_eq]; exact empty
      · rw [s.memberGone_eq]; exact ends

/-! ### The device set emptied -/

theorem State.setContact_whole (s : State) (c : Contact) : s.setContact c = { s with
    esd := { s.esd with contact := c }, notices := (s.setContact c).notices } := by
  unfold State.setContact
  split
  · next same => rw [← same]
  · rw [State.notify_eq]

/-- R150: the device set emptied and the contact closed, before the conditions of the members end. -/
def State.deviceEmptied (s : State) : State := (({ s with device := [] }).notify .trip).setContact .closed

theorem State.deviceEmptied_eq (s : State) : s.deviceEmptied = { s with
    device := [], esd := { s.esd with contact := .closed }, notices := s.deviceEmptied.notices } := by
  unfold State.deviceEmptied
  rw [State.setContact_whole, State.notify_eq]

/-- R150: CLEAR ALL's writes of the device set, whole. -/
theorem State.emptyDevice_eq (s : State) : s.emptyDevice = { s with
    device := [], esd := { s.esd with contact := .closed }
    alarms := s.emptyDevice.alarms, horn := s.emptyDevice.horn, notices := s.emptyDevice.notices } := by
  have members := s.deviceEmptied.membersGone_eq s.device
  change s.emptyDevice = { s.deviceEmptied with
    alarms := s.emptyDevice.alarms, horn := s.emptyDevice.horn, notices := s.emptyDevice.notices } at members
  rw [State.deviceEmptied_eq] at members
  exact members

theorem State.deviceEmptied_fades (s : State) : Fades s s.deviceEmptied := .of_alarms (by rw [State.deviceEmptied_eq])

theorem State.emptyDevice_fades (s : State) : Fades s s.emptyDevice :=
  s.deviceEmptied_fades.trans (Fades.foldl State.memberGone_fades _ _)

theorem State.emptyDevice_absent {s : State} {d : DeviceTrip} (hd : d ∈ s.device) (ends : d.ends s)
    (distinct : AlarmsDistinct s) : ¬ AlarmPresent s.emptyDevice d.alarm.1 d.alarm.2 := by
  refine State.membersGone_absent (s := s.deviceEmptied) (by rw [State.deviceEmptied_eq]) hd ?_
    (s.deviceEmptied_fades.distinct distinct)
  rw [State.deviceEmptied_eq]
  exact ends

/-! ### A line cleared -/

theorem State.causeGone_eq_or (s : State) (l : LineId) (c : TripCause) :
    s.causeGone l c = s ∨ s.causeGone l c = s.alarmGone c.alarm (.line l) := by
  cases c
  case stretchTrip => exact s.stretchTripGone_eq_or l
  all_goals exact .inr rfl

theorem State.causeGone_fades (s : State) (l : LineId) (c : TripCause) : Fades s (s.causeGone l c) := by
  rcases s.causeGone_eq_or l c with e | e <;> rw [e]
  · exact .refl
  · exact s.alarmGone_fades _ _

theorem State.causeGone_aside (s : State) {l k : LineId} (c : TripCause) (other : l ≠ k) : Aside l s (s.causeGone k c) := by
  rcases s.causeGone_eq_or k c with e | e <;> rw [e]
  · exact Aside.refl l s
  · exact (Soft.refl.gone _ _ : Soft k s _).own.aside other fun x =>
      s.alarmPresent_alarmGone_other (line_object_ne other _ _)

/-- R58: a line back in CONNECTED with its set emptied, before the conditions of its causes end. -/
def State.lineCleared (s : State) (l : LineId) : State := (s.modSeq l fun q => { q with trips := [] }).enterConnected l

theorem State.lineCleared_alarms (s : State) (l : LineId) : (s.lineCleared l).alarms = s.alarms := by
  rw [State.lineCleared, State.enterConnected_eq]
  simp

theorem State.lineCleared_own (s : State) (l : LineId) : Own l s (s.lineCleared l) :=
  (Own.refl.seq _).trans (State.enterConnected_own _ l)

theorem State.clearLine_fades (s : State) (l : LineId) : Fades s (s.clearLine l) :=
  (Fades.of_alarms (s.lineCleared_alarms l)).trans (Fades.foldl (fun t c => t.causeGone_fades l c) _ _)

theorem State.clearIfFit_fades (s : State) (l : LineId) : Fades s (s.clearIfFit l) := by
  unfold State.clearIfFit
  split
  · exact s.clearLine_fades l
  · exact .refl

theorem Aside.foldl {α : Type} {l : LineId} {f : State → α → State} (hf : ∀ t x, Aside l t (f t x)) (xs : List α) (s : State) :
    Aside l s (xs.foldl f s) := by
  induction xs generalizing s with
  | nil => exact Aside.refl l s
  | cons x xs ih => exact (hf s x).trans (ih _)

theorem State.clearLine_aside (s : State) {l k : LineId} (other : l ≠ k) : Aside l s (s.clearLine k) :=
  ((s.lineCleared_own k).aside other fun _ => AlarmPresent.congr (s.lineCleared_alarms k) _ _).trans
    (Aside.foldl (fun t c => t.causeGone_aside c other) _ _)

theorem State.clearIfFit_aside (s : State) {l k : LineId} (other : l ≠ k) : Aside l s (s.clearIfFit k) := by
  unfold State.clearIfFit
  split
  · exact s.clearLine_aside other
  · exact Aside.refl l s

/-! ### Every TRIPPED line judged (R59) -/

/-- Writes of the lines that leave the measurements leave all but these fields. -/
theorem SameElsewhere.lines_only {s t : State} (same : SameElsewhere s t) (meass : t.meass = s.meass) :
    t = { s with seqs := t.seqs, rates := t.rates, drives := t.drives, esd := t.esd, device := t.device,
                 alarms := t.alarms, horn := t.horn, notices := t.notices, port := t.port } := by
  obtain ⟨pending, clock, phase, key, settings, store, lineups, tanks, link, -, -, overfills, -, linkResult⟩ := same
  apply State.eq_of_fields
  case seqs | rates | drives | esd | device | alarms | horn | notices | port => rfl
  all_goals assumption

/-- R59: a TRIPPED line none of whose own causes persists. -/
def State.Fit (s : State) (l : LineId) : Prop := (s.seq l).state = .tripped ∧ s.persisting l = []

/-- What CLEAR ALL makes of the lines (R39, R58, R59, R73, R76). -/
def LinesSwept (s t : State) : Prop :=
  (∀ l, s.Fit l → t.seq l = { s.seq l with state := .connected, trips := [], holds := [], pump := false }
      ∧ t.drive l = { s.drive l with ramp := none, setpoint := 0, track := 0 }
      ∧ t.rate l = { s.rate l with eff := none, governing := none, pendingTarget := none }
      ∧ (AlarmsDistinct s → ∀ c ∈ (s.seq l).trips, ¬ AlarmPresent t c.alarm (.line l)))
    ∧ (∀ l, ¬ s.Fit l → t.seq l = s.seq l ∧ t.drive l = s.drive l ∧ t.rate l = s.rate l)
    ∧ t = { s with seqs := t.seqs, rates := t.rates, drives := t.drives, esd := t.esd, device := t.device,
                   alarms := t.alarms, horn := t.horn, notices := t.notices, port := t.port }

/-- What persists for a line is read off its measurements, the far loop and its record. -/
theorem State.persisting_congr {s t : State} {l : LineId} (meas : t.meas l = s.meas l) (far : t.esd.far = s.esd.far)
    (store : t.store = s.store) : t.persisting l = s.persisting l := by
  have limits : t.limits l = s.limits l := State.limits_of_records (congrArg Store.records store) l
  have pressure : t.pressureHigh l = s.pressureHigh l := by
    rw [Bool.eq_iff_iff, State.pressureHigh_iff, State.pressureHigh_iff, meas, limits]
  have stretch : t.stretchHigh l = s.stretchHigh l := by
    rw [Bool.eq_iff_iff, State.stretchHigh_iff, State.stretchHigh_iff, meas, limits]
  simp only [State.persisting, pressure, stretch, meas, far]

theorem Aside.fit {l : LineId} {s t : State} (h : Aside l s t) : t.Fit l ↔ s.Fit l := by
  rw [State.Fit, State.Fit, h.seq,
    State.persisting_congr h.meas (congrArg Esd.far h.elsewhere.esd) h.elsewhere.store]

theorem State.clearIfFit_of_fit {s : State} {l : LineId} (empty : s.device = []) (fit : s.Fit l) :
    s.clearIfFit l = s.clearLine l := if_pos ⟨fit.1, fit.2, empty⟩

theorem State.clearIfFit_of_unfit {s : State} {l : LineId} (unfit : ¬ s.Fit l) : s.clearIfFit l = s :=
  if_neg fun ⟨tripped, ended, _⟩ => unfit ⟨tripped, ended⟩

/-- R59: with the device set empty, each line judged in its turn. -/
theorem State.sweep_swept {s : State} (empty : s.device = []) : LinesSwept s (s.eachLine State.clearIfFit) := by
  have around (l : LineId) := s.eachLine_around (l := l) fun t k other => t.clearIfFit_aside other
  have same := s.eachLine_elsewhere fun t k => (t.clearIfFit_own k).elsewhere
  generalize s.eachLine State.clearIfFit = t at around same
  have meas (l : LineId) : t.meas l = s.meas l := by
    obtain ⟨a, before, after⟩ := around l
    rw [after.meas, ← before.meas]
    by_cases fit : a.Fit l
    · have bare : a.device = [] := before.elsewhere.device.trans empty
      rw [State.clearIfFit_of_fit bare fit, State.meas, (a.clearLine_spec l bare).1]
      rfl
    · rw [State.clearIfFit_of_unfit fit]
  refine ⟨fun l fit => ?_, fun l unfit => ?_, ?_⟩
  · obtain ⟨a, before, after⟩ := around l
    have bare : a.device = [] := before.elsewhere.device.trans empty
    obtain ⟨whole, gone⟩ := a.clearLine_spec l bare
    rw [State.clearIfFit_of_fit bare (before.fit.mpr fit)] at after
    refine ⟨?_, ?_, ?_, fun distinct c hc => ?_⟩
    · rw [after.seq, ← before.seq, whole]; simp [State.seq]
    · rw [after.drive, ← before.drive, whole]; simp [State.drive]
    · rw [after.rate, ← before.rate, whole]; simp [State.rate]
    · exact mt (after.alarms _).mp (gone (before.distinct distinct) c (before.seq ▸ hc))
  · obtain ⟨a, before, after⟩ := around l
    rw [State.clearIfFit_of_unfit (mt before.fit.mp unfit)] at after
    exact ⟨after.seq.trans before.seq, after.drive.trans before.drive, after.rate.trans before.rate⟩
  · exact same.lines_only (vector_ext meas)

/-- The sweep begun from `e`, in which only the device set, the contact and alarm conditions that ended differ from `s`. -/
theorem LinesSwept.since {s e t : State} (swept : LinesSwept e t) (fades : Fades s e) (far : e.esd.far = s.esd.far)
    (whole : e = { s with
      device := e.device, esd := e.esd, alarms := e.alarms, horn := e.horn, notices := e.notices }) : LinesSwept s t := by
  have seq (l : LineId) : e.seq l = s.seq l := by rw [whole]; rfl
  have drive (l : LineId) : e.drive l = s.drive l := by rw [whole]; rfl
  have rate (l : LineId) : e.rate l = s.rate l := by rw [whole]; rfl
  have fit (l : LineId) : e.Fit l ↔ s.Fit l := by
    rw [State.Fit, State.Fit, seq, State.persisting_congr (by rw [whole]; rfl) far (by rw [whole])]
  obtain ⟨cleared, stayed, rest⟩ := swept
  refine ⟨fun l fits => ?_, fun l unfit => ?_, ?_⟩
  · obtain ⟨hseq, hdrive, hrate, hgone⟩ := cleared l ((fit l).mpr fits)
    rw [seq] at hseq hgone
    rw [drive] at hdrive
    rw [rate] at hrate
    exact ⟨hseq, hdrive, hrate, hgone ∘ fades.distinct⟩
  · rw [← seq, ← drive, ← rate]
    exact stayed l (mt (fit l).mp unfit)
  · rw [whole] at rest
    exact rest

theorem LinesSwept.answered {s t : State} (swept : LinesSwept s t) (p : Port) : LinesSwept s { t with port := p } :=
  ⟨swept.1, swept.2.1, congrArg (fun u => { u with port := p }) swept.2.2⟩

/-! ### The request -/

/-- R59, R150: what CLEAR ALL makes of the state once it is taken. -/
def State.allCleared (s : State) : State := (if s.device = [] then s else s.emptyDevice).eachLine State.clearIfFit

/-- R59, R150: the lines that CLEAR ALL has cleared. -/
def State.clearedLines (s : State) : List LineId := s.trippedLines.filter fun l => decide (l ∉ s.allCleared.trippedLines)

theorem execClearAll_eq {s : State} (ready : Ready s) : exec .clearAll s = .next
    (if s.device ≠ [] ∧ s.clearAllFails ≠ [] then
      s.refuse ["CLEAR", "ALL"] ("TRIP" :: s.clearAllFails.flatMap DeviceTrip.text ++ s.stayWords)
    else if s.device ≠ [] ∨ s.clearedLines ≠ [] ∨ s.trippedLines = [] then
      s.allCleared.take ["CLEAR", "ALL"] (s.clearedLines.map lineObject ++ s.allCleared.stayWords)
    else s.refuse ["CLEAR", "ALL"] ("TRIP" :: s.stayWords)) := by
  show Host.Outcome.next s.drained.takeClearAll = _
  rw [s.drained_ready ready, State.takeClearAll, State.afterStartup, ready.1]
  rfl

theorem State.mem_trippedLines (s : State) (l : LineId) : l ∈ s.trippedLines ↔ (s.seq l).state = .tripped := by
  simp [State.trippedLines, line_mem_all]

/-- The members of the device set whose stretch still reads high (R150). -/
theorem State.stillStretched_iff (s : State) (d : DeviceTrip) :
    s.stillStretched d = decide (∃ l, d = .stretchTrip l ∧ s.stretchHigh l = true) := by
  cases d <;> simp [State.stillStretched]

theorem State.clearAllFails_eq (s : State) : s.clearAllFails = (if s.esd.far = .opened then [.esdIn] else [])
    ++ s.overfills.map DeviceTrip.overfill
    ++ s.device.filter fun d => decide (∃ l, d = .stretchTrip l ∧ s.stretchHigh l = true) := by
  unfold State.clearAllFails
  rw [List.filter_congr fun d _ => s.stillStretched_iff d]

theorem State.clearAllFails_nil (s : State) : s.clearAllFails = [] ↔
    s.esd.far = .closed ∧ s.overfills = [] ∧ ∀ l, DeviceTrip.stretchTrip l ∈ s.device → s.stretchHigh l = false := by
  have far : ((if s.esd.far = .opened then [DeviceTrip.esdIn] else []) = []) ↔ s.esd.far = .closed := by
    cases s.esd.far <;> decide
  rw [State.clearAllFails_eq, List.append_eq_nil_iff, List.append_eq_nil_iff, far, List.map_eq_nil_iff, and_assoc]
  refine and_congr_right fun _ => and_congr_right fun _ => ?_
  simp only [List.filter_eq_nil_iff, decide_eq_true_eq, not_exists, not_and, Bool.not_eq_true]
  exact ⟨fun h l hl => h _ hl l rfl, fun h d hd l e => h l (e ▸ hd)⟩

end Sys2Proof.Machine
end

section
/-! SUPPORT. CLEAR ALL taken and refused (R59, R150). -/

namespace Sys2Proof.Machine

/-- The state in which CLEAR ALL judges the lines: the device set empty. -/
def State.unheld (s : State) : State := if s.device = [] then s else s.emptyDevice

theorem State.unheld_of_empty {s : State} (h : s.device = []) : s.unheld = s := if_pos h

theorem State.unheld_of_set {s : State} (h : s.device ≠ []) : s.unheld = s.emptyDevice := if_neg h

theorem State.unheld_device (s : State) : s.unheld.device = [] := by
  by_cases h : s.device = []
  · rw [State.unheld_of_empty h, h]
  · rw [State.unheld_of_set h, State.emptyDevice_eq]

theorem State.unheld_fades (s : State) : Fades s s.unheld := by
  unfold State.unheld
  split
  · exact .refl
  · exact s.emptyDevice_fades

theorem State.unheld_eq (s : State) : s.unheld = { s with
    device := s.unheld.device, esd := s.unheld.esd, alarms := s.unheld.alarms, horn := s.unheld.horn
    notices := s.unheld.notices } ∧ s.unheld.esd.far = s.esd.far := by
  by_cases h : s.device = []
  · rw [State.unheld_of_empty h]
    exact ⟨rfl, rfl⟩
  · rw [State.unheld_of_set h, State.emptyDevice_eq]
    exact ⟨rfl, rfl⟩

theorem State.allCleared_elsewhere (s : State) : SameElsewhere s.unheld s.allCleared :=
  State.eachLine_elsewhere (fun t k => (t.clearIfFit_own k).elsewhere) _

theorem State.allCleared_fades (s : State) : Fades s.unheld s.allCleared :=
  Fades.foldl (fun t k => t.clearIfFit_fades k) _ _

/-- R59, R150: what CLEAR ALL makes of the lines. -/
theorem State.allCleared_swept (s : State) : LinesSwept s s.allCleared :=
  (State.sweep_swept s.unheld_device).since s.unheld_fades s.unheld_eq.2 s.unheld_eq.1

theorem State.allCleared_device (s : State) : s.allCleared.device = [] :=
  s.allCleared_elsewhere.device.trans s.unheld_device

theorem State.allCleared_port (s : State) : s.allCleared.port = s.port := by
  rw [s.allCleared_elsewhere.port, s.unheld_eq.1]

/-- A line that CLEAR ALL clears stands in its reply. -/
theorem State.clearedLines_ne_nil {s : State} {l : LineId} (fit : s.Fit l) : s.clearedLines ≠ [] := by
  refine List.ne_nil_of_mem (a := l) (List.mem_filter.mpr ⟨(s.mem_trippedLines l).mpr fit.1, ?_⟩)
  rw [decide_eq_true_eq, State.mem_trippedLines, (s.allCleared_swept.1 l fit).1]
  exact nofun

theorem State.clearedLines_nil {s : State} (unfit : ∀ l, ¬ s.Fit l) : s.clearedLines = [] := by
  refine List.filter_eq_nil_iff.mpr fun l hl => ?_
  rw [decide_eq_true_eq, not_not, State.mem_trippedLines, (s.allCleared_swept.2.1 l (unfit l)).1]
  exact (s.mem_trippedLines l).mp hl

/-- CLEAR ALL taken (R150): its reply waits over the state it leaves. -/
theorem execClearAll_taken {s : State} (ready : Ready s) (passes : s.device = [] ∨ s.clearAllFails = [])
    (any : s.device ≠ [] ∨ s.clearedLines ≠ [] ∨ s.trippedLines = []) :
    exec .clearAll s = .next { s.allCleared with
      port := replied s ("=" :: "CLEAR" :: "ALL" :: (s.clearedLines.map lineObject ++ s.allCleared.stayWords)) } := by
  rw [execClearAll_eq ready, if_neg (not_and_or.mpr (passes.imp not_not.mpr not_not.mpr)), if_pos any, State.take_eq, replied,
    s.allCleared_port]
  rfl

/-- R150: the conditions of the members of the emptied set. -/
theorem State.allCleared_absent {s : State} {d : DeviceTrip} (hd : d ∈ s.device) (ends : d.ends s) (distinct : AlarmsDistinct s) :
    ¬ AlarmPresent s.allCleared d.alarm.1 d.alarm.2 := by
  refine s.allCleared_fades.absent (s.unheld_fades.distinct distinct) _ _ ?_
  rw [State.unheld_of_set (List.ne_nil_of_mem hd)]
  exact State.emptyDevice_absent hd ends distinct

/-- R150, R154: no line holds STRETCH_TRIP that it held not before, and one that CLEAR ALL cleared has lost the condition. -/
theorem State.allCleared_stretch {s : State} {l : LineId} (hd : DeviceTrip.stretchTrip l ∈ s.device) (distinct : AlarmsDistinct s)
    (free : TripCause.stretchTrip ∉ (s.allCleared.seq l).trips) : ¬ AlarmPresent s.allCleared .stretchTrip (.line l) := by
  obtain ⟨cleared, stayed, -⟩ := s.allCleared_swept
  by_cases held : TripCause.stretchTrip ∈ (s.seq l).trips
  · by_cases fit : s.Fit l
    · obtain ⟨-, -, -, gone⟩ := cleared l fit
      exact gone distinct .stretchTrip held
    · rw [(stayed l fit).1] at free
      exact absurd held free
  · refine State.allCleared_absent hd ⟨by simp, fun k e => ?_⟩ distinct
    rw [← DeviceTrip.stretchTrip.inj e]
    exact held

/-- Settles O53: the sweep of the lines (`State.allCleared_swept`), after the emptied set (`State.emptyDevice_eq`). -/
theorem clearAllTaken : Obligations.ClearAllTaken := by
  refine ⟨fun s ready set far overfills calm => ?_, fun s ready empty which => ?_, fun s ready empty unfit tripped => ?_,
    fun s ready set failing => ?_⟩
  · have passes : s.clearAllFails = [] := s.clearAllFails_nil.mpr ⟨far, overfills, calm⟩
    have run := execClearAll_taken ready (.inr passes) (.inl set)
    have device := s.allCleared_device
    have swept := s.allCleared_swept
    have absent := fun d hd ends distinct => s.allCleared_absent (d := d) hd ends distinct
    have stretch := fun l hd distinct free => s.allCleared_stretch (l := l) hd distinct free
    have esd : s.allCleared.esd = { s.esd with contact := .closed } := by
      rw [s.allCleared_elsewhere.esd, State.unheld_of_set set, State.emptyDevice_eq]
    generalize s.allCleared = t at run device swept absent stretch esd
    have ⟨cleared, stayed, whole⟩ := swept
    refine ⟨_, _, run, device, esd, fun l tripped ended => ?_, fun l unfit => ?_, swept.answered _,
      fun distinct => ⟨fun hd => ?_, fun k hd => ?_, fun l hd free => ?_⟩, rfl, ?_, ?_, ?_, ?_, ?_⟩
    · exact (cleared l ⟨tripped, ended⟩).1
    · exact (stayed l fun fit => unfit.elim (· fit.1) (· fit.2)).1
    · exact absent .consoleEsd hd ⟨by simp, by simp⟩ distinct
    · exact absent (.overfill k) hd ⟨by simp, by simp⟩ distinct
    · exact stretch l hd distinct free
    · exact (congrArg State.tanks whole :)
    · exact (congrArg State.lineups whole :)
    · exact (congrArg State.link whole :)
    · exact (congrArg State.overfills whole).trans overfills
    · rw [whole]
      exact ⟨rfl, rfl, rfl, rfl, rfl, rfl⟩
  · have any : s.clearedLines ≠ [] ∨ s.trippedLines = [] := which.imp (fun ⟨l, fit⟩ => State.clearedLines_ne_nil fit)
      fun resting => List.eq_nil_iff_forall_not_mem.mpr fun l hl => resting l ((s.mem_trippedLines l).mp hl)
    have esd : s.allCleared.esd = s.esd := by rw [s.allCleared_elsewhere.esd, State.unheld_of_empty empty]
    have run := execClearAll_taken ready (.inl empty) (.inr any)
    have device := s.allCleared_device
    have swept := s.allCleared_swept
    generalize s.allCleared = t at run device swept esd
    exact ⟨_, _, run, device, esd, swept.answered _, rfl⟩
  · obtain ⟨l, hl⟩ := tripped
    have stays : s.trippedLines ≠ [] := List.ne_nil_of_mem ((s.mem_trippedLines l).mpr hl)
    rw [execClearAll_eq ready, if_neg (by simp [empty]), if_neg (by simp [empty, State.clearedLines_nil unfit, stays])]
    rfl
  · have fails : s.clearAllFails ≠ [] := fun passes => by
      obtain ⟨far, overfills, calm⟩ := s.clearAllFails_nil.mp passes
      rcases failing with opened | listed | ⟨l, hl, high⟩
      · rw [far] at opened; cases opened
      · exact listed overfills
      · rw [calm l hl] at high; cases high
    rw [execClearAll_eq ready, if_pos (c := s.device ≠ [] ∧ s.clearAllFails ≠ []) ⟨set, fails⟩, State.refuse_eq,
      s.clearAllFails_eq]
    rfl

end Sys2Proof.Machine
end

section
/-! SUPPORT. The end of a good exchange: the next exchange chosen (R124, R135), and the success counted and judged (R127, R128). -/

namespace Sys2Proof.Machine

/-! ### The next exchange -/

/-- R124: the choice of the next exchange changes the exchange in flight and the queues that it takes from. -/
theorem State.chooseNext_eq (s : State) : s.chooseNext = { s with link := { s.link with
    exchange := s.chooseNext.link.exchange, advices := s.chooseNext.link.advices, queries := s.chooseNext.link.queries
    poll := s.chooseNext.link.poll, polls := s.chooseNext.link.polls } } := by
  have polled (k : TankId) : s.pollTank k = { s with link := { s.link with
      exchange := (s.pollTank k).link.exchange, poll := (s.pollTank k).link.poll, polls := (s.pollTank k).link.polls } } := by
    unfold State.pollTank
    simp only []
    split <;> rfl
  have linked : s.chooseLinked = { s with link := { s.link with
      exchange := s.chooseLinked.link.exchange, advices := s.chooseLinked.link.advices
      queries := s.chooseLinked.link.queries, poll := s.chooseLinked.link.poll, polls := s.chooseLinked.link.polls } } := by
    unfold State.chooseLinked
    split
    · rfl
    · rfl
    · unfold State.choosePoll
      split
      · split
        · rfl
        · rw [polled]
      · rfl
      · rw [polled]
      · rfl
  unfold State.chooseNext
  split
  · rfl
  · rfl
  · split <;> rfl
  all_goals
    split
    · exact linked
    · rfl

theorem State.chooseNext_waits {s : State} (idle : s.link.exchange = none)
    (off : s.link.state = .down ∨ s.link.state ∈ [.good, .poor, .lost] ∧ s.link.gauging = .manual) : s.chooseNext = s := by
  simp only [List.mem_cons, List.not_mem_nil, or_false] at off
  rcases off with e | ⟨e | e | e, manual⟩ <;> simp [State.chooseNext, *]

theorem State.chooseNext_calls {s : State} (idle : s.link.exchange = none) (up : s.link.state ∈ [.good, .poor, .lost])
    (linked : s.link.gauging = .linked) : s.chooseNext = s.chooseLinked := by
  simp only [List.mem_cons, List.not_mem_nil, or_false] at up
  rcases up with e | e | e <;> simp [State.chooseNext, idle, e, linked]

/-- R124, R131, R135: with no exchange in flight, the next is begun as the link state and the gauging mode have it. -/
theorem State.chooseNext_begins {s : State} (idle : s.link.exchange = none) : NextBegins s s.chooseNext := by
  have same := s.chooseNext_eq
  have state : s.chooseNext.link.state = s.link.state := by rw [same]
  have gauging : s.chooseNext.link.gauging = s.link.gauging := by rw [same]
  have stays : ¬ (s.chooseNext.link.state = .lost ∧ s.link.state ≠ .lost) := fun h => h.2 (state ▸ h.1)
  have before : { s.chooseNext.link with
      exchange := none, advices := s.link.advices, queries := s.link.queries, poll := s.link.poll
      polls := s.link.polls } = s.link := by
    rw [same, ← idle]
  unfold NextBegins NextFrom
  simp only [if_neg stays, before]
  refine ⟨fun up linked => ?_, fun off => ?_, fun acquiring a ha => ?_⟩
  · rw [state] at up
    rw [gauging] at linked
    rw [State.chooseNext_calls idle up linked]
    exact s.chooseLinked_chosen.1
  · rw [state, gauging] at off
    rw [State.chooseNext_waits idle off]
  · rw [state] at acquiring
    have acq : s.link.acq = some a := by rw [← ha, same]
    have sent : s.chooseNext = s.sendQuery (nextTelegram a.header a.next) false := by
      simp [State.chooseNext, idle, acquiring, acq]
    rw [sent, nextTelegram_eq]
    rfl

/-- What follows the end of an exchange reads the tanks, the settings and the queues of the state before. -/
theorem NextBegins.since {s p t : State} (h : NextBegins p t) (tanks : p.tanks = s.tanks) (settings : p.settings = s.settings)
    (advices : p.link.advices = s.link.advices) (queries : p.link.queries = s.link.queries) (poll : p.link.poll = s.link.poll)
    (polls : p.link.polls = s.link.polls) (state : t.link.state = p.link.state)
    (lost : p.link.state = .lost → s.link.state = .lost) : NextBegins s t := by
  have kind (k : TankId) : p.tankState k = s.tankState k := by
    unfold State.tankState State.tank
    rw [tanks]
  have watched : watchedTank p = watchedTank s := by funext k; simp only [watchedTank, kind]
  have near : nearStopTank p = nearStopTank s := by funext k; simp only [nearStopTank, kind]
  have first : ¬ (t.link.state = .lost ∧ p.link.state ≠ .lost) := fun h => h.2 (state ▸ h.1)
  have last : ¬ (t.link.state = .lost ∧ s.link.state ≠ .lost) := fun h => h.2 (lost (state ▸ h.1))
  unfold NextBegins NextFrom at h ⊢
  simp only [watched, near, settings, advices, queries, poll, polls, if_neg first, if_neg last] at h ⊢
  exact h

end Sys2Proof.Machine
end

section
/-! SUPPORT. A good exchange counted and judged (R127, R128), and what it leaves of each line. -/

namespace Sys2Proof.Machine

/-! ### The link record -/

/-- R124, R134: the link record with no exchange in flight, the spacing counted. -/
def Link.ended (refresh : Bool) (k : Link) : Link := { k.space refresh with exchange := none }

/-- R128: the link record as the failures of its window have it, no failure run begun. -/
def Link.graded (k : Link) : Link := { k with
  state := match k.state with
    | .good => if 8 ≤ k.failures then .poor else .good
    | .poor => if k.failures ≤ 2 then .good else .poor
    | .down => .down
    | .acquiring => .acquiring
    | .lost => .lost }

/-- R127, R128: a success ends the loss of the link when it is the third. -/
def Link.returns (k : Link) : Prop := k.state = .lost ∧ 3 ≤ k.succRun

theorem State.modLinkNoticed_self {s : State} {f : Link → Link} (h : f s.link = s.link) : s.modLinkNoticed f = s := by
  unfold State.modLinkNoticed State.modLink
  rw [h]
  simp

/-- R128: the judgement that follows a success. -/
theorem State.judgeQuality_success {v : State} (run : v.link.failRun = 0) (count : 0 < v.link.lossCount) :
    (v.link.returns → v.judgeQuality = v.recoverLink)
    ∧ (¬ v.link.returns → v.judgeQuality = v.modLinkNoticed Link.graded) := by
  have unlost : ¬ v.link.lossCount ≤ v.link.failRun := by omega
  refine ⟨fun ⟨lost, third⟩ => ?_, fun stays => ?_⟩
  · unfold State.judgeQuality
    rw [lost]
    exact if_pos ⟨lost, third⟩
  · unfold State.judgeQuality
    cases e : v.link.state with
    | good =>
      simp only [if_neg unlost]
      split
      · next many => simp [State.modLinkNoticed, State.modLink, Link.graded, e, many]
      · next few => exact (State.modLinkNoticed_self (by simp only [Link.graded, e, if_neg few]; rw [← e])).symm
    | poor =>
      simp only [if_neg unlost]
      split
      · next few => simp [State.modLinkNoticed, State.modLink, Link.graded, e, few]
      · next many => exact (State.modLinkNoticed_self (by simp only [Link.graded, e, if_neg many]; rw [← e])).symm
    | lost =>
      have out : v.judgeRecovered = v := if_neg stays
      simp only [out]
      exact (State.modLinkNoticed_self (by simp only [Link.graded, e]; rw [← e])).symm
    | down => exact (State.modLinkNoticed_self (by simp only [Link.graded, e]; rw [← e])).symm
    | acquiring => exact (State.modLinkNoticed_self (by simp only [Link.graded, e]; rw [← e])).symm

/-! ### The lines -/

/-- From `s` to `c` the hold cause LINK at most has left line `l`, its pump permit re-judged. -/
structure Spared (l : LineId) (s c : State) : Prop where
  state : (c.seq l).state = (s.seq l).state
  permit : (c.seq l).permit = (s.seq l).permit
  holds : ∀ d, d ≠ .link → (d ∈ (c.seq l).holds ↔ d ∈ (s.seq l).holds)
  rate : c.rate l = s.rate l
  meas : c.meas l = s.meas l
  drive : c.drive l = s.drive l

/-- What the end of a good exchange leaves of the state beside the link record. -/
structure EndedWell (s c : State) : Prop where
  spared : ∀ l, Spared l s c
  distinct : AlarmsDistinct s → AlarmsDistinct c
  whole : c = { s with
    seqs := c.seqs, link := c.link, alarms := c.alarms, horn := c.horn, notices := c.notices }

theorem EndedWell.of_link {s c : State} (h : c = { s with link := c.link, notices := c.notices }) : EndedWell s c := by
  refine ⟨fun l => ?_, fun d => ?_, ?_⟩
  · rw [h]
    exact ⟨rfl, rfl, fun _ _ => Iff.rfl, rfl, rfl, rfl⟩
  · rw [h]
    exact d
  · rw [h]

theorem EndedWell.trans {s v c : State} (h : EndedWell s v) (g : EndedWell v c) : EndedWell s c := by
  refine ⟨fun l => ?_, g.distinct ∘ h.distinct, ?_⟩
  · have a := h.spared l
    have b := g.spared l
    exact ⟨b.state.trans a.state, b.permit.trans a.permit, fun d hd => (b.holds d hd).trans (a.holds d hd),
      b.rate.trans a.rate, b.meas.trans a.meas, b.drive.trans a.drive⟩
  · rw [g.whole, h.whole]

theorem State.recoverLink_seq (s : State) (l : LineId) : s.recoverLink.seq l =
    { s.seq l with holds := setErase .link (s.seq l).holds, pump := pumpPermit (s.seq l) s.esd.loop } := by
  rw [s.recoverLink_back, State.eachLine_modSeq_seq]
  simp [State.back, pumpPermit]

/-- R129: the return of the link. -/
theorem State.recoverLink_endedWell (s : State) : EndedWell s s.recoverLink := by
  have whole := s.recoverLink_eq
  have back : AlarmsDistinct s → AlarmsDistinct s.back := fun d =>
    State.alarmGone_distinct _ _ _ (by unfold AlarmsDistinct; simpa using d)
  have seq := s.recoverLink_seq
  generalize s.recoverLink = c at whole seq ⊢
  refine ⟨fun l => ⟨?_, ?_, fun d hd => ?_, ?_, ?_, ?_⟩, fun d => ?_, ?_⟩
  · rw [seq]
  · rw [seq]
  · rw [seq, mem_setErase, and_iff_left hd]
  · rw [whole]; rfl
  · rw [whole]; rfl
  · rw [whole]; rfl
  · rw [AlarmsDistinct, whole]; exact back d
  · rw [whole]

/-! ### The end of a good exchange -/

/-- R124, R127: the state with the exchange ended and counted as a success, before the link is judged. -/
def State.succeeded (s : State) (refresh : Bool) : State :=
  s.modLink fun k => (k.ended refresh).count false s.settings.linkloss

/-- R124, R127: a link state in which no exchange is counted. -/
theorem State.closeExchange_uncounted {s : State} (refresh : Bool) (h : s.link.state.counts = false) :
    s.closeExchange refresh false = s.modLink (Link.ended refresh) := by
  unfold State.closeExchange State.countOutcome
  exact if_neg (by simp [Link.space, h])

theorem State.closeExchange_counted {s : State} (refresh : Bool) (h : s.link.state.counts = true) :
    s.closeExchange refresh false = (s.succeeded refresh).judgeQuality := by
  unfold State.closeExchange State.countOutcome
  exact if_pos (by simp [Link.space, h])

theorem State.closeGood_endedWell {s : State} (refresh : Bool) (loss : 0 < s.settings.linkloss) :
    EndedWell s (s.closeExchange refresh false) := by
  cases h : s.link.state.counts with
  | false =>
    rw [State.closeExchange_uncounted refresh h]
    exact .of_link rfl
  | true =>
    rw [State.closeExchange_counted refresh h]
    have counted : EndedWell s (s.succeeded refresh) := .of_link rfl
    obtain ⟨back, stays⟩ := State.judgeQuality_success (v := s.succeeded refresh) rfl loss
    by_cases third : (s.succeeded refresh).link.returns
    · rw [back third]
      exact counted.trans (State.recoverLink_endedWell _)
    · rw [stays third]
      refine counted.trans (.of_link ?_)
      apply State.eq_of_fields <;> simp

/-- R127, R128: the link record once a success has been judged. -/
theorem State.closeGood_link {s : State} (refresh : Bool) (loss : 0 < s.settings.linkloss) :
    (s.closeExchange refresh false).link =
      if s.link.state.counts = true then
        let k := (s.link.ended refresh).count false s.settings.linkloss
        if k.state = .lost ∧ 3 ≤ k.succRun then { k with state := .good, window := [], failRun := 0 } else k.graded
      else s.link.ended refresh := by
  split
  · next h =>
    rw [State.closeExchange_counted refresh h]
    obtain ⟨back, stays⟩ := State.judgeQuality_success (v := s.succeeded refresh) rfl loss
    simp only []
    split
    · next third =>
      rw [back third, State.recoverLink_eq]
      rfl
    · next short =>
      rw [stays short, State.modLinkNoticed_link]
      rfl
  · next h =>
    rw [State.closeExchange_uncounted refresh (by simpa using h)]
    rfl

/-- R128, R129: the third success in a row brings the link back, and LINK leaves every line. -/
theorem State.closeGood_returns {s : State} (refresh : Bool) (loss : 0 < s.settings.linkloss) (lost : s.link.state = .lost)
    (third : 3 ≤ min 3 (s.link.succRun + 1)) (l : LineId) : HoldCause.link ∉ ((s.closeExchange refresh false).seq l).holds := by
  have returns : (s.succeeded refresh).link.returns := by
    refine ⟨lost, ?_⟩
    simpa [State.succeeded, Link.count, Link.ended, Link.space, lost] using third
  rw [State.closeExchange_counted refresh (by rw [lost]; rfl),
    (State.judgeQuality_success (v := s.succeeded refresh) rfl loss).1 returns, State.recoverLink_seq, mem_setErase]
  exact fun h => h.2 rfl

end Sys2Proof.Machine
end

section
/-! SUPPORT. A good PERMIT reply (R60, R126, R137): the STOP flag handed to the lines, and the permit. -/

namespace Sys2Proof.Machine

/-! ### A hold cause handed with the permit cleared -/

/-- R126, R129: a hold cause handed to a line whose ship permit is cleared. -/
def State.heldOff (s : State) (l : LineId) (c : HoldCause) : State := (s.addHold l c).clearPermit l

theorem State.heldOff_own (s : State) (l : LineId) (c : HoldCause) : Own l s (s.heldOff l c) :=
  (s.addHold_own l c).trans ((s.addHold l c).clearPermit_own l)

theorem State.heldOff_line (s : State) (l : LineId) (c : HoldCause) :
    ((s.heldOff l c).seq l).permit = false ∧ HoldHanded c s (s.heldOff l c) l := by
  have cleared : (s.heldOff l c).seq l = { (s.addHold l c).seq l with permit := false, pump := false } :=
    (s.addHold l c).clearPermit_seq l
  have alarms : (s.heldOff l c).alarms = (s.addHold l c).alarms := by simp [State.heldOff, State.clearPermit]
  refine ⟨by rw [cleared], (s.addHold_handed l c).later cleared (by simp [cleared, pumpPermit]) ?_ ?_ ?_
    (AlarmPresent.congr alarms _ _).mp (State.modSeq_subset _ _ _)⟩
  all_goals simp [State.heldOff, State.clearPermit]

theorem State.heldOff_aside (s : State) {l k : LineId} (c : HoldCause) (other : l ≠ k) : Aside l s (s.heldOff k c) := by
  refine (s.heldOff_own k c).aside other fun x => ?_
  rw [← s.addHold_alarmPresent k c (line_object_ne other _ _)]
  exact AlarmPresent.congr (by simp [State.heldOff, State.clearPermit]) _ _

/-! ### The STOP flag (R126) -/

/-- R126: what the STOP flag does on one line. -/
def State.stopOn (s : State) (stop : Bool) (l : LineId) : State := if stop then s.heldOff l .ship else s.dropHold l .ship

theorem State.stopOn_own (s : State) (stop : Bool) (l : LineId) : Own l s (s.stopOn stop l) := by
  cases stop
  · exact s.dropHold_own l _
  · exact s.heldOff_own l _

theorem State.stopOn_aside (s : State) (stop : Bool) {l k : LineId} (other : l ≠ k) : Aside l s (s.stopOn stop k) := by
  cases stop
  · exact s.dropHold_aside _ other
  · exact s.heldOff_aside _ other

/-- R126: the flag kept, before the lines are told. -/
def State.stopRead (s : State) (stop : Bool) : State := s.modLinkNoticed fun k => { k with stop := some stop }

theorem State.takeStop_eq (s : State) (stop : Bool) : s.takeStop stop = (s.stopRead stop).eachLine fun s l => s.stopOn stop l := rfl

theorem State.takeStop_elsewhere (s : State) (stop : Bool) : SameElsewhere (s.stopRead stop) (s.takeStop stop) :=
  State.eachLine_elsewhere (fun t k => (t.stopOn_own stop k).elsewhere) _

theorem State.takeStop_link (s : State) (stop : Bool) : (s.takeStop stop).link = { s.link with stop := some stop } := by
  rw [(s.takeStop_elsewhere stop).link, State.stopRead, State.modLinkNoticed_link]

theorem State.stopRead_alike (s : State) (stop : Bool) (l : LineId) : Alike l s (s.stopRead stop) := by
  constructor
  case distinct => exact fun d => by unfold AlarmsDistinct State.stopRead; simpa using d
  all_goals simp [State.stopRead]

/-- R126, R47, R48, R60: what the STOP flag brings a line. -/
theorem State.takeStop_line (s : State) (stop : Bool) (l : LineId) :
    (stop = true → ((s.takeStop stop).seq l).permit = false ∧ HoldHanded .ship s (s.takeStop stop) l)
    ∧ (stop = false →
        (s.takeStop stop).seq l =
          { s.seq l with holds := setErase .ship (s.seq l).holds, pump := pumpPermit (s.seq l) s.esd.loop }
        ∧ (s.takeStop stop).drive l = s.drive l ∧ (s.takeStop stop).rate l = s.rate l
        ∧ (s.takeStop stop).meas l = s.meas l) := by
  obtain ⟨a, before, after⟩ := (s.stopRead stop).eachLine_around (l := l) fun t k other => t.stopOn_aside stop other
  rw [← s.takeStop_eq] at after
  have alike := (s.stopRead_alike stop l).trans before.alike
  refine ⟨fun on => ?_, fun off => ?_⟩
  · subst on
    obtain ⟨permit, handed⟩ := a.heldOff_line l .ship
    refine ⟨?_, (handed.after alike).before after⟩
    rw [after.seq]
    exact permit
  · subst off
    have dropped : a.stopOn false l = a.dropHold l .ship := rfl
    rw [dropped] at after
    refine ⟨?_, ?_, ?_, ?_⟩
    · rw [after.seq, State.dropHold_seq, if_pos rfl, alike.seq, alike.esd]
    · rw [after.drive, ← alike.drive]; simp [State.dropHold]
    · rw [after.rate, ← alike.rate]; simp [State.dropHold]
    · rw [after.meas, ← alike.meas]; simp [State.dropHold]

/-- R126: the STOP flag hands no other hold cause. -/
theorem State.takeStop_holds (s : State) (stop : Bool) (l : LineId) {d : HoldCause} (other : d ≠ .ship) :
    d ∈ ((s.takeStop stop).seq l).holds ↔ d ∈ (s.seq l).holds := by
  obtain ⟨on, off⟩ := s.takeStop_line stop l
  cases stop with
  | false => rw [(off rfl).1, mem_setErase, and_iff_left other]
  | true =>
    obtain ⟨-, -, -, -, -, others, -⟩ := on rfl
    exact others d other

/-! ### The permit (R60, R137) -/

/-- R137: the outcome of a good reply to a line that asks for its permit. -/
def permitEnd (granted stop : Bool) : PermitOutcome := if granted then (if stop then .stopped else .granted) else .denied

/-- R60, R137: the permit of a line that asks for it. -/
theorem State.takePermit_asked {s : State} {l : LineId} (granted stop : Bool) (asks : (s.seq l).state.asksPermit = true) :
    s.takePermit l granted stop =
      (s.modSeq l fun q => { q with permit := granted && !stop }).setOutcome l (permitEnd granted stop) := by
  unfold State.takePermit
  rw [if_pos asks]
  cases granted <;> cases stop <;> rfl

theorem State.takePermit_late {s : State} {l : LineId} (granted stop : Bool) (late : ¬ (s.seq l).state.asksPermit = true) :
    s.takePermit l granted stop = s.setOutcome l .late := if_neg late

theorem State.setOutcome_subset (s : State) (l : LineId) (o : PermitOutcome) : s.notices ⊆ (s.setOutcome l o).notices := by
  unfold State.setOutcome
  split
  · exact List.Subset.refl _
  · exact State.notify_subset (s.modLink _) _

theorem State.takePermit_eq (s : State) (l : LineId) (granted stop : Bool) : s.takePermit l granted stop = { s with
    seqs := (s.takePermit l granted stop).seqs
    link := { s.link with outcomes := (s.takePermit l granted stop).link.outcomes }
    notices := (s.takePermit l granted stop).notices } := by
  by_cases asks : (s.seq l).state.asksPermit = true
  · rw [State.takePermit_asked granted stop asks, State.setOutcome_eq]
    apply State.eq_of_fields <;> simp
  · rw [State.takePermit_late granted stop asks, State.setOutcome_eq]

theorem State.takePermit_subset (s : State) (l : LineId) (granted stop : Bool) :
    s.notices ⊆ (s.takePermit l granted stop).notices := by
  by_cases asks : (s.seq l).state.asksPermit = true
  · rw [State.takePermit_asked granted stop asks]
    exact List.Subset.trans (State.modSeq_subset _ _ _) (State.setOutcome_subset _ _ _)
  · rw [State.takePermit_late granted stop asks]
    exact State.setOutcome_subset _ _ _

theorem State.takePermit_outcome (s : State) (l j : LineId) (granted stop : Bool) :
    vget (s.takePermit l granted stop).link.outcomes j =
      if j = l then some (if (s.seq l).state.asksPermit = true then permitEnd granted stop else .late)
      else vget s.link.outcomes j := by
  by_cases asks : (s.seq l).state.asksPermit = true
  · rw [State.takePermit_asked granted stop asks, State.setOutcome_eq, if_pos asks]
    simp
  · rw [State.takePermit_late granted stop asks, State.setOutcome_eq, if_neg asks]
    simp

theorem State.takePermit_seq (s : State) (l j : LineId) (granted stop : Bool) : (s.takePermit l granted stop).seq j =
    if j = l ∧ (s.seq l).state.asksPermit = true then
      { s.seq l with permit := granted && !stop
                     pump := pumpPermit { s.seq l with permit := granted && !stop } s.esd.loop }
    else s.seq j := by
  by_cases asks : (s.seq l).state.asksPermit = true
  · rw [State.takePermit_asked granted stop asks, State.setOutcome_seq, State.modSeq_seq]
    simp [asks]
  · rw [State.takePermit_late granted stop asks, State.setOutcome_seq, if_neg fun h => asks h.2]

end Sys2Proof.Machine
end

section
/-! SUPPORT. The end of a good PERMIT exchange (R60, R126 to R128, R135, R137), stage by stage. -/

namespace Sys2Proof.Machine

/-! ### The success judged, as it stands at the end -/

/-- R127, R128: the success as a later state has it, of which the link record keeps what was judged. -/
theorem outcomeJudged_of_success {s t : State} {refresh : Bool} (loss : 0 < s.settings.linkloss)
    (state : t.link.state = (s.closeExchange refresh false).link.state)
    (window : t.link.window = (s.closeExchange refresh false).link.window)
    (failRun : t.link.failRun = (s.closeExchange refresh false).link.failRun)
    (succRun : t.link.succRun = (s.closeExchange refresh false).link.succRun)
    (lossCount : t.link.lossCount = (s.closeExchange refresh false).link.lossCount)
    (back : s.link.state = .lost → 3 ≤ min 3 (s.link.succRun + 1) → ∀ l, HoldCause.link ∉ (t.seq l).holds) :
    OutcomeJudged false s t := by
  rw [State.closeGood_link refresh loss] at state window failRun succRun lossCount
  unfold OutcomeJudged
  simp only [Bool.false_eq_true, if_false, List.mem_cons, List.not_mem_nil, or_false]
  refine ⟨fun up => ⟨fun lost => absurd lost (by omega), fun _ => ?_⟩, fun up => ?_, fun up => ?_, fun lost =>
    ⟨fun third => ⟨?_, ?_, ?_, back lost third⟩, fun short => ?_⟩, fun down => ?_⟩
  · rcases up with e | e <;> simp [state, e, Link.count, Link.ended, Link.space, Link.graded, Link.failures, LinkState.counts]
  · rcases up with e | e <;> simp [failRun, window, e, Link.count, Link.ended, Link.space, Link.graded, LinkState.counts]
  · rcases up with e | e | e <;> rw [lossCount] <;> simp [e, Link.count, Link.ended, Link.space, Link.graded, LinkState.counts]
    split <;> rfl
  · rw [state]; simp [lost, third, Link.count, Link.ended, Link.space, LinkState.counts]
  · rw [window]; simp [lost, third, Link.count, Link.ended, Link.space, LinkState.counts]
  · rw [failRun]; simp [lost, third, Link.count, Link.ended, Link.space, LinkState.counts]
  · have few : ¬ 3 ≤ min 3 (s.link.succRun + 1) := by omega
    simp [state, window, failRun, succRun, lost, few, Link.count, Link.ended, Link.space, Link.graded, LinkState.counts]
  · simp [state, window, failRun, succRun, lossCount, down, Link.ended, Link.space, LinkState.counts]

/-- R128: a window alone loses no link. -/
theorem Link.lost_of_graded {k : Link} (h : k.graded.state = .lost) : k.state = .lost := by
  cases e : k.state with
  | good | poor =>
    simp only [Link.graded, e] at h
    split at h <;> cases h
  | down | acquiring =>
    simp only [Link.graded, e] at h
    cases h
  | lost => rfl

/-- R124, R127, R134: what the end of a good exchange leaves of the link record beside the judgement. -/
theorem State.closeGood_queues {s : State} (refresh : Bool) (loss : 0 < s.settings.linkloss) :
    let k := (s.closeExchange refresh false).link
    k.exchange = none ∧ k.advices = s.link.advices ∧ k.queries = s.link.queries ∧ k.poll = s.link.poll
      ∧ k.polls = s.link.polls ∧ k.outcomes = s.link.outcomes ∧ k.refresh = s.link.refresh
      ∧ k.spacing = (if refresh = true then 0 else min 15 (s.link.spacing + 1))
      ∧ (k.state = .lost → s.link.state = .lost) := by
  rw [State.closeGood_link refresh loss]
  simp only []
  split
  · split
    · exact ⟨rfl, rfl, rfl, rfl, rfl, rfl, rfl, rfl, nofun⟩
    · exact ⟨rfl, rfl, rfl, rfl, rfl, rfl, rfl, rfl, fun lost =>
        Link.lost_of_graded (k := (s.link.ended refresh).count false _) lost⟩
  · exact ⟨rfl, rfl, rfl, rfl, rfl, rfl, rfl, rfl, id⟩

/-! ### The STOP flag, as it stands at the end -/

theorem HeldOnProfile.since {c : HoldCause} {s a t : State} {l : LineId} (g : EndedWell s a) (h : HeldOnProfile c a t l) :
    HeldOnProfile c s t l := by
  obtain ⟨state, holds, pump, drive, pending, left, stay⟩ := h
  have line := g.spared l
  have fresh : a.freshTClose l = s.freshTClose l := State.freshTClose_congr (by rw [g.whole]) (by rw [g.whole])
    (by rw [line.meas]) (by rw [line.drive])
  have esd : a.esd = s.esd := by rw [g.whole]
  have port : a.port = s.port := by rw [g.whole]
  rw [line.state, line.meas, line.rate] at left stay
  rw [port] at left
  rw [esd] at pump
  rw [fresh, line.drive] at drive
  rw [line.rate] at pending
  refine ⟨state, holds, pump, drive, pending, fun out => ?_, stay⟩
  obtain ⟨meas, rate, alarm, notice⟩ := left out
  exact ⟨meas, rate, alarm ∘ g.distinct, notice⟩

/-- What the end of a PERMIT exchange leaves of the lines once they have been told of STOP: a permit at most, and that of a line
in CONNECTED or HELD. -/
structure PermitLeft (w t : State) : Prop where
  state : ∀ l, (t.seq l).state = (w.seq l).state
  holds : ∀ l, (t.seq l).holds = (w.seq l).holds
  apart : ∀ l, (w.seq l).state ∉ [.connected, .held] → t.seq l = w.seq l
  rates : t.rates = w.rates
  meass : t.meass = w.meass
  drives : t.drives = w.drives
  alarms : t.alarms = w.alarms
  notices : w.notices ⊆ t.notices

theorem PermitLeft.line {w t : State} (h : PermitLeft w t) (l : LineId) :
    t.drive l = w.drive l ∧ t.rate l = w.rate l ∧ t.meas l = w.meas l :=
  ⟨congrArg (vget · l) h.drives, congrArg (vget · l) h.rates, congrArg (vget · l) h.meass⟩

theorem HeldOnProfile.until {c : HoldCause} {s w t : State} {l : LineId} (h : HeldOnProfile c s w l) (g : PermitLeft w t) :
    HeldOnProfile c s t l := by
  obtain ⟨state, holds, pump, drive, pending, left⟩ := h
  have seq := g.apart l (by rw [state]; decide)
  obtain ⟨sameDrive, sameRate, sameMeas⟩ := g.line l
  refine ⟨seq ▸ state, seq ▸ holds, by rw [seq]; exact pump, sameDrive.trans drive, by rw [sameRate]; exact pending,
    left.later sameMeas (by rw [sameRate]) (AlarmPresent.congr g.alarms _ _).mp g.notices⟩

/-- R126: the STOP flag, from the state before the exchange was counted to the one in which the permit has been judged. -/
theorem stopTaken_of_stages {s c t : State} {stop : Bool} (ended : EndedWell s c) (left : PermitLeft (c.takeStop stop) t)
    (off : stop = true → ∀ l, (t.seq l).permit = false) : StopTaken stop s t := by
  intro l
  have spared := ended.spared l
  obtain ⟨on, dropped⟩ := c.takeStop_line stop l
  obtain ⟨drive, rate, meas⟩ := left.line l
  refine ⟨fun st => ⟨off st l, fun takes => ?_, fun moving new => ?_⟩, fun st => ?_, fun _ calm => ?_⟩
  · obtain ⟨-, handed⟩ := on st
    obtain ⟨-, -, joins, -⟩ := handed
    rw [left.holds]
    exact joins (by rw [spared.state]; exact takes)
  · obtain ⟨-, begins, -⟩ := on st
    have held := begins ⟨by rw [spared.state]; exact moving, mt (spared.holds _ (by decide)).mp new⟩
    exact (held.since ended).until left
  · obtain ⟨seq, -⟩ := dropped st
    rw [left.holds, seq, mem_setErase]
    exact fun h => h.2 rfl
  · rw [left.state, drive, rate, meas, ← spared.state, ← spared.drive, ← spared.rate, ← spared.meas]
    cases stop with
    | true =>
      obtain ⟨-, -, stays, -⟩ := on rfl
      refine stays fun ⟨moving, new⟩ => ?_
      rcases calm with h | h | h
      · cases h
      · exact h (spared.state ▸ moving)
      · exact new ((spared.holds _ (by decide)).mpr h)
    | false =>
      obtain ⟨seq, sameDrive, sameRate, sameMeas⟩ := dropped rfl
      exact ⟨by rw [seq], sameDrive, sameRate, sameMeas⟩

/-! ### The end of the exchange -/

/-- R124: the end of a good PERMIT exchange, before the next one is chosen. -/
def State.permitJudged (s : State) (refresh : Bool) (l : LineId) (granted stop : Bool) : State :=
  ((s.closeExchange refresh false).takeStop stop).takePermit l granted stop

theorem execPermitReply_good {s : State} {x : Exchange} {tele : List Byte} {stop granted : Bool} {l : LineId}
    (sent : s.link.exchange = some x) (whole : x.part = none) (query : x.query = .permit l)
    (good : readReply (.permit l) tele = some { stop := stop, more := false, body := .permit granted }) :
    exec (.permitReply tele) s = .next (s.permitJudged x.refresh l granted stop).chooseNext := by
  have taken : s.takeReply Query.isPermit false tele = s.endGood x stop (.permit granted) := by
    simp [State.takeReply, sent, whole, query, good, Query.isPermit]
  have judged : s.endGood x stop (.permit granted) = (s.permitJudged x.refresh l granted stop).chooseNext := by
    simp [State.endGood, State.takeBody, State.permitJudged, query]
  exact congrArg Host.Outcome.next (taken.trans judged)

section Stages

variable {s : State} {l : LineId} {refresh granted stop : Bool}

theorem State.permitJudged_link : (s.permitJudged refresh l granted stop).link = { (s.closeExchange refresh false).link with
    stop := some stop, outcomes := (s.permitJudged refresh l granted stop).link.outcomes } := by
  have link := congrArg State.link (State.takePermit_eq ((s.closeExchange refresh false).takeStop stop) l granted stop)
  rw [State.takeStop_link] at link
  exact link

theorem State.permitJudged_left : PermitLeft ((s.closeExchange refresh false).takeStop stop)
    (s.permitJudged refresh l granted stop).chooseNext := by
  unfold State.permitJudged
  generalize (s.closeExchange refresh false).takeStop stop = w
  have seq (j : LineId) : ((w.takePermit l granted stop).chooseNext).seq j = (w.takePermit l granted stop).seq j := by
    rw [State.chooseNext_eq]
    rfl
  have whole := w.takePermit_eq l granted stop
  refine ⟨fun j => ?_, fun j => ?_, fun j out => ?_, ?_, ?_, ?_, ?_, ?_⟩
  · rw [seq, State.takePermit_seq]
    split
    · next h => rw [h.1]
    · rfl
  · rw [seq, State.takePermit_seq]
    split
    · next h => rw [h.1]
    · rfl
  · rw [seq, State.takePermit_seq, if_neg fun h => out ?_]
    rw [h.1]
    exact LineState.asksPermit_iff.mp h.2
  · rw [State.chooseNext_eq, whole]
  · rw [State.chooseNext_eq, whole]
  · rw [State.chooseNext_eq, whole]
  · rw [State.chooseNext_eq, whole]
  · rw [State.chooseNext_eq]
    exact w.takePermit_subset l granted stop

variable (loss : 0 < s.settings.linkloss)
include loss

/-- R48: a line in CONNECTED or HELD stays so while STOP is told, and no other line joins it. -/
theorem State.stopTold_asks (j : LineId) : (((s.closeExchange refresh false).takeStop stop).seq j).state.asksPermit
    = (s.seq j).state.asksPermit := by
  have spared := (State.closeGood_endedWell refresh loss).spared j
  obtain ⟨on, off⟩ := (s.closeExchange refresh false).takeStop_line stop j
  cases stop with
  | false => rw [(off rfl).1, spared.state]
  | true =>
    obtain ⟨-, begins, stays, -⟩ := on rfl
    rw [← spared.state]
    by_cases new : ((s.closeExchange refresh false).seq j).state ∈ [.opening, .delivering]
        ∧ HoldCause.ship ∉ ((s.closeExchange refresh false).seq j).holds
    · obtain ⟨holding, -⟩ := begins new
      have moving := new.1
      simp only [List.mem_cons, List.not_mem_nil, or_false] at moving
      rcases moving with e | e <;> rw [holding, e] <;> rfl
    · rw [(stays new).1]

/-- R60, R126: the permits as STOP leaves them. -/
theorem State.stopTold_permit (j : LineId) :
    (((s.closeExchange refresh false).takeStop stop).seq j).permit = ((s.seq j).permit && !stop) := by
  have spared := (State.closeGood_endedWell refresh loss).spared j
  obtain ⟨on, off⟩ := (s.closeExchange refresh false).takeStop_line stop j
  cases stop with
  | false => simp [(off rfl).1, spared.permit]
  | true => simp [(on rfl).1]

/-- R60, R137: the permits at the end of the exchange. -/
theorem State.permitJudged_permit (j : LineId) : ((s.permitJudged refresh l granted stop).chooseNext.seq j).permit =
    if j = l ∧ (s.seq l).state.asksPermit = true then granted && !stop else (s.seq j).permit && !stop := by
  have seq : (s.permitJudged refresh l granted stop).chooseNext.seq j = (s.permitJudged refresh l granted stop).seq j := by
    rw [State.chooseNext_eq]
    rfl
  rw [seq, State.permitJudged, State.takePermit_seq, State.stopTold_asks loss]
  split
  · rfl
  · exact State.stopTold_permit loss j

/-- R137: the outcomes at the end of the exchange. -/
theorem State.permitJudged_outcome (j : LineId) :
    vget (s.permitJudged refresh l granted stop).chooseNext.link.outcomes j =
      if j = l then some (if (s.seq l).state.asksPermit = true then permitEnd granted stop else .late)
      else vget s.link.outcomes j := by
  have outcomes : (s.permitJudged refresh l granted stop).chooseNext.link.outcomes =
      (s.permitJudged refresh l granted stop).link.outcomes := by
    rw [State.chooseNext_eq]
  obtain ⟨-, -, -, -, -, before, -⟩ := State.closeGood_queues (s := s) refresh loss
  rw [outcomes, State.permitJudged, State.takePermit_outcome, State.stopTold_asks loss, State.takeStop_link, before]

/-- What a good PERMIT exchange leaves as it was. -/
theorem State.permitJudged_elsewhere : (s.permitJudged refresh l granted stop).chooseNext = { s with
    seqs := (s.permitJudged refresh l granted stop).chooseNext.seqs
    rates := (s.permitJudged refresh l granted stop).chooseNext.rates
    meass := (s.permitJudged refresh l granted stop).chooseNext.meass
    drives := (s.permitJudged refresh l granted stop).chooseNext.drives
    link := (s.permitJudged refresh l granted stop).chooseNext.link
    alarms := (s.permitJudged refresh l granted stop).chooseNext.alarms
    horn := (s.permitJudged refresh l granted stop).chooseNext.horn
    notices := (s.permitJudged refresh l granted stop).chooseNext.notices } := by
  have closed := (State.closeGood_endedWell (s := s) refresh loss).whole
  have told := (s.closeExchange refresh false).takeStop_elsewhere stop
  have judged := ((s.closeExchange refresh false).takeStop stop).takePermit_eq l granted stop
  have chosen := (s.permitJudged refresh l granted stop).chooseNext_eq
  change s.permitJudged refresh l granted stop = _ at judged
  have read : (s.closeExchange refresh false).stopRead stop = { s.closeExchange refresh false with
      link := ((s.closeExchange refresh false).stopRead stop).link
      notices := ((s.closeExchange refresh false).stopRead stop).notices } := by
    unfold State.stopRead
    apply State.eq_of_fields <;> simp
  generalize (s.permitJudged refresh l granted stop).chooseNext = t at chosen ⊢
  generalize s.permitJudged refresh l granted stop = p at judged chosen
  generalize (s.closeExchange refresh false).takeStop stop = w at told judged
  generalize (s.closeExchange refresh false).stopRead stop = v at read told
  generalize s.closeExchange refresh false = c at closed read
  rw [chosen, judged, told.eq, read, closed]

end Stages

/-- Settles O49: the success counted, the STOP flag handed on and the permit judged, each with what it leaves (`EndedWell`,
`State.takeStop_line`, `PermitLeft`), and the next exchange chosen. -/
theorem permitReplyTaken : Obligations.PermitReplyTaken := by
  intro s x tele stop granted l sent unparted query loss good
  have run := execPermitReply_good sent unparted query good
  have permit := fun j => State.permitJudged_permit (refresh := x.refresh) (l := l) (granted := granted) (stop := stop) loss j
  have outcome := fun j => State.permitJudged_outcome (refresh := x.refresh) (l := l) (granted := granted) (stop := stop) loss j
  have whole := State.permitJudged_elsewhere (refresh := x.refresh) (l := l) (granted := granted) (stop := stop) loss
  have left := State.permitJudged_left (s := s) (l := l) (refresh := x.refresh) (granted := granted) (stop := stop)
  have link := State.permitJudged_link (s := s) (l := l) (refresh := x.refresh) (granted := granted) (stop := stop)
  have chosen := (s.permitJudged x.refresh l granted stop).chooseNext_eq
  obtain ⟨idle, advices, queries, poll, polls, -, refresh, spacing, lost⟩ := State.closeGood_queues (s := s) x.refresh loss
  have back : s.link.state = .lost → 3 ≤ min 3 (s.link.succRun + 1) →
      ∀ j, HoldCause.link ∉ ((s.permitJudged x.refresh l granted stop).chooseNext.seq j).holds := fun down third j => by
    rw [left.holds, State.takeStop_holds _ _ _ (by decide)]
    exact State.closeGood_returns x.refresh loss down third j
  have stopTaken := stopTaken_of_stages (State.closeGood_endedWell x.refresh loss) left
  have judged := fun t => outcomeJudged_of_success (s := s) (t := t) (refresh := x.refresh) loss
  have next := State.chooseNext_begins (s := s.permitJudged x.refresh l granted stop) (by rw [link]; exact idle)
  generalize (s.permitJudged x.refresh l granted stop).chooseNext = t at *
  generalize s.permitJudged x.refresh l granted stop = p at *
  generalize (s.closeExchange x.refresh false).link = k at *
  have told : t.link = { k with
      stop := some stop, outcomes := p.link.outcomes, exchange := t.link.exchange, advices := t.link.advices
      queries := t.link.queries, poll := t.link.poll, polls := t.link.polls } := by
    rw [chosen]
    simp only []
    rw [link]
  have tanks : p.tanks = s.tanks := by
    rw [← congrArg State.tanks whole, chosen]
  have settings : p.settings = s.settings := by
    rw [← congrArg State.settings whole, chosen]
  refine ⟨t, run, by rw [told], fun asks => ?_, fun late => ?_, fun j other => ⟨?_, ?_⟩, stopTaken fun on j => ?_,
    judged t (by rw [told]) (by rw [told]) (by rw [told]) (by rw [told]) (by rw [told]) back,
    next.since tanks settings (by rw [link]; exact advices) (by rw [link]; exact queries) (by rw [link]; exact poll)
      (by rw [link]; exact polls) (by rw [chosen]) (by rw [link]; exact lost),
    by rw [told]; exact refresh, by rw [told]; exact spacing, ?_⟩
  · have yes := LineState.asksPermit_iff.mpr asks
    rw [permit, outcome, if_pos ⟨rfl, yes⟩, if_pos rfl, if_pos yes]
    exact ⟨rfl, rfl⟩
  · have no := mt LineState.asksPermit_iff.mp late
    rw [permit, outcome, if_neg fun h => no h.2, if_pos rfl, if_neg no]
    exact ⟨rfl, rfl⟩
  · rw [permit, if_neg fun h => other h.1]
  · rw [outcome, if_neg other]
  · rw [permit, on]
    simp
  · rw [whole]
    exact ⟨rfl, rfl, rfl, ⟨rfl, rfl, rfl, rfl, rfl, rfl⟩, rfl, rfl, rfl⟩

end Sys2Proof.Machine
end

section
/-! SUPPORT. The takeover taken alone (R69, R70) and the loop modes (R71). -/

namespace Sys2Proof.Machine

/-! ### TAKEOVER taken alone (R69, R70) -/

/-- R70: the loop in AUTO, and the reason in its mark and notice. -/
theorem State.takeOver_eq (s : State) (l : LineId) (why : TakeoverReason) : s.takeOver l why = { s with
    rates := vset s.rates l { s.rate l with mode := .auto, opening := none, surgeRun := 0, maxRun := 0, mark := some why }
    notices := noticesWith s (.loop l) } := by
  rw [State.takeOver, State.notify_eq]
  rfl

/-- R69: the first reason of the table. -/
theorem Rate.takeoverReason_eq_some {r : Rate} {why : TakeoverReason}
    (first : r.throttle = true ∧ why = .topping
      ∨ r.throttle = false ∧ 5 ≤ r.surgeRun ∧ why = .surge
      ∨ r.throttle = false ∧ r.surgeRun < 5 ∧ 5 ≤ r.maxRun ∧ why = .maxflow) : r.takeoverReason = some why := by
  unfold Rate.takeoverReason
  rcases first with ⟨topping, rfl⟩ | ⟨idle, surge, rfl⟩ | ⟨idle, calm, max, rfl⟩
  · rw [if_pos topping]
  · simp [idle, surge]
  · simp [idle, max, Nat.not_le.mpr calm]

/-- Settles O25: a mode that waits passes the judgement by, and otherwise the first reason that holds takes over. -/
theorem takeoverSwitchesToAuto : Obligations.TakeoverSwitchesToAuto := by
  refine ⟨fun l s waits => congrArg Host.Outcome.next (if_neg fun h => ?_),
    fun l s why delivering mode acts first => congrArg Host.Outcome.next ?_⟩
  · obtain ⟨-, -, acts⟩ := h
    rw [waits] at acts
    cases acts
  · rw [State.judgeTakeover, if_pos ⟨delivering, mode, acts⟩, Rate.takeoverReason_eq_some first]
    exact s.takeOver_eq l why

/-! ### LOOP (R71) -/

/-- R71: the mode of a LOOP request in force, and the LINE notice where it has changed. -/
theorem State.setLoop_eq (s : State) (l : LineId) (w : LoopWord) : s.setLoop l w = { s with
    rates := vset s.rates l ((s.rate l).chooseMode w)
    notices := if ((s.rate l).chooseMode w).mode = (s.rate l).mode then s.notices else noticesWith s (.line l) } := by
  have chosen : ((s.modRate l (Rate.chooseMode w)).rate l) = (s.rate l).chooseMode w := by simp
  rw [State.setLoop, chosen]
  split
  · rfl
  · rw [State.notify_eq]
    rfl

/-- R71: only a changed mode begins to wait (log 54). -/
theorem Rate.chooseMode_eq (r : Rate) (w : LoopWord) : r.chooseMode w =
    if (r.withMode w).mode = r.mode then r.withMode w else { r.withMode w with loopWaits := true } := by
  have kept : (r.withMode w).loopWaits = r.loopWaits := by cases w <;> rfl
  by_cases same : (r.withMode w).mode = r.mode
  · rw [if_pos same]
    simp only [Rate.chooseMode, same, ← kept, ne_eq, not_true_eq_false, decide_false, Bool.or_false]
    rw [← same]
  · rw [if_neg same]
    simp [Rate.chooseMode, same]

/-- Settles O33: no mode is refused SYNTAX, and each mode is put in force by `State.setLoop_eq`. -/
theorem loopTaken : Obligations.LoopTaken := by
  have run : ∀ {l : LineId} {s : State} (m : Option LoopWord), Ready s →
      exec (.loop (lineNumber l) m) s = .next (s.takeLoop (lineNumber l) m) := fun {l s} m ready => by
    show Host.Outcome.next (s.drained.takeLoop (lineNumber l) m) = _
    rw [s.drained_ready ready]
  refine ⟨fun l s ready connected => ?_, fun l w s ready connected => ?_⟩
  · rw [run none ready, State.takeLoop, State.lineRequest_ready ready.1, if_neg connected]
    rfl
  · intro chosen r
    have table : chosen = (s.rate l).withMode w := by cases w <;> rfl
    have inForce : r = (s.rate l).chooseMode w := by rw [Rate.chooseMode_eq, ← table]
    clear_value r
    subst inForce
    have read : (s.setLoop l w).rate l = (s.rate l).chooseMode w := by simp [State.setLoop_eq, State.rate]
    rw [run (some w) ready, State.takeLoop, State.lineRequest_ready ready.1, if_neg connected]
    simp only [read]
    rw [State.setLoop_eq]
    exact ⟨_, rfl⟩

end Sys2Proof.Machine
end

section
/-! SUPPORT. Which request a record names (R162), ended lines, and the sending of replies and notices (R161, R164, R165). -/

namespace Sys2Proof.Machine

/-! ### Which request a record names (R162) -/

/-- R162: the forms of a line supervisor come first. -/
theorem State.takeFields_of_line {s t : State} {kw : String} {args : List String} (line : s.lineFields kw args = some t) :
    s.takeFields (kw :: args) = t := by
  simp only [State.takeFields, line]

theorem State.takeFields_of_tank {s t : State} {kw : String} {args : List String} (line : s.lineFields kw args = none)
    (tank : s.tankFields kw args = some t) : s.takeFields (kw :: args) = t := by
  simp only [State.takeFields, line, tank]

theorem State.takeFields_of_system {s t : State} {kw : String} {args : List String} (line : s.lineFields kw args = none)
    (tank : s.tankFields kw args = none) (system : s.systemFields kw args = some t) : s.takeFields (kw :: args) = t := by
  simp only [State.takeFields, line, tank, system]

theorem mem_of_lookup {β : Type} {l : List (String × β)} {word : String} {v : β} (h : l.lookup word = some v) :
    (word, v) ∈ l := by
  obtain ⟨_, _, rfl, _⟩ := List.lookup_eq_some_iff.mp h
  exact List.mem_append_right _ List.mem_cons_self

/-- A word of a table and a number after it name the request of both. -/
theorem mem_of_lookup_number {l : List (String × (Nat → Instr))} {word a : String} {request : Instr}
    (h : ((l.lookup word).bind fun c => (numField a).map c) = some request) :
    ∃ c, (word, c) ∈ l ∧ (numField a).map c = some request := by
  obtain ⟨c, found, named⟩ := Option.bind_eq_some_iff.mp h
  exact ⟨c, mem_of_lookup found, named⟩

theorem twoNumbers_eq_some {a b : String} {c : Nat → Nat → Instr} {request : Instr} (h : twoNumbers a b c = some request) :
    ∃ n, numField b = some n ∧ (numField a).map (c · n) = some request := by
  unfold twoNumbers at h
  split at h
  · next m n first second => exact ⟨n, second, by rw [first]; exact h⟩
  · cases h

section Fields

variable {s : State} {fields name rest : List String} {a : String} {c : Nat → Instr} {request : Instr}

/-- A record read by `State.numberFirst` is the request of its number. -/
theorem exec_of_numberFirst {take : Nat → List String → State} (named : (numField a).map c = some request)
    (read : s.drained.takeFields fields = s.drained.numberFirst name (a :: rest) take)
    (run : ∀ n, exec (c n) s = .next (take n rest)) : exec request s = .next (s.drained.takeFields fields) := by
  obtain ⟨n, number, rfl⟩ := Option.map_eq_some_iff.mp named
  rw [run, read, State.numberFirst, number]

/-- A record read by `State.oneNumber` is the request of its number. -/
theorem exec_of_oneNumber {take : Nat → State} (named : (numField a).map c = some request)
    (read : s.drained.takeFields fields = s.drained.oneNumber name [a] take)
    (run : ∀ n, exec (c n) s = .next (take n)) : exec request s = .next (s.drained.takeFields fields) := by
  obtain ⟨n, number, rfl⟩ := Option.map_eq_some_iff.mp named
  rw [run, read, State.oneNumber, number]

/-- A READ of one line or tank is the request of its number. -/
theorem exec_of_readNumber {otherwise : State} {take : Nat → State} (named : (numField a).map c = some request)
    (read : s.drained.takeFields fields = (numField a).elim otherwise take)
    (run : ∀ n, exec (c n) s = .next (take n)) : exec request s = .next (s.drained.takeFields fields) := by
  obtain ⟨n, number, rfl⟩ := Option.map_eq_some_iff.mp named
  rw [run, read, number]
  rfl

/-- R58: CLEAR and a number, which is neither ALL nor TANK. -/
theorem State.clearFields_number {n : Nat} (number : numField a = some n) : s.clearFields [a] = s.takeClear n := by
  have all : a ≠ "ALL" := by rintro rfl; cases number
  have tank : a ≠ "TANK" := by rintro rfl; cases number
  unfold State.clearFields
  simp [number]

/-- R35: STROKESET with a number in place of NONE. -/
theorem exec_of_strokeset {w : String} {t : Nat} (number : numField w = some t)
    (named : (numField a).map (Instr.strokeset · (some t)) = some request) :
    exec request s = .next (s.drained.takeFields ["STROKESET", a, w]) := by
  have time : w ≠ "NONE" := by rintro rfl; cases number
  refine exec_of_numberFirst named (State.takeFields_of_line rfl) fun n => ?_
  split
  · next e => exact absurd (List.cons.inj e).1 time
  · next e =>
    obtain ⟨rfl, -⟩ := List.cons.inj e
    rw [number]
    rfl
  · next e => exact absurd rfl (e w)

end Fields

/-- R162: a record that names a request is that request, by the form of each request. -/
theorem exec_of_requestOf {fields : List String} {request : Instr} (names : requestOf fields = some request) (s : State) :
    exec request s = .next (s.drained.takeFields fields) := by
  unfold requestOf at names
  split at names
  · next kw =>
    have listed := mem_of_lookup names
    simp only [List.mem_cons, Prod.mk.injEq, List.not_mem_nil, or_false] at listed
    rcases listed with ⟨rfl, rfl⟩ | ⟨rfl, rfl⟩ | ⟨rfl, rfl⟩ | ⟨rfl, rfl⟩ | ⟨rfl, rfl⟩ <;> rfl
  · next kw a rest =>
    split at names
    · -- READ STATUS, TANKS, SET
      have listed := mem_of_lookup names
      simp only [List.mem_cons, Prod.mk.injEq, List.not_mem_nil, or_false] at listed
      rcases listed with ⟨rfl, rfl⟩ | ⟨rfl, rfl⟩ | ⟨rfl, rfl⟩ <;> rfl
    · -- READ LINE, TANK, LIMITS
      obtain ⟨c, listed, named⟩ := mem_of_lookup_number names
      simp only [List.mem_cons, Prod.mk.injEq, List.not_mem_nil, or_false] at listed
      rcases listed with ⟨rfl, rfl⟩ | ⟨rfl, rfl⟩ | ⟨rfl, rfl⟩ <;>
        exact exec_of_readNumber named (State.takeFields_of_system rfl rfl rfl) fun _ => rfl
    · -- GAUGING
      have listed := mem_of_lookup names
      simp only [List.mem_cons, Prod.mk.injEq, List.not_mem_nil, or_false] at listed
      rcases listed with ⟨rfl, rfl⟩ | ⟨rfl, rfl⟩ <;> rfl
    · -- CLEAR ALL, CLEAR
      split at names
      · next all => cases names; subst all; rfl
      · obtain ⟨n, number, rfl⟩ := Option.map_eq_some_iff.mp names
        exact congrArg Host.Outcome.next (State.clearFields_number number).symm
    · -- CLEAR TANK
      split at names
      · next tank => subst tank; exact exec_of_oneNumber names (State.takeFields_of_system rfl rfl rfl) fun _ => rfl
      · cases names
    · -- CONNECT
      obtain ⟨g, grade, named⟩ := twoNumbers_eq_some names
      exact exec_of_numberFirst named (State.takeFields_of_line rfl) fun n => by simp only [grade]; rfl
    · -- STROKESET
      split at names
      · next none => subst none; exact exec_of_numberFirst names (State.takeFields_of_line rfl) fun _ => rfl
      · obtain ⟨t, time, named⟩ := twoNumbers_eq_some names
        exact exec_of_strokeset time named
    -- PERMIT CONFIRM, START, RATE
    iterate 3 exact exec_of_numberFirst names (State.takeFields_of_line rfl) fun _ => rfl
    -- FILL, SOUND
    iterate 2 exact exec_of_numberFirst names (State.takeFields_of_tank rfl rfl) fun _ => rfl
    -- LOOP
    · exact exec_of_numberFirst names (State.takeFields_of_line rfl) fun _ => rfl
    -- ASSIGN
    · exact exec_of_numberFirst names (State.takeFields_of_tank rfl rfl) fun _ => rfl
    -- RELEASE
    · exact exec_of_numberFirst names (State.takeFields_of_tank rfl rfl) fun n => by split <;> rfl
    -- LIMITS
    · exact exec_of_numberFirst names (State.takeFields_of_tank rfl rfl) fun _ => rfl
    -- SET, MASK, ACK
    iterate 3 cases names; rfl
    · -- DISCONNECT, STROKE, PERMIT, HOLD, RESUME, FINISH
      obtain ⟨c, listed, named⟩ := mem_of_lookup_number names
      simp only [List.mem_cons, Prod.mk.injEq, List.not_mem_nil, or_false] at listed
      rcases listed with ⟨rfl, rfl⟩ | ⟨rfl, rfl⟩ | ⟨rfl, rfl⟩ | ⟨rfl, rfl⟩ | ⟨rfl, rfl⟩ | ⟨rfl, rfl⟩
      case inr.inr.inl => exact exec_of_numberFirst named (State.takeFields_of_line rfl) fun _ => rfl
      all_goals exact exec_of_oneNumber named (State.takeFields_of_line rfl) fun _ => rfl
    · cases names
  · cases names

/-- The keywords of the requests (R162). -/
def keywords : List String :=
  ["READ", "CONNECT", "DISCONNECT", "STROKE", "STROKESET", "PERMIT", "START", "RATE", "LOOP", "HOLD", "RESUME",
    "FINISH", "ASSIGN", "RELEASE", "FILL", "SOUND", "LINKSTART", "GAUGING", "ESD", "CLEAR", "ACK", "SET", "LIMITS",
    "LOCK", "UNLOCK", "MASK", "RESTART"]

/-- R162: a keyword of no request. -/
theorem State.takeFields_unknown {kw : String} (unknown : kw ∉ keywords) (s : State) (args : List String) :
    s.takeFields (kw :: args) = s.unknownWord kw := by
  have line : s.lineFields kw args = none := by
    unfold State.lineFields
    split
    iterate 11 exact absurd (by decide) unknown
    rfl
  have tank : s.tankFields kw args = none := by
    unfold State.tankFields
    split
    iterate 7 exact absurd (by decide) unknown
    rfl
  have system : s.systemFields kw args = none := by
    unfold State.systemFields
    split
    iterate 9 exact absurd (by decide) unknown
    rfl
  simp only [State.takeFields, line, tank, system]

/-! ### Ended lines (R161, R164) -/

/-- R161: a line over 96 characters. -/
theorem State.answerLine_long {line : EndedLine} (long : line.long = true) (s : State) :
    s.answerLine line = { s with port := replied s ["?", "*", "LONG"] } := by
  rw [State.answerLine, if_pos long]
  rfl

/-- R161: a line that fails its check. -/
theorem State.answerLine_unchecked {line : EndedLine} (short : line.long = false)
    (fails : checkedFields line.text.toList = none) (s : State) :
    s.answerLine line = { s with port := replied s ["?", "*", "CHECK"] } := by
  simp only [State.answerLine, short, fails]
  rfl

/-- R162: a line that passes its check goes by its fields. -/
theorem State.answerLine_checked {line : EndedLine} {fields : List String} (short : line.long = false)
    (checked : checkedFields line.text.toList = some fields) (s : State) : s.answerLine line = s.takeFields fields := by
  simp only [State.answerLine, short, checked]
  rfl

/-- R162, R164: with no reply waiting, a line that names a request is that request. -/
theorem State.answerLine_request {s : State} {line : EndedLine} {fields : List String} {request : Instr}
    (idle : s.port.waiting = none) (short : line.long = false) (checked : checkedFields line.text.toList = some fields)
    (names : requestOf fields = some request) : Host.Outcome.next (s.answerLine line) = exec request s := by
  rw [State.answerLine_checked short checked, exec_of_requestOf names, s.drained_of_none idle]

/-- R161: a line of at most 96 characters is kept whole. -/
theorem endedLine_short {cs : List Char} (short : cs.length ≤ 96) :
    (endedLine cs).long = false ∧ (endedLine cs).text.toList = cs := by
  simp [endedLine, List.take_of_length_le short, short]

section LineFeed

variable {s : State} {chars : String} (ended : dropReturn (s.port.rx ++ chars).toList ≠ [])
include ended

/-- R164: with no reply waiting the line is answered. -/
theorem State.lineFeed_idle (idle : s.port.waiting = none) : s.lineFeed chars =
    ({ s with port := { s.port with rx := "" } }).answerLine (endedLine (dropReturn (s.port.rx ++ chars).toList)) := by
  simp only [State.lineFeed, if_neg ended, idle]

/-- R164: behind a waiting reply one line is held. -/
theorem State.lineFeed_held (waits : s.port.waiting.isSome = true) (free : s.port.held = none) : s.lineFeed chars =
    { s with port := { s.port with rx := "", held := some (endedLine (dropReturn (s.port.rx ++ chars).toList)) } } := by
  obtain ⟨r, waiting⟩ := Option.isSome_iff_exists.mp waits
  simp only [State.lineFeed, if_neg ended, waiting, free]

/-- R164: a further line is discarded. -/
theorem State.lineFeed_discarded (waits : s.port.waiting.isSome = true) (taken : s.port.held.isSome = true) :
    s.lineFeed chars = { s with port := { s.port with rx := "" } } := by
  obtain ⟨r, waiting⟩ := Option.isSome_iff_exists.mp waits
  obtain ⟨line, held⟩ := Option.isSome_iff_exists.mp taken
  simp only [State.lineFeed, if_neg ended, waiting, held]

end LineFeed

/-- R164: the waiting reply is sent, and the line held behind it answered. -/
theorem State.replyGone_eq {s : State} {r : List String} (waiting : s.port.waiting = some r) :
    s.replyGone = s.port.held.elim { s with port := { s.port with waiting := none, out := some (written r) } }
      fun line =>
        ({ s with port := { s.port with waiting := none, held := none, out := some (written r) } }).answerLine line := by
  simp only [State.replyGone, State.sendWaiting, waiting]
  cases held : s.port.held with
  | none => rfl
  | some line => rfl

/-- R165 to R167, R70: the oldest notice is sent, and what it told is cleared. -/
theorem State.sendNotice_eq {s : State} {n : Notice} {rest : List Notice} (idle : s.port.waiting = none)
    (oldest : s.notices = n :: rest) : s.sendNotice =
      ({ s with notices := rest, port := { s.port with out := some (written ("!" :: s.noticeText n)) } }).noticeGone n := by
  simp only [State.sendNotice, idle, oldest]

/-- Settles O60: the line feed by what the port holds, then the line by its checks (`State.answerLine_request` for one that
names a request); the sending of a reply and of a notice. -/
theorem consoleLineEvents : Obligations.ConsoleLineEvents := by
  refine ⟨fun chars s c event => ?_, fun s r waiting held => ?_, fun s r line waiting held => ?_,
    fun s n rest idle oldest => ?_⟩
  · intro line cleared
    have run : exec c s = .next (s.lineFeed chars) := by rcases event with rfl | rfl <;> rfl
    have answered : line ≠ [] → s.port.waiting = none →
        exec c s = .next (({ s with port := cleared }).answerLine (endedLine line)) := fun ended idle => by
      rw [run, State.lineFeed_idle ended idle]
    refine ⟨fun none => ?_, fun ended waits free => ?_, fun ended waits taken => ?_, fun idle long => ?_,
      fun ended idle short fails => ?_, fun kw args ended idle short checked unknown => ?_,
      fun fields request ended idle short checked names => ?_⟩
    · rw [run, State.lineFeed, if_pos none]
    · rw [run, State.lineFeed_held ended waits free]
      rfl
    · rw [run, State.lineFeed_discarded ended waits taken]
    · have ended : line ≠ [] := List.ne_nil_of_length_pos (by omega)
      rw [answered ended idle, State.answerLine_long (decide_eq_true long)]
      rfl
    · obtain ⟨whole, text⟩ := endedLine_short short
      rw [answered ended idle, State.answerLine_unchecked whole (text.symm ▸ fails)]
      rfl
    · obtain ⟨whole, text⟩ := endedLine_short short
      rw [answered ended idle, State.answerLine_checked whole (text.symm ▸ checked), State.takeFields_unknown unknown]
      rfl
    · obtain ⟨whole, text⟩ := endedLine_short short
      rw [answered ended idle]
      exact State.answerLine_request (s := { s with port := cleared }) idle whole (text.symm ▸ checked) names
  · show Host.Outcome.next s.replyGone = _
    rw [State.replyGone_eq waiting, held]
    rfl
  · intro sent
    have run : exec .replySent s = .next (({ s with port := sent }).answerLine line) := by
      show Host.Outcome.next s.replyGone = _
      rw [State.replyGone_eq waiting, held]
      rfl
    refine ⟨fun long => ?_, fun short fails => ?_, fun fields request short checked names => ?_⟩
    · rw [run, State.answerLine_long long]
      rfl
    · rw [run, State.answerLine_unchecked short fails]
      rfl
    · rw [run, State.answerLine_request rfl short checked names]
  · show Host.Outcome.next s.sendNotice = _
    rw [State.sendNotice_eq idle oldest]
    cases n <;> rfl

end Sys2Proof.Machine
end

section
/-! SUPPORT. R138: the poll queue goes on holding exactly the tanks that have a record (`Polled`): the writes of one line, of a record
and of the link, and the operations of the tank watch (R79 to R117) and of the directory (R83 to R85). -/

namespace Sys2Proof.Machine

/-! ### What keeps the poll queue in step with the table -/

/-- From `s` to `t` the poll queue goes on holding exactly the tanks that have a record. -/
def Polled (s t : State) : Prop := PollFollows s → PollFollows t

theorem Polled.refl {s : State} : Polled s s := id

theorem Polled.trans {s t u : State} (h : Polled s t) (g : Polled t u) : Polled s u := g ∘ h

theorem Polled.foldl {α : Type} {f : State → α → State} (hf : ∀ t x, Polled t (f t x)) (xs : List α) (s : State) :
    Polled s (xs.foldl f s) := by
  induction xs generalizing s with
  | nil => exact .refl
  | cons x xs ih => exact (hf s x).trans (ih _)

theorem State.eachLine_polled (s : State) {f : State → LineId → State} (hf : ∀ t l, Polled t (f t l)) :
    Polled s (s.eachLine f) := Polled.foldl hf allLines s

/-- Writes that keep the members of the poll queue and create or remove no record. -/
theorem Polled.of_same {s t : State} (poll : ∀ k, k ∈ t.link.poll ↔ k ∈ s.link.poll)
    (known : ∀ k, t.tank k = none ↔ s.tank k = none) : Polled s t := fun follows k => by
  rw [poll, follows k, ne_eq, ne_eq, known]

theorem Polled.of_eq {s t : State} (link : t.link = s.link) (tanks : t.tanks = s.tanks) : Polled s t := by
  refine .of_same (fun k => by rw [link]) fun k => ?_
  rw [State.tank, State.tank, tanks]

/-- The lines and the trip unit: everything but the tank table and the link. -/
def Scope.unpolled : Scope := { lines := fun _ => True, tanks := fun _ => False, link := False, trip := True }

theorem Free.polled {s t : State} (h : Free .unpolled s t) : Polled s t :=
  .of_same (fun k => by rw [(h.link_eq id).1]) fun k => by rw [h.tank_eq id]

theorem Own.polled {l : LineId} {s t : State} (h : Own l s t) : Polled s t := (h.free (c := .unpolled) trivial).polled

theorem Soft.polled {l : LineId} {s t : State} (h : Soft l s t) : Polled s t := h.own.polled

theorem Polled.notify {s t : State} (h : Polled s t) (n : Notice) : Polled s (t.notify n) :=
  h.trans (Free.refl.notify n).polled

theorem Polled.raise {s t : State} (h : Polled s t) (k : AlarmKind) (o : AlarmObject) : Polled s (t.raiseAlarm k o) :=
  h.trans (Free.refl.raise k o).polled

theorem Polled.gone {s t : State} (h : Polled s t) (k : AlarmKind) (o : AlarmObject) : Polled s (t.alarmGone k o) :=
  h.trans (Free.refl.gone k o).polled

/-- A write of the link that leaves the poll queue. -/
theorem State.modLink_polled (s : State) {f : Link → Link} (h : ∀ k, (f k).poll = k.poll) : Polled s (s.modLink f) :=
  .of_same (fun k => by rw [State.modLink_link, h]) fun k => by rw [State.modLink_tank]

theorem State.modLinkNoticed_polled (s : State) {f : Link → Link} (h : ∀ k, (f k).poll = k.poll) :
    Polled s (s.modLinkNoticed f) := by
  unfold State.modLinkNoticed
  simp only []
  split
  · exact s.modLink_polled h
  · exact (s.modLink_polled h).notify _

/-- A record written where one stands. -/
theorem State.modTank_polled (s : State) (k : TankId) (f : Tank → Tank) : Polled s (s.modTank k f) := fun h => h.written k f

theorem State.modTankNoticed_polled (s : State) (k : TankId) (f : Tank → Tank) : Polled s (s.modTankNoticed k f) := by
  refine .of_same (fun j => by simp) fun j => ?_
  rw [State.modTankNoticed_tank]
  split
  · next e => subst e; exact Option.map_eq_none_iff
  · rfl

theorem State.setLineup_polled (s : State) (l : LineId) (ks : List TankId) : Polled s (s.setLineup l ks) := .of_eq rfl rfl

/-! ### Transitions of a tank -/

theorem State.queueAdvice_polled (s : State) (k : TankId) (a : AdviceKind) : Polled s (s.queueAdvice k a) := by
  unfold State.queueAdvice
  split
  · exact .refl
  · exact s.modLink_polled fun _ => by rfl

theorem State.moveTank_polled (s : State) (k : TankId) (st : TankState) : Polled s (s.moveTank k st) := by
  have moved := s.modTankNoticed_polled k (Tank.moved st s.clock)
  unfold State.moveTank
  simp only []
  split
  · exact moved.gone _ _
  · exact moved

theorem State.leaveLineup_polled (s : State) (k : TankId) : Polled s (s.leaveLineup k) := by
  unfold State.leaveLineup
  split
  · exact .refl
  · exact ((s.modTankNoticed_polled k _).trans (State.setLineup_polled _ _ _)).notify _

/-- R85: a removed record leaves the poll queue. -/
theorem State.removeTank_polled (s : State) (k : TankId) : Polled s (s.removeTank k) := fun h => h.removed k

theorem State.applyPending_polled (s : State) (k : TankId) : Polled s (s.applyPending k) := by
  unfold State.applyPending
  split
  · exact .refl
  · exact s.removeTank_polled k
  · exact s.modTankNoticed_polled k _

theorem State.listTank_polled (s : State) (k : TankId) (topped : Bool) : Polled s (s.listTank k topped) := by
  unfold State.listTank
  split
  · exact .refl
  · next r _ =>
    have listed := ((s.moveTank_polled k .listed).trans (State.leaveLineup_polled _ k)).trans
      (State.modTankNoticed_polled _ k fun x => { x with topped := x.topped || topped })
    simp only []
    split
    · next l _ => exact (listed.trans (State.tellDeparture_own _ l r.state).polled).trans (State.applyPending_polled _ k)
    · exact listed.trans (State.applyPending_polled _ k)

theorem State.shiftTank_polled (s : State) (k : TankId) (st : TankState) : Polled s (s.shiftTank k st) := by
  have moved := s.moveTank_polled k st
  unfold State.shiftTank
  split
  · exact .refl
  · simp only []
    split
    · split
      · exact moved
      · exact moved.trans (State.tellDeparture_own _ _ _).polled
    · exact moved

theorem State.startFilling_polled (s : State) (k : TankId) : Polled s (s.startFilling k) := by
  have shifted := s.shiftTank_polled k .filling
  unfold State.startFilling
  simp only []
  split
  · exact shifted.trans (State.dropHold_own _ _ _).polled
  · exact shifted

theorem State.clearRing_polled (s : State) (k : TankId) : Polled s (s.clearRing k) := s.modTank_polled k _

theorem State.clearRings_polled (s : State) (l : LineId) : Polled s (s.clearRings l) := Polled.foldl State.clearRing_polled _ s

theorem State.deviceTrip_polled (s : State) (d : DeviceTrip) : Polled s (s.deviceTrip d) := (s.deviceTrip_free d trivial).polled

theorem State.enterOverfill_polled (s : State) (k : TankId) : Polled s (s.enterOverfill k) := by
  unfold State.enterOverfill
  split
  · exact .refl
  · next r _ =>
    have entered := (((s.moveTank_polled k .overfill).trans (State.leaveLineup_polled _ k)).trans
      (State.clearRing_polled _ k)).trans (State.modTankNoticed_polled _ k fun x => { x with stale := false })
    simp only []
    refine Polled.trans ?_ (State.queueAdvice_polled _ k _)
    refine Polled.trans ?_ (State.deviceTrip_polled _ _)
    split
    · next l _ =>
      exact (entered.trans (State.tellDeparture_own _ l r.state).polled).trans (State.reportOutlets_own _ l _).polled
    · exact entered

/-! ### Evaluation and level reports -/

theorem State.judgeStale_polled (s : State) (k : TankId) : Polled s (s.judgeStale k) := s.modTankNoticed_polled k _

theorem State.enterFull_polled (s : State) (k : TankId) (l : LineId) : Polled s (s.enterFull k l) :=
  ((s.shiftTank_polled k .full).trans (State.addHold_own _ l _).polled).trans (State.queueAdvice_polled _ k _)

theorem State.enterTopping_polled (s : State) (k : TankId) (l : LineId) : Polled s (s.enterTopping k l) :=
  ((s.moveTank_polled k .topping).trans (State.reportTopping_soft _ l true).polled).trans (State.queueAdvice_polled _ k _)

theorem State.actOn_polled (s : State) (k : TankId) (l : LineId) (r : Tank) (e : Results) : Polled s (s.actOn k l r e) := by
  unfold State.actOn
  split
  · exact (s.addTrip_own l _).polled
  · split
    · exact s.enterFull_polled k l
    · split
      · split
        · exact s.enterTopping_polled k l
        · exact .refl
      · exact .refl

theorem State.evaluate_polled (s : State) (k : TankId) : Polled s (s.evaluate k) := by
  unfold State.evaluate
  split
  · exact .refl
  · next r _ =>
    split
    · next l v _ _ =>
      split
      · have acted := ((s.judgeStale_polled k).trans
          (State.modTank_polled _ k fun x => { x with results := some (s.evaluation l r v) })).trans
          (State.actOn_polled _ k l r (s.evaluation l r v))
        simp only []
        split
        · exact acted.trans (State.addHold_own _ l _).polled
        · exact acted
      · exact .refl
    · exact .refl

theorem State.lineSampled_polled (s : State) (l : LineId) : Polled s (s.lineSampled l) :=
  Polled.foldl (fun t k => (t.judgeStale_polled k).trans (State.evaluate_polled _ k)) _ s

theorem State.estimate_polled (s : State) (k : TankId) : Polled s (s.estimate k) := by
  unfold State.estimate
  split
  · exact .refl
  · split
    · exact s.modTank_polled k _
    · exact s.modTank_polled k _

theorem State.reportTransition_polled (s : State) (k : TankId) (v : ValveWord) : Polled s (s.reportTransition k v) := by
  unfold State.reportTransition
  split
  · exact .refl
  · split
    · split
      · exact s.startFilling_polled k
      · exact .refl
    · have cleared := s.clearRing_polled k
      simp only []
      split
      iterate 2 exact cleared.trans (State.shiftTank_polled _ k _)
      iterate 2 exact cleared.trans (State.listTank_polled _ k _)
      all_goals exact cleared

/-- What follows the transitions of a report (R87, steps 6 and 7). -/
theorem State.afterTransition_polled {s t : State} (told : Polled s t) (p : LevelReport) :
    Polled s (match t.tank p.tank with
      | none => t
      | some r => if r.overfills then t.enterOverfill p.tank else (if p.fault then t else t.estimate p.tank).evaluate p.tank) := by
  split
  · exact told
  · split
    · exact told.trans (State.enterOverfill_polled _ _)
    · refine told.trans (Polled.trans ?_ (State.evaluate_polled _ _))
      split
      · exact .refl
      · exact State.estimate_polled _ _

theorem State.afterReport_polled (s : State) (p : LevelReport) (line : Option LineId) (n : Nat) :
    Polled s (s.afterReport p line n) := by
  have moved := s.reportTransition_polled p.tank p.valve
  cases line with
  | none => exact State.afterTransition_polled moved p
  | some l => exact State.afterTransition_polled (moved.trans (State.reportOutlets_own _ l n).polled) p

theorem State.levelReport_polled (s : State) (p : LevelReport) : Polled s (s.levelReport p) := by
  unfold State.levelReport
  split
  · exact .refl
  · simp only []
    split
    · exact .refl
    · exact (s.modTankNoticed_polled _ _).trans (State.afterReport_polled _ _ _ _)

/-! ### Events from the lines, and change-over timers -/

theorem State.finishTank_polled (s : State) (k : TankId) : Polled s (s.finishTank k) := by
  unfold State.finishTank
  split
  · exact s.listTank_polled k false
  · exact s.shiftTank_polled k .releasing

theorem State.finishLine_polled (s : State) (l : LineId) : Polled s (s.finishLine l) :=
  (s.enterConnected_own l).polled.trans (Polled.foldl State.finishTank_polled _ _)

theorem State.lineDisconnected_polled (s : State) (l : LineId) : Polled s (s.lineDisconnected l) :=
  Polled.foldl (fun t k => t.listTank_polled k false) _ s

theorem State.judgeChange_polled (s : State) (k : TankId) : Polled s (s.judgeChange k) := by
  unfold State.judgeChange State.expireChange
  split
  · split
    · split
      · split
        · exact ((s.modTank_polled k _).notify _).raise _ _
        · exact .refl
      · exact .refl
    · exact .refl
  · exact .refl

/-! ### The directory (R83 to R85) -/

theorem State.acceptEntry_polled (s : State) (k : TankId) (e : DirEntry) : Polled s (s.acceptEntry k e) := by
  have created : Polled s (((s.setTank k (some (Tank.created e))).notify (.tank k)).joinPoll k) := by
    intro follows
    have joined := follows.created k (Tank.created e)
    intro j
    have same := joined j
    simp only [State.joinPoll, State.notify_link] at same ⊢
    split <;> simp_all
  unfold State.acceptEntry
  split
  · exact created
  · split
    · split
      · exact s.modTankNoticed_polled k _
      · exact (s.modTankNoticed_polled k _).notify _
    · split <;> exact s.modTankNoticed_polled k _

theorem State.rejectEntry_polled (s : State) (o : Option TankId) : Polled s (s.rejectEntry o) := by
  cases o with
  | some k => exact (s.modTankNoticed_polled k _).notify _
  | none => exact (s.modLink_polled fun _ => by rfl).notify _

theorem State.applyEntries_polled (s : State) (seen : List Nat) (es : List DirEntry) : Polled s (s.applyEntries seen es) := by
  induction es generalizing s seen with
  | nil => exact .refl
  | cons e es ih =>
    unfold State.applyEntries
    simp only []
    refine Polled.trans ?_ (ih _ _)
    split
    · split
      · exact s.acceptEntry_polled _ e
      · exact s.rejectEntry_polled _
    · exact s.rejectEntry_polled _

theorem State.dropUnnamed_polled (s : State) (named : List Nat) (k : TankId) : Polled s (s.dropUnnamed named k) := by
  unfold State.dropUnnamed
  split
  · exact .refl
  · split
    · exact .refl
    · split
      · exact (s.modTankNoticed_polled k _).notify _
      · exact s.removeTank_polled k

theorem State.applyDirectory_polled (s : State) (es : List DirEntry) : Polled s (s.applyDirectory es) :=
  ((s.modLink_polled fun _ => by rfl).trans (State.applyEntries_polled _ [] es)).trans
    (Polled.foldl (fun t k => t.dropUnnamed_polled _ k) _ _)

end Sys2Proof.Machine
end

section
/-! SUPPORT. R138: sample events, the ship link, the loop readings, the resets and what time brings keep the poll queue in step
with the tank table. -/

namespace Sys2Proof.Machine

/-! ### Sample events (R2) -/

theorem State.positionTransition_polled (s : State) (l : LineId) (pos : Option Nat) : Polled s (s.positionTransition l pos) := by
  unfold State.positionTransition
  split
  · split
    · split
      · exact (s.enterDelivering_own l).polled
      · exact .refl
    · exact .refl
  · split
    · exact (s.enterHeld_own l).polled
    · exact .refl
  · split
    · exact s.finishLine_polled l
    · exact .refl
  · split
    · exact (s.enterTripped_own l).polled
    · exact .refl
  all_goals exact .refl

theorem State.modDrive_polled (s : State) (l : LineId) (f : Drive → Drive) : Polled s (s.modDrive l f) := .of_eq rfl rfl

theorem State.modMeas_polled (s : State) (l : LineId) (f : Meas → Meas) : Polled s (s.modMeas l f) := .of_eq rfl rfl

theorem State.trackAndMove_polled (s : State) (l : LineId) (pos : Option Nat) : Polled s (s.trackAndMove l pos) := by
  have tracked := s.modDrive_polled l (Drive.trackStep pos)
  unfold State.trackAndMove
  split
  · simp only []
    split
    · exact tracked.trans (State.failTracking_own _ l).polled
    · exact tracked.trans (State.positionTransition_polled _ l pos)
  · exact .refl

theorem State.driveStage_polled (s : State) (l : LineId) (pos : Option Nat) : Polled s (s.driveStage l pos) := by
  have finished : ∀ t, Polled s t → Polled s ((t.trackAndMove l pos).modDrive l (Drive.keepPos pos)) := fun t stepped =>
    (stepped.trans (t.trackAndMove_polled l pos)).trans (State.modDrive_polled _ l _)
  unfold State.driveStage
  simp only []
  split
  · exact finished _ (s.rateLoopStep_soft l).polled
  · exact finished _ (s.strokeStep_own l pos).polled
  iterate 4 exact finished _ ((s.modDrive_polled l _).trans (State.formTarget_soft _ l).polled)
  all_goals exact finished _ .refl

theorem State.sampleEvent_polled (s : State) (l : LineId) (x : Sample) : Polled s (s.sampleEvent l x) := by
  have measured : Polled s ((s.measureStage l x).closureStage l) :=
    (s.measureStage_free l x (c := .unpolled) trivial trivial).polled.trans (State.closureStage_soft _ l).polled
  exact (measured.trans (State.driveStage_polled _ l _)).trans
    ((State.modMeas_polled _ l _).trans (State.lineSampled_polled _ l))

/-! ### The choice of the next exchange -/

theorem State.sendQuery_polled (s : State) (q : Query) (refresh : Bool) : Polled s (s.sendQuery q refresh) :=
  s.modLink_polled fun _ => by rfl

/-- R139: the tank picked stands in the queue, and it re-enters at once. -/
theorem pickTank_mem {watched : TankId → Bool} {polls : Nat} {poll : List TankId} {k : TankId}
    (h : pickTank watched polls poll = some k) : k ∈ poll := by
  have picked := pickTank_eq_some h
  split at picked <;> exact List.mem_of_find?_eq_some picked

theorem State.pollTank_polled {s : State} {k : TankId} (h : k ∈ s.link.poll) : Polled s (s.pollTank k) :=
  .of_same (State.pollTank_mem h) fun j => by
    rw [(s.pollTank_free (c := .aside) k trivial).tank_eq not_false]

theorem State.choosePoll_polled (s : State) : Polled s s.choosePoll := by
  unfold State.choosePoll
  split
  · next picked =>
    split
    · exact s.sendQuery_polled _ _
    · exact State.pollTank_polled (pickTank_mem picked)
  · exact s.sendQuery_polled _ _
  · next picked => exact State.pollTank_polled (pickTank_mem picked)
  · exact s.sendQuery_polled _ _

theorem State.chooseNext_polled (s : State) : Polled s s.chooseNext := by
  have linked : Polled s s.chooseLinked := by
    unfold State.chooseLinked
    split
    iterate 2 exact (s.modLink_polled fun _ => by rfl).trans (State.sendQuery_polled _ _ _)
    exact s.choosePoll_polled
  unfold State.chooseNext
  split
  iterate 2 exact .refl
  · split
    · exact s.sendQuery_polled _ _
    · exact .refl
  iterate 3
    split
    · exact linked
    · exact .refl

/-! ### Link states -/

theorem State.setOutcome_polled (s : State) (l : LineId) (o : PermitOutcome) : Polled s (s.setOutcome l o) := by
  unfold State.setOutcome
  split
  · exact .refl
  · exact (s.modLink_polled fun _ => by rfl).notify _

theorem State.dropQueries_polled (s : State) : Polled s s.dropQueries :=
  (s.modLink_polled fun _ => by rfl).trans (Polled.foldl (fun t l => t.setOutcome_polled l _) _ _)

theorem State.enterLost_polled (s : State) : Polled s s.enterLost := by
  have lost : Polled s (((s.modLinkNoticed fun k => { k with state := .lost, succRun := 0 }).raiseAlarm .linkLost
      .link).dropQueries) := ((s.modLinkNoticed_polled fun _ => by rfl).raise _ _).trans (State.dropQueries_polled _)
  unfold State.enterLost
  simp only []
  split
  · exact lost.trans (State.eachLine_polled _ fun t l => (t.addHold_own l _).polled.trans (State.clearPermit_own _ l).polled)
  · exact lost

theorem State.linkBack_polled (s : State) : Polled s s.linkBack := (s.linkBack_free (c := .unpolled) fun _ => trivial).polled

theorem State.judgeLost_polled (s : State) : Polled s s.judgeLost := by
  unfold State.judgeLost
  split
  · exact s.enterLost_polled
  · exact .refl

theorem State.judgeRecovered_polled (s : State) : Polled s s.judgeRecovered := by
  unfold State.judgeRecovered
  split
  · exact (s.modLinkNoticed_polled fun _ => by rfl).trans (State.linkBack_polled _)
  · exact .refl

theorem State.judgeQuality_polled (s : State) : Polled s s.judgeQuality := by
  unfold State.judgeQuality
  split
  iterate 2
    split
    · exact s.judgeLost_polled
    · split
      · exact s.modLinkNoticed_polled fun _ => by rfl
      · exact .refl
  · exact s.judgeRecovered_polled
  all_goals exact .refl

theorem State.closeExchange_polled (s : State) (refresh failed : Bool) : Polled s (s.closeExchange refresh failed) := by
  have closed : Polled s (s.modLink fun k => { k.space refresh with exchange := none }) := s.modLink_polled fun _ => by rfl
  unfold State.closeExchange State.countOutcome
  split
  · exact (closed.trans (State.modLink_polled _ fun _ => by rfl)).trans (State.judgeQuality_polled _)
  · exact closed

theorem State.takeStop_polled (s : State) (stop : Bool) : Polled s (s.takeStop stop) := by
  refine (s.modLinkNoticed_polled fun _ => by rfl).trans (State.eachLine_polled _ fun t l => ?_)
  split
  · exact (t.addHold_own l _).polled.trans (State.clearPermit_own _ l).polled
  · exact (t.dropHold_own l _).polled

/-! ### Acquisition, refresh and the content of a reply -/

theorem State.setAcqResult_polled (s : State) (r : AcqResult) : Polled s (s.setAcqResult r) :=
  ((s.modLink_polled fun _ => by rfl).notify .link).trans (.of_eq rfl rfl)

theorem State.acquired_polled (s : State) (h : Header) (es : List DirEntry) : Polled s (s.acquired h es) := by
  have stored : Polled s (((s.notify .doneLinkstart).modLinkNoticed fun k =>
      { k with rev := some h.revision, acq := none }).setAcqResult (.pass h.count h.revision)) :=
    ((Polled.refl.notify _).trans (State.modLinkNoticed_polled _ fun _ => by rfl)).trans (State.setAcqResult_polled _ _)
  unfold State.acquired
  exact (stored.trans (State.applyDirectory_polled _ es)).trans
    ((State.modLinkNoticed_polled _ fun _ => by rfl).trans (State.linkBack_polled _))

theorem State.takeEntry_polled (s : State) (refresh : Bool) (e : DirEntry) : Polled s (s.takeEntry refresh e) := by
  unfold State.takeEntry
  split
  · split
    · split
      · exact (s.modLinkNoticed_polled fun _ => by rfl).trans (State.applyDirectory_polled _ _)
      · exact s.modLink_polled fun _ => by rfl
    · exact .refl
  · split
    · split
      · exact s.acquired_polled _ _
      · exact s.modLink_polled fun _ => by rfl
    · exact .refl

theorem State.takePermit_polled (s : State) (l : LineId) (granted stop : Bool) : Polled s (s.takePermit l granted stop) := by
  have refused := (s.clearPermit_own l).polled
  unfold State.takePermit
  split
  · split
    · split
      · exact refused.trans (State.setOutcome_polled _ l _)
      · exact (Own.refl.seq _).polled.trans (State.setOutcome_polled _ l _)
    · exact refused.trans (State.setOutcome_polled _ l _)
  · exact s.setOutcome_polled l _

theorem State.compareRevision_polled (s : State) (n : Nat) : Polled s (s.compareRevision n) := by
  unfold State.compareRevision
  split
  · exact .refl
  · split
    · exact s.modLink_polled fun _ => by rfl
    · split
      · exact s.modLink_polled fun _ => by rfl
      · exact .refl

theorem State.takeBody_polled (s : State) (x : Exchange) (stop : Bool) (b : ReplyBody) : Polled s (s.takeBody x stop b) := by
  unfold State.takeBody
  split
  · exact s.modLink_polled fun _ => by cases x.refresh <;> rfl
  · exact s.takeEntry_polled _ _
  · exact (s.levelReport_polled _).trans (State.compareRevision_polled _ _)
  · exact s.takePermit_polled _ _ _
  · exact .refl

theorem State.takeFailure_polled (s : State) (x : Exchange) : Polled s (s.takeFailure x) := by
  have missed (a : AcqTelegram) : Polled s (s.acquisitionMiss a) := by
    unfold State.acquisitionMiss
    split
    · split
      · exact ((Polled.refl.notify _).trans (State.modLinkNoticed_polled _ fun _ => by rfl)).trans (State.setAcqResult_polled _ _)
      · exact s.modLink_polled fun _ => by rfl
    · exact .refl
  unfold State.takeFailure
  split
  · exact s.setOutcome_polled _ _
  iterate 2
    split
    · exact s.modLink_polled fun _ => by rfl
    · exact missed _
  all_goals exact .refl

/-! ### The end of an exchange -/

theorem State.endGood_polled (s : State) (x : Exchange) (stop : Bool) (b : ReplyBody) : Polled s (s.endGood x stop b) :=
  (((s.closeExchange_polled _ _).trans (State.takeStop_polled _ _)).trans (State.takeBody_polled _ x stop b)).trans
    (State.chooseNext_polled _)

theorem State.endFailed_polled (s : State) (x : Exchange) : Polled s (s.endFailed x) :=
  ((s.closeExchange_polled _ _).trans (State.takeFailure_polled _ x)).trans (State.chooseNext_polled _)

theorem State.takeReply_polled (s : State) (isKind : Query → Bool) (more : Bool) (t : List Byte) :
    Polled s (s.takeReply isKind more t) := by
  unfold State.takeReply
  split
  · split
    · split
      · split
        · split
          · split
            · exact s.modLink_polled fun _ => by rfl
            · exact .refl
          · exact s.endGood_polled _ _ _
        · exact .refl
      · exact .refl
    · exact .refl
  · exact .refl

theorem State.takeContinuation_polled (s : State) (t : List Byte) : Polled s (s.takeContinuation t) := by
  unfold State.takeContinuation
  split
  · split
    · split
      · exact s.endGood_polled _ _ _
      · exact .refl
    · exact .refl
  · exact .refl

theorem State.continuationLate_polled (s : State) : Polled s s.continuationLate := by
  unfold State.continuationLate
  split
  · split
    · exact s.endFailed_polled _
    · exact .refl
  · exact .refl

theorem State.windowOut_polled (s : State) : Polled s s.windowOut := by
  unfold State.windowOut
  split
  · split
    · exact .refl
    · exact s.endFailed_polled _
  · exact .refl

/-! ### The loop readings -/

theorem State.setLoopReading_polled (s : State) (x : Contact) : Polled s (s.setLoopReading x) := by
  have read : Polled s { s with esd := { s.esd with loop := x } } := .of_eq rfl rfl
  have judged := (read.notify .trip).trans (State.eachLine_polled _ fun t l => (Own.refl.seq (s := t) (l := l) id).polled)
  unfold State.setLoopReading
  split
  · exact .refl
  · simp only []
    split
    · exact judged.trans (State.eachLine_polled _ fun t l => (t.addTrip_own l _).polled)
    · exact judged

theorem State.setFarReading_polled (s : State) (x : Contact) : Polled s (s.setFarReading x) := by
  have read : Polled s { s with esd := { s.esd with far := x } } := .of_eq rfl rfl
  unfold State.setFarReading
  split
  · exact .refl
  · simp only []
    split
    · exact ((read.notify .trip).trans (State.joinDevice_free _ _ trivial).polled).raise _ _
    · exact ((read.notify .trip).trans (State.leaveDevice_free _ _ trivial).polled).gone _ _

/-! ### Resets, and what time brings -/

/-- R183: a reset leaves no tank known and an empty poll queue, whatever stood before. -/
theorem State.resetBlocks_polled (s u : State) : Polled s u.resetBlocks.farAtReset := fun _ k => by
  have unknown : u.resetBlocks.tank k = none := vget_replicate _ k
  rw [State.resetBlocks_far]
  change k ∈ ([] : List TankId) ↔ u.resetBlocks.tank k ≠ none
  simp [unknown]

theorem State.judgeWrite_polled (s : State) : Polled s s.judgeWrite := by
  unfold State.judgeWrite
  split
  · split
    · rw [State.endWrite_eq]
      exact .of_eq rfl rfl
    · exact .refl
  · exact .refl

theorem State.judgeStartup_polled (s : State) : Polled s s.judgeStartup := by
  rw [State.judgeStartup_eq]
  exact .of_eq rfl rfl

theorem State.tick_polled (s : State) : Polled s s.tick := by
  have counted : Polled s s.nextDs := .of_eq rfl rfl
  exact ((counted.trans (State.judgeStartup_polled _)).trans (State.judgeWrite_polled _)).trans
    (Polled.foldl State.judgeChange_polled _ _)

theorem State.passTo_polled (s : State) (m : Nat) : Polled s (s.passTo m) := by
  unfold State.passTo
  induction m - s.clock with
  | zero => exact .refl
  | succ n ih => exact ih.trans (State.tick_polled _)

theorem State.changeLate_polled (s : State) (k : TankId) : Polled s (s.changeLate k) := by
  unfold State.changeLate
  split
  · exact (s.passTo_polled _).trans (State.judgeChange_polled _ k)
  · exact .refl

theorem State.writeDone_polled (s : State) : Polled s s.writeDone := by
  unfold State.writeDone
  split
  · exact (s.passTo_polled _).trans (State.judgeWrite_polled _)
  · exact .refl

theorem State.startupDone_polled (s : State) : Polled s s.startupDone := by
  unfold State.startupDone
  split
  · exact (s.passTo_polled _).trans (State.judgeStartup_polled _)
  · exact .refl

end Sys2Proof.Machine
end

section
/-! SUPPORT. R138: every request, every record of the console and one step keep the poll queue in step with the tank table; and
the obligation on the link's counts and queues (R123, R136 to R139). -/

namespace Sys2Proof.Machine

/-! ### The frame of a request -/

theorem State.answer_polled (s : State) (fs : List String) : Polled s (s.answer fs) := .of_eq rfl rfl

theorem State.refuse_polled (s : State) (a b : List String) : Polled s (s.refuse a b) := s.answer_polled _

theorem Polled.take {s t : State} (h : Polled s t) (a b : List String) : Polled s (t.take a b) := h.trans (t.answer_polled _)

theorem State.afterStartup_polled (s : State) (name : List String) {body : State → State} (h : Polled s (body s)) :
    Polled s (s.afterStartup name body) := State.afterStartup_of s.answer_polled name h

theorem State.lineRequest_polled (s : State) (kw : String) (n : Nat) {body : State → LineId → List String → State}
    (h : ∀ l hd, Polled s (body s l hd)) : Polled s (s.lineRequest kw n body) :=
  s.afterStartup_polled _ (State.onLine_of s.answer_polled _ n fun l => h l _)

theorem State.tankRequest_polled (s : State) (start name : List String) (n : Nat) {body : State → TankId → Tank → State}
    (h : ∀ k r, Polled s (body s k r)) : Polled s (s.afterStartup start fun s => s.onTank name n body) := by
  refine s.afterStartup_polled _ ?_
  unfold State.onTank
  split
  · split
    · exact h _ _
    · exact s.refuse_polled _ _
  · exact s.refuse_polled _ _

/-! ### Requests of a line -/

theorem State.takeConnect_polled (s : State) (n g : Nat) : Polled s (s.takeConnect n g) := by
  refine s.lineRequest_polled _ n fun l hd => ?_
  split
  · exact s.refuse_polled _ _
  · split
    · exact s.refuse_polled _ _
    · split
      · exact s.refuse_polled _ _
      · have connected : Polled s (s.connectLine l g) :=
          ((Own.refl.seq _).polled.trans (State.modMeas_polled _ l _)).trans (State.modDrive_polled _ l _)
        exact connected.take _ _

theorem State.disconnectLine_polled (s : State) (l : LineId) : Polled s (s.disconnectLine l) := by
  have own (t : State) : Own l t (t.modSeq l fun q => { q with state := .disconnected, grade := none, permit := false }) :=
    Own.refl.seq _
  refine (s.lineDisconnected_polled l).trans ((own _).polled.trans ?_)
  exact ((((State.modMeas_polled _ l _).trans (State.modDrive_polled _ l _)).trans (State.dropTarget_soft _ l).polled).gone _ _).gone _ _

theorem State.takeDisconnect_polled (s : State) (n : Nat) : Polled s (s.takeDisconnect n) := by
  refine s.lineRequest_polled _ n fun l hd => ?_
  split
  · exact (s.disconnectLine_polled l).take _ _
  · exact s.refuse_polled _ _

theorem State.takeStroke_polled (s : State) (n : Nat) : Polled s (s.takeStroke n) := by
  refine s.lineRequest_polled _ n fun l hd => ?_
  split
  · split
    · exact s.refuse_polled _ _
    · exact (s.strokeLine_own l).polled.take _ _
  all_goals exact s.refuse_polled _ _

theorem State.takeStrokeset_polled (s : State) (n : Nat) (time : Option Nat) : Polled s (s.takeStrokeset n time) := by
  refine s.lineRequest_polled _ n fun l hd => ?_
  split
  · exact (s.modDrive_polled l _).take _ _
  · split
    · exact (s.modDrive_polled l _).take _ _
    · exact s.refuse_polled _ _

theorem State.queuePermit_polled (s : State) (l : LineId) : Polled s (s.queuePermit l) := by
  unfold State.queuePermit
  refine Polled.trans ?_ (State.setOutcome_polled _ l _)
  split
  · exact .refl
  · exact s.modLink_polled fun _ => by rfl

theorem State.takePermitQuery_polled (s : State) (n : Nat) : Polled s (s.takePermitQuery n) := by
  refine s.lineRequest_polled _ n fun l hd => ?_
  split
  · exact s.refuse_polled _ _
  · split
    · exact s.refuse_polled _ _
    · exact (s.queuePermit_polled l).take _ _

theorem State.takePermitConfirm_polled (s : State) (n : Nat) : Polled s (s.takePermitConfirm n) := by
  refine s.lineRequest_polled _ n fun l hd => ?_
  split
  · exact s.refuse_polled _ _
  · split
    · exact s.refuse_polled _ _
    · exact (Own.refl.seq _).polled.take _ _

theorem State.takeStart_polled (s : State) (n : Nat) (rate : NumField) : Polled s (s.takeStart n rate) := by
  refine s.lineRequest_polled _ n fun l hd => ?_
  split
  · exact s.refuse_polled _ _
  · split
    · exact s.refuse_polled _ _
    · exact (s.startLine_own l _).polled.take _ _

theorem State.modRate_polled (s : State) (l : LineId) (f : Rate → Rate) : Polled s (s.modRate l f) := .of_eq rfl rfl

theorem State.setRate_polled (s : State) (l : LineId) (used : Nat) : Polled s (s.setRate l used) := by
  have formed := (s.modRate_polled l fun r => { r with target := used }).trans (State.formTarget_soft _ l).polled
  unfold State.setRate
  simp only []
  split
  · exact formed
  · exact formed.trans (State.clearRings_polled _ l)

theorem State.storeRate_polled (s : State) (l : LineId) (used : Nat) : Polled s (s.storeRate l used) := by
  have stored := s.modRate_polled l fun r => { r with pendingTarget := some used }
  unfold State.storeRate
  simp only []
  split
  · exact stored
  · exact stored.trans (State.clearRings_polled _ l)

theorem State.takeRate_polled (s : State) (n : Nat) (target : NumField) : Polled s (s.takeRate n target) := by
  refine s.lineRequest_polled _ n fun l hd => ?_
  split
  · exact s.refuse_polled _ _
  · simp only []
    split
    iterate 2 exact (s.setRate_polled l _).take _ _
    iterate 2 exact (s.storeRate_polled l _).take _ _
    all_goals exact s.refuse_polled _ _

theorem State.takeLoop_polled (s : State) (n : Nat) (mode : Option LoopWord) : Polled s (s.takeLoop n mode) := by
  refine s.lineRequest_polled _ n fun l hd => ?_
  split
  · exact s.refuse_polled _ _
  · split
    · exact s.refuse_polled _ _
    · exact (s.setLoop_soft l _).polled.take _ _

theorem State.takeHold_polled (s : State) (n : Nat) : Polled s (s.takeHold n) := by
  refine s.lineRequest_polled _ n fun l hd => ?_
  split
  · exact (s.addHold_own l _).polled.take _ _
  · exact s.refuse_polled _ _

theorem State.takeResume_polled (s : State) (n : Nat) : Polled s (s.takeResume n) := by
  refine s.lineRequest_polled _ n fun l hd => ?_
  have resumed : Polled s (s.resumeLine l) :=
    ((s.clearRings_polled l).trans (State.modRate_polled _ l _)).trans (State.enterOpening_own _ l).polled
  simp only []
  split
  · exact s.refuse_polled _ _
  · split
    · exact s.refuse_polled _ _
    · split
      · exact s.refuse_polled _ _
      · split
        · exact s.refuse_polled _ _
        · exact resumed.take _ _

theorem State.takeFinish_polled (s : State) (n : Nat) : Polled s (s.takeFinish n) := by
  refine s.lineRequest_polled _ n fun l hd => ?_
  have closing := ((s.leaveDelivering_soft l).own.trans (State.enterFinishing_own _ l)).soft (State.closeOnProfile_soft _ l)
  split
  iterate 2 exact closing.polled.take _ _
  · exact (s.enterFinishing_own l).polled.take _ _
  · exact ((s.clearPermit_own l).polled.trans (State.finishLine_polled _ l)).take _ _
  all_goals exact s.refuse_polled _ _

theorem State.takeClear_polled (s : State) (n : Nat) : Polled s (s.takeClear n) := by
  refine s.lineRequest_polled _ n fun l hd => ?_
  split
  · exact s.refuse_polled _ _
  · split
    · exact s.refuse_polled _ _
    · exact (s.clearLine_own l).polled.take _ _

/-! ### Requests of the tank watch -/

theorem State.assignTank_polled (s : State) (l : LineId) (k : TankId) : Polled s (s.assignTank l k) := by
  unfold State.assignTank
  split
  · exact .refl
  · next r _ =>
    have joined := ((s.modTankNoticed_polled k fun r => { r with
      line := some l, ring := [], anchor := none, topped := false, results := none, state := r.assignedState }).trans
      (State.setLineup_polled _ l (s.lineup l ++ [k]))).notify (.line l)
    simp only []
    split
    · exact joined.trans (State.dropHold_own _ l _).polled
    · exact joined

theorem State.takeAssign_polled (s : State) (n : Nat) (tanks : List NumField) : Polled s (s.takeAssign n tanks) := by
  refine s.lineRequest_polled _ n fun l hd => ?_
  split
  · exact s.refuse_polled _ _
  · split
    · exact s.refuse_polled _ _
    · split
      · exact s.refuse_polled _ _
      · split
        · exact s.refuse_polled _ _
        · exact (Polled.foldl (fun t k => t.assignTank_polled l k) _ s).take _ _

theorem State.releaseTank_polled (s : State) (k : TankId) : Polled s (s.releaseTank k) := by
  unfold State.releaseTank
  split
  · exact .refl
  · split
    · exact s.shiftTank_polled k _
    all_goals exact s.listTank_polled k _

theorem State.takeRelease_polled (s : State) (n : Nat) (tanks : TankWords) : Polled s (s.takeRelease n tanks) := by
  have released (ks : List TankId) (hd : List String) : Polled s (s.releaseTanks ks hd) :=
    (Polled.foldl State.releaseTank_polled ks s).take _ _
  refine s.lineRequest_polled _ n fun l hd => ?_
  split
  · exact s.refuse_polled _ _
  · split
    · exact released _ _
    · split
      · exact s.refuse_polled _ _
      · split
        · exact s.refuse_polled _ _
        · split
          · exact s.refuse_polled _ _
          · exact released _ _

theorem State.fillTank_polled (s : State) (k : TankId) (r : Tank) (used : Nat) : Polled s (s.fillTank k r used) := by
  have stored := s.modTankNoticed_polled k fun r => { r with fl := used }
  unfold State.fillTank
  simp only []
  split
  · exact (stored.trans (State.startFilling_polled _ k)).trans (State.evaluate_polled _ k)
  · exact stored

theorem State.takeFill_polled (s : State) (n : Nat) (limit : NumField) : Polled s (s.takeFill n limit) := by
  refine s.tankRequest_polled _ _ n fun k r => ?_
  split
  · exact s.refuse_polled _ _
  · exact (s.fillTank_polled k r _).take _ _

theorem State.takeSound_polled (s : State) (n : Nat) (volume : NumField) (valve : Option ValveWord) :
    Polled s (s.takeSound n volume valve) := by
  unfold State.takeSound
  refine s.afterStartup_polled _ ?_
  split
  · exact s.refuse_polled _ _
  · unfold State.onTank
    split
    · split
      · split
        · exact (s.levelReport_polled _).take _ _
        · exact s.refuse_polled _ _
      · exact s.refuse_polled _ _
    · exact s.refuse_polled _ _

theorem State.takeClearTank_polled (s : State) (n : Nat) : Polled s (s.takeClearTank n) := by
  refine s.tankRequest_polled _ _ n fun k r => ?_
  have cleared : Polled s (s.clearTank k) := (s.listTank_polled k false).trans (.of_eq rfl rfl)
  simp only []
  split
  · exact s.refuse_polled _ _
  · split
    · exact s.refuse_polled _ _
    · exact cleared.take _ _

/-! ### Requests of the link and the trip unit -/

theorem State.takeLinkstart_polled (s : State) : Polled s s.takeLinkstart := by
  have begun : Polled s s.beginAcquisition :=
    ((s.modLinkNoticed_polled fun _ => by rfl).trans (State.dropQueries_polled _)).trans (State.chooseNext_polled _)
  refine s.afterStartup_polled _ ?_
  split
  · exact s.refuse_polled _ _
  · exact begun.take _ _

theorem State.takeGaugingManual_polled (s : State) : Polled s s.takeGaugingManual := by
  have manual : Polled s s.toManual :=
    ((s.modLinkNoticed_polled fun _ => by rfl).trans (State.dropQueries_polled _)).trans
      (State.eachLine_polled _ fun t l => (t.dropHold_own l _).polled.trans (State.formTarget_soft _ l).polled)
  refine s.afterStartup_polled _ ?_
  split
  · exact manual.take _ _
  · exact Polled.refl.take _ _

theorem State.takeGaugingLinked_polled (s : State) : Polled s s.takeGaugingLinked := by
  have linked : Polled s s.toLinked :=
    ((s.modLinkNoticed_polled fun _ => by rfl).trans
      (State.eachLine_polled _ fun t l => (t.formTarget_soft l).polled)).trans (State.chooseNext_polled _)
  refine s.afterStartup_polled _ ?_
  split
  · split
    · exact linked.take _ _
    · exact Polled.refl.take _ _
  · exact s.refuse_polled _ _

theorem State.takeEsd_polled (s : State) : Polled s s.takeEsd := s.afterStartup_polled _ ((s.deviceTrip_polled _).take _ _)

theorem State.emptyDevice_polled (s : State) : Polled s s.emptyDevice := by
  have gone (t : State) (d : DeviceTrip) : Polled t (t.memberGone d) := by
    cases d with
    | esdIn => exact .refl
    | stretchTrip l => exact (t.stretchTripGone_soft l).polled
    | consoleEsd => exact Polled.refl.gone _ _
    | overfill k => exact Polled.refl.gone _ _
  have emptied : Free .unpolled s ((({ s with device := [] }).notify .trip).setContact .closed) :=
    ((Free.refl.device [] trivial).notify .trip).trans (State.setContact_free _ _ trivial)
  exact emptied.polled.trans (Polled.foldl gone _ _)

theorem State.takeClearAll_polled (s : State) : Polled s s.takeClearAll := by
  refine s.afterStartup_polled _ ?_
  split
  · exact s.refuse_polled _ _
  · have cleared : Polled s ((if s.device = [] then s else s.emptyDevice).eachLine State.clearIfFit) := by
      refine Polled.trans ?_ (State.eachLine_polled _ fun t l => (t.clearIfFit_own l).polled)
      split
      · exact .refl
      · exact s.emptyDevice_polled
    generalize (if s.device = [] then s else s.emptyDevice).eachLine State.clearIfFit = u at cleared
    simp only []
    split
    · exact cleared.take _ _
    · exact s.refuse_polled _ _

theorem State.takeAck_polled (s : State) (os : Option (List ObjectWord)) (ks : Option (List (Option AlarmKind))) :
    Polled s (s.takeAck os ks) := by
  have acknowledged (f : Alarm → Bool) : Polled s (s.acknowledge f) := by
    have set : Polled s (s.setAlarms (ackedSet f s.alarms)) := .of_eq rfl rfl
    exact set.trans (Polled.foldl (fun _ _ => Polled.refl.notify _) _ _)
  refine s.afterStartup_polled _ ?_
  split
  · exact s.refuse_polled _ _
  · split
    · exact s.refuse_polled _ _
    · exact (acknowledged _).take _ _

/-! ### Requests of the settings, the store and the port -/

theorem State.setOne_polled (s : State) (p : SettingName × Nat) : Polled s (s.setOne p) := by
  have stored : Polled s { s with settings := p.1.store p.2 s.settings } := .of_eq rfl rfl
  unfold State.setOne
  simp only []
  split
  · exact stored.trans (Polled.foldl (fun t k => t.modTank_polled k _) _ _)
  · exact stored.trans (Polled.foldl State.judgeChange_polled _ _)
  all_goals exact stored

theorem State.takeSet_polled (s : State) (fs : List Field) : Polled s (s.takeSet fs) := by
  refine s.afterStartup_polled _ ?_
  split
  · exact s.refuse_polled _ _
  · split
    · exact s.refuse_polled _ _
    · exact (Polled.foldl State.setOne_polled _ s).take _ _

theorem State.takeMask_polled (s : State) (ws : List String) : Polled s (s.takeMask ws) := by
  have masked (m : List NoticeKind) : Polled s (s.setMask m) := .of_eq rfl rfl
  refine s.afterStartup_polled _ ?_
  simp only []
  split
  · exact s.refuse_polled _ _
  · split
    · exact (masked _).take _ _
    · exact s.refuse_polled _ _

theorem State.takeLimits_polled (s : State) (n : Nat) (vs : List NumField) : Polled s (s.takeLimits n vs) := by
  have begun (l : LineId) (x : Limits) : Polled s (s.beginWrite l x) := .of_eq rfl rfl
  refine s.lineRequest_polled _ n fun l hd => ?_
  split
  · exact s.refuse_polled _ _
  · split
    · exact s.refuse_polled _ _
    · split
      · exact s.refuse_polled _ _
      · split
        · exact s.refuse_polled _ _
        · exact (begun l _).take _ _

theorem State.setLock_polled (s : State) (b : Bool) : Polled s (s.setLock b) := .of_eq rfl rfl

theorem State.takeLock_polled (s : State) : Polled s s.takeLock := by
  refine s.afterStartup_polled _ ?_
  split
  · exact Polled.refl.take _ _
  · exact (s.setLock_polled _).take _ _

theorem State.takeUnlock_polled (s : State) : Polled s s.takeUnlock := by
  refine s.afterStartup_polled _ ?_
  split
  · split
    · exact (s.setLock_polled _).take _ _
    · exact Polled.refl.take _ _
  · exact s.refuse_polled _ _

theorem State.takeRestart_polled (s : State) : Polled s s.takeRestart := by
  refine s.afterStartup_polled _ ?_
  split
  iterate 2 exact s.refuse_polled _ _
  exact s.resetBlocks_polled _

/-! ### Every request, and the console port -/

/-- A request does its own taking, once the replies that wait are sent. -/
theorem request_polled {c : Instr} {s t : State} (hc : isRequest c = true) (run : exec c s = .next t) : Polled s.drained t := by
  generalize hu : s.drained = u
  cases c <;> cases hc <;> cases run <;> rw [hu]
  case connect n g => exact u.takeConnect_polled n g
  case disconnect n => exact u.takeDisconnect_polled n
  case stroke n => exact u.takeStroke_polled n
  case strokeset n x => exact u.takeStrokeset_polled n x
  case permit n => exact u.takePermitQuery_polled n
  case permitConfirm n => exact u.takePermitConfirm_polled n
  case start n r => exact u.takeStart_polled n r
  case rate n r => exact u.takeRate_polled n r
  case loop n m => exact u.takeLoop_polled n m
  case hold n => exact u.takeHold_polled n
  case resume n => exact u.takeResume_polled n
  case finish n => exact u.takeFinish_polled n
  case clear n => exact u.takeClear_polled n
  case assign n ts => exact u.takeAssign_polled n ts
  case release n ts => exact u.takeRelease_polled n ts
  case fill n v => exact u.takeFill_polled n v
  case sound n v w => exact u.takeSound_polled n v w
  case clearTank n => exact u.takeClearTank_polled n
  case linkstart => exact u.takeLinkstart_polled
  case gaugingManual => exact u.takeGaugingManual_polled
  case gaugingLinked => exact u.takeGaugingLinked_polled
  case esd => exact u.takeEsd_polled
  case clearAll => exact u.takeClearAll_polled
  case ack os ks => exact u.takeAck_polled os ks
  case set fs => exact u.takeSet_polled fs
  case limits n vs => exact u.takeLimits_polled n vs
  case lock => exact u.takeLock_polled
  case unlock => exact u.takeUnlock_polled
  case mask ws => exact u.takeMask_polled ws
  case restart => exact u.takeRestart_polled

/-- R161: a record is answered, or does what the request it names does. -/
theorem State.answerLine_polled {s : State} (idle : s.port.waiting = none) (e : EndedLine) : Polled s (s.answerLine e) := by
  have same := s.drained_of_none idle
  have fields : ∀ ws, Polled s (s.drained.takeFields ws) := State.takeFields_of (by rw [same]; exact s.answer_polled)
    fun c t hc run => by
      have polled := request_polled hc run
      rwa [same] at polled
  rw [same] at fields
  unfold State.answerLine
  split
  · exact s.answer_polled _
  · split
    · exact s.answer_polled _
    · exact fields _

theorem State.port_polled (s : State) (p : Port) : Polled s { s with port := p } := .of_eq rfl rfl

theorem State.lineFeed_polled (s : State) (cs : String) : Polled s (s.lineFeed cs) := by
  unfold State.lineFeed
  simp only []
  split
  · exact s.port_polled _
  · split
    · next idle =>
      exact (s.port_polled _).trans (State.answerLine_polled (s := { s with port := { s.port with rx := "" } }) idle _)
    all_goals exact s.port_polled _

theorem State.replyGone_polled (s : State) : Polled s s.replyGone := by
  have sent : Polled s s.sendWaiting := by
    unfold State.sendWaiting
    split
    · exact s.port_polled _
    · exact .refl
  unfold State.replyGone
  split
  · exact .refl
  · simp only []
    split
    · exact sent
    · exact (sent.trans (State.port_polled _ _)).trans (State.answerLine_polled
        (s := { s.sendWaiting with port := { s.sendWaiting.port with held := none } }) s.sendWaiting_idle _)

theorem State.drained_polled (s : State) : Polled s s.drained := s.replyGone_polled.trans (State.replyGone_polled _)

theorem State.sendNotice_polled (s : State) : Polled s s.sendNotice := by
  have gone (t : State) (n : Notice) : Polled t (t.noticeGone n) := by
    cases n with
    | loop l => exact t.modRate_polled l fun r => { r with mark := none }
    | link => exact .of_eq rfl rfl
    | _ => exact .refl
  unfold State.sendNotice
  split
  · next n rest _ _ =>
    have sent : Polled s { s with
        notices := rest, port := { s.port with out := some (written ("!" :: s.noticeText n)) } } := .of_eq rfl rfl
    exact sent.trans (gone _ n)
  all_goals exact .refl

/-! ### Every command, and one step -/

/-- R169 to R171: a READ changes the port alone. -/
theorem read_polled {c : Instr} {s t : State} (hc : isRead c = true) (run : exec c s = .next t) : Polled s t := by
  refine s.drained_polled.trans ?_
  generalize hu : s.drained = u
  cases c <;> cases hc <;> cases run <;> rw [hu]
  case readStatus | readTanks | readSet => exact u.answer_polled _
  case readLine n | readLimits n => exact State.onLine_of u.answer_polled _ _ fun _ => u.answer_polled _
  case readTank n =>
    unfold State.takeReadTank
    split
    · exact u.answer_polled _
    · exact u.answer_polled _

theorem event_polled {c : Instr} {s t : State} (hc : isRequest c = false) (hr : isRead c = false)
    (run : exec c s = .next t) : Polled s t := by
  cases c <;> cases hc <;> cases hr <;> cases run
  case sampleEvent l x => exact s.sampleEvent_polled l x
  case sensorFault l => exact (s.judgeSensorFault_own l).polled
  case overpressure l => exact (s.judgeOverpressure_own l).polled
  case stretchWarnClear l => exact (s.judgeStretchClear_own l).polled
  case stretchTrip l => exact (s.judgeStretchTrip_free l (c := .unpolled) trivial trivial).polled
  case enterSteady l => exact (s.judgeSteady_soft l).polled
  case flowUnsteady l => exact (s.judgeUnsteady_soft l).polled
  case trackingCheckFail l => exact (s.judgeTracking_own l).polled
  case openTimeout l => exact (s.judgeOpenTimeout_own l).polled
  case settleEnd l => exact (s.judgeSettleEnd_soft l).polled
  case closeTimeout l => exact (s.judgeCloseTimeout_own l).polled
  case takeover l => exact (s.judgeTakeover_soft l).polled
  case recordRejected cs => exact s.lineFeed_polled cs
  case heldLine cs => exact s.lineFeed_polled cs
  case replySent => exact s.replyGone_polled
  case noticeSent => exact s.sendNotice_polled
  case headerReply b | entryReply b | entryReplyMore b | levelReply b | permitReply b | adviceReply b | aliveReply b =>
    exact s.takeReply_polled _ _ b
  case continuation b => exact s.takeContinuation_polled b
  case continuationTimeout => exact s.continuationLate_polled
  case replyWindowExpired => exact s.windowOut_polled
  case linkLost => exact s.judgeLost_polled
  case linkRecovered => exact s.judgeRecovered_polled
  case loopReadingChange x => exact s.setLoopReading_polled x
  case farLoopReadingChange x => exact s.setFarReading_polled x
  case keyInputChange b => exact .of_eq rfl rfl
  case changeoverLate k => exact s.changeLate_polled k
  case limitsWriteEnd => exact s.writeDone_polled
  case powerOn l f => exact s.resetBlocks_polled _
  case resetInput l f => exact s.resetBlocks_polled _
  case startupEnd => exact s.startupDone_polled

theorem exec_polled {c : Instr} {s t : State} (run : exec c s = .next t) : Polled s t := by
  cases hc : isRequest c
  · cases hr : isRead c
    · exact event_polled hc hr run
    · exact read_polled hr run
  · exact s.drained_polled.trans (request_polled hc run)

/-- R138: one step, its command taken off the queue. -/
theorem step_polled {s t : State} (run : step s = .next t) : Polled s t := by
  unfold step at run
  split at run
  · exact Host.Outcome.next.inj run ▸ s.tick_polled
  · next rest _ =>
    have taken : Polled s { s with pending := rest } := .of_eq rfl rfl
    exact taken.trans (exec_polled run)

/-- Settles O12: the ranges and the distinct members are in what a step may do (`Acts`), and the poll queue is kept in step with
the tank table write by write (`Polled`). -/
theorem linkCountsStayBounded : Obligations.LinkCountsStayBounded := by
  unfold Obligations.LinkCountsStayBounded
  exact fun s t run => ⟨(step_acts run).link_bounded, step_polled run⟩

end Sys2Proof.Machine
end

section
/-! SUPPORT. One record written, whole (R79), and CLEAR TANK (R86, R108). -/

namespace Sys2Proof.Machine

/-! ### One record written -/

/-- R79: a record written where one stands, with the TANK notice where an item of it changes. -/
theorem State.modTankNoticed_eq {s : State} {k : TankId} {r : Tank} (h : s.tank k = some r) (f : Tank → Tank) :
    s.modTankNoticed k f = { s with
      tanks := vset s.tanks k (some (f r))
      notices := if (f r).sameNoticed r = true then s.notices else noticesWith s (.tank k) } := by
  unfold State.modTankNoticed
  rw [h]
  simp only []
  split
  · rfl
  · rw [State.notify_eq]
    rfl

/-- A record written with items of R79 unchanged. -/
theorem State.modTankNoticed_quiet {s : State} {k : TankId} {r : Tank} (h : s.tank k = some r) {f : Tank → Tank}
    (same : (f r).sameNoticed r = true) : s.modTankNoticed k f = { s with tanks := vset s.tanks k (some (f r)) } := by
  rw [State.modTankNoticed_eq h, if_pos same]

/-- R79: a change of state makes the TANK notice pending. -/
theorem Tank.sameNoticed_state {r x : Tank} (h : x.state ≠ r.state) : ¬ x.sameNoticed r = true := by
  simp [Tank.sameNoticed, h]

theorem State.tank_of_vset {t : State} {v : Vector (Option Tank) 16} {k : TankId} {x : Option Tank} (h : t.tanks = vset v k x) :
    t.tank k = x := by
  simp [State.tank, h]

/-! ### A tank that no line holds becomes LISTED -/

/-- The link's lists without one tank (R85). -/
theorem Link.without_one (x : Link) (k : TankId) : x.without (fun j => decide (j = k)) =
    { x with poll := setErase k x.poll, advices := x.advices.filter fun a => !decide (a.1 = k) } := rfl

theorem Link.without_none (x : Link) : x.without (fun _ => false) = x := by simp [Link.without]

/-- R86: a pending entry applied makes the TANK notice pending, or changes no notice. -/
theorem State.applyPending_notices (s : State) (k : TankId) :
    (s.applyPending k).notices = s.notices ∨ (s.applyPending k).notices = noticesWith s (.tank k) := by
  unfold State.applyPending
  split
  · exact .inl rfl
  · exact .inr (State.notify_notices _ _)
  · unfold State.modTankNoticed
    split
    · simp only []
      split
      · exact .inl rfl
      · exact .inr (State.notify_notices _ _)
    · exact .inl rfl

/-- R108, R86: a tank in OVERFILL, of no line, that becomes LISTED. -/
theorem State.listTank_overfill {s : State} {k : TankId} {r : Tank} (h : s.tank k = some r) (hs : r.state = .overfill)
    (hl : r.line = none) :
    let after := pendingApplied { r with state := .listed, timer := none }
    s.listTank k false = { s with
      tanks := vset s.tanks k after
      link := s.link.without fun j => decide (j = k) && after.isNone
      notices := noticesWith s (.tank k) } := by
  intro after
  have moved : s.moveTank k .listed = { s with
      tanks := vset s.tanks k (some { r with state := .listed, timer := none }), notices := noticesWith s (.tank k) } := by
    have differs : (Tank.moved .listed s.clock r).state ≠ r.state := by simp [Tank.moved, hs]
    have stays : s.moveTank k .listed = s.modTankNoticed k (Tank.moved .listed s.clock) := by
      simp [State.moveTank, State.tankState, h, hs]
    rw [stays, State.modTankNoticed_eq h, if_neg (Tank.sameNoticed_state differs)]
    simp [Tank.moved]
  have tank : (s.moveTank k .listed).tank k = some { r with state := .listed, timer := none } :=
    State.tank_of_vset (congrArg State.tanks moved)
  have unlined : (s.moveTank k .listed).leaveLineup k = s.moveTank k .listed := by
    simp [State.leaveLineup, State.tankLine, tank, hl]
  have marked : ((s.moveTank k .listed).modTankNoticed k fun x => { x with topped := x.topped || false }) =
      s.moveTank k .listed := by
    rw [State.modTankNoticed_quiet tank (by simp [Tank.sameNoticed]), moved]
    simp [vset_vset]
  have listed : s.listTank k false = (s.moveTank k .listed).applyPending k := by
    unfold State.listTank
    rw [h]
    simp only [hl, unlined, marked]
  have notices : (s.listTank k false).notices = noticesWith s (.tank k) := by
    rw [listed]
    rcases (s.moveTank k .listed).applyPending_notices k with same | told
    · rw [same, moved]
    · rw [told]
      exact noticesWith_twice s _ _ (by rw [moved]) (by rw [moved])
  have applied := State.applyPending_eq tank
  rw [← listed, notices, moved] at applied
  rw [applied]
  simp only [vset_vset]
  rfl

/-! ### CLEAR TANK -/

theorem State.exec_clearTank {s : State} (hr : Ready s) (n : Nat) : exec (.clearTank n) s = .next (s.takeClearTank n) := by
  show Host.Outcome.next (s.drained.takeClearTank n) = _
  rw [s.drained_ready hr]

theorem Tank.not_overfull {r : Tank} (h : ∀ v, r.vRep = some v → v < r.cap * r.hh / 1000) : r.vRep.any (r.vHh ≤ ·) = false := by
  cases hv : r.vRep with
  | none => rfl
  | some v => exact decide_eq_false (Nat.not_le.mpr (h v hv))

/-- R108: CLEAR TANK taken. -/
theorem State.clearTank_taken {k : TankId} {s : State} {r : Tank} (hr : Ready s) (h : s.tank k = some r)
    (hs : r.state = .overfill) (hl : r.line = none) (under : ∀ v, r.vRep = some v → v < r.cap * r.hh / 1000) :
    let after := pendingApplied { r with state := .listed, timer := none }
    exec (.clearTank (tankNumber k)) s = .next { s with
      tanks := vset s.tanks k after
      overfills := setErase k s.overfills
      link := if after = none then
          { s.link with poll := setErase k s.link.poll, advices := s.link.advices.filter fun a => !decide (a.1 = k) }
        else s.link
      notices := noticesWith s (.tank k)
      port := replied s (["=", "CLEAR", "TANK", numText (tankNumber k)] ++ match after with
        | some x => ["LISTED", optNum x.vRep, numText (x.cap * x.hh / 1000)]
        | none => ["ABSENT"]) } := by
  intro after
  have taken : exec (.clearTank (tankNumber k)) s = .next ((s.clearTank k).take ["CLEAR", "TANK", numText (tankNumber k)]
      ((s.clearTank k).clearTankWords k)) := by
    rw [State.exec_clearTank hr, State.takeClearTank, State.afterStartup_ready hr.1, State.onTank_known h]
    simp only [hs, ne_eq, not_true_eq_false, if_false, Tank.not_overfull under, Bool.false_eq_true]
  have cleared : s.clearTank k = { s with
      tanks := vset s.tanks k after, overfills := setErase k s.overfills
      link := s.link.without fun j => decide (j = k) && after.isNone, notices := noticesWith s (.tank k) } := by
    unfold State.clearTank
    rw [State.listTank_overfill h hs hl]
  have record : (s.clearTank k).tank k = after := State.tank_of_vset (congrArg State.tanks cleared)
  rw [taken, State.take_eq, State.clearTankWords, record, cleared]
  have listed : ∀ x, after = some x → x.state = .listed := by
    intro x hx
    revert hx
    change pendingApplied _ = some x → _
    unfold pendingApplied
    split <;> intro hx <;> cases hx <;> rfl
  cases hx : after with
  | none => simp [Link.without_one, replied]
  | some x => simp [Link.without_none, listed x hx, replied, TankState.text, Tank.vHh]

/-- Settles O42: the tank becomes LISTED with its pending entry applied (`State.clearTank_taken`), or the first check that
fails refuses it. -/
theorem clearTankTaken : Obligations.ClearTankTaken := by
  refine ⟨fun k s r hr h hs hl unpended under => ?_, fun k s r hr h hs hl under => State.clearTank_taken hr h hs hl under,
    fun n s hr unknown => ?_, fun k s r hr h => ⟨fun hs => ?_, fun v hs hv reached => ?_⟩⟩
  · have taken := State.clearTank_taken hr h hs hl under
    simpa [pendingApplied, unpended] using taken
  · rw [State.exec_clearTank hr, State.takeClearTank, State.afterStartup_ready hr.1, State.onTank_unknown unknown]
    rfl
  · rw [State.exec_clearTank hr, State.takeClearTank, State.afterStartup_ready hr.1, State.onTank_known h]
    simp only [hs, ne_eq, not_false_eq_true, if_true]
    rfl
  · rw [State.exec_clearTank hr, State.takeClearTank, State.afterStartup_ready hr.1, State.onTank_known h]
    simp only [hs, ne_eq, not_true_eq_false, if_false, hv, Option.any_some, Tank.vHh, reached, decide_true, if_true]
    rfl

end Sys2Proof.Machine
end

section
/-! SUPPORT. ASSIGN (R90, R91): the tanks that join a lineup, and the checks of the list. -/

namespace Sys2Proof.Machine

/-! ### Tanks that join a lineup -/

/-- R97: the sequence state of a line that a tank with an open outlet has joined. -/
def State.outletFound (s : State) (l : LineId) : Seq :=
  { s.seq l with holds := setErase .noOutlet (s.seq l).holds, pump := pumpPermit (s.seq l) s.esd.loop }

/-- R91: from `s` to `t` the tanks `ks` have joined the lineup of line `l`, whole. -/
structure JoinedLineup (l : LineId) (ks : List TankId) (s t : State) : Prop where
  lineup : t.lineup l = s.lineup l ++ ks
  record : ∀ k ∈ ks, ∀ r, s.tank k = some r → t.tank k = some (r.joined l)
  others : ∀ k, k ∉ ks → t.tank k = s.tank k
  found : (∃ k ∈ ks, t.tankState k = some .filling) → t.seq l = s.outletFound l
  unfound : (∀ k ∈ ks, t.tankState k ≠ some .filling) → t.seq l = s.seq l
  only : OnlyLine s t l
  whole : t = { s with seqs := t.seqs, lineups := t.lineups, tanks := t.tanks, notices := t.notices }

theorem JoinedLineup.nil (l : LineId) (s : State) : JoinedLineup l [] s s where
  lineup := (List.append_nil _).symm
  record _ h := absurd h List.not_mem_nil
  others _ _ := rfl
  found := fun ⟨_, h, _⟩ => absurd h List.not_mem_nil
  unfound _ := rfl
  only _ _ := ⟨rfl, rfl, rfl, rfl, rfl⟩
  whole := rfl

/-- R91: one tank joins. -/
theorem State.assignTank_joined {s : State} {k : TankId} {r : Tank} (l : LineId) (h : s.tank k = some r) :
    JoinedLineup l [k] s (s.assignTank l k) := by
  have e : s.assignTank l k =
      if r.assignedState = .filling then (s.joinLineup l k).dropHold l .noOutlet else s.joinLineup l k := by
    rw [State.assignTank_eq, h]
    rfl
  have record : (s.assignTank l k).tank k = some (r.joined l) := by
    rw [e]
    split <;> simp [State.dropHold, State.joinLineup, h]
  have state : (s.assignTank l k).tankState k = some r.assignedState := by rw [State.tankState, record]; rfl
  refine ⟨?_, fun j hj r' hr' => ?_, fun j hj => ?_, fun ⟨j, hj, filling⟩ => ?_, fun none => ?_, fun j hj => ?_, ?_⟩
  · rw [e]
    split <;> simp [State.dropHold, State.joinLineup]
  · obtain rfl := List.mem_singleton.mp hj
    rw [h] at hr'
    rw [record, Option.some.inj hr']
  · rw [e]
    have other : j ≠ k := fun g => hj (List.mem_singleton.mpr g)
    split <;> simp [State.dropHold, State.joinLineup, other]
  · obtain rfl := List.mem_singleton.mp hj
    rw [e, if_pos (Option.some.inj (state.symm.trans filling)), State.dropHold_seq]
    simp [State.joinLineup, State.outletFound]
  · rw [e, if_neg fun filling => none k List.mem_cons_self (by rw [state, filling])]
    simp [State.joinLineup]
  · rw [e]
    split <;> simp [State.dropHold, State.joinLineup, hj]
  · rw [e]
    split <;> apply State.eq_of_fields <;> simp [State.dropHold, State.joinLineup]

theorem JoinedLineup.cons {l : LineId} {k : TankId} {ks : List TankId} {s t u : State} (fresh : k ∉ ks)
    (h : JoinedLineup l [k] s t) (g : JoinedLineup l ks t u) : JoinedLineup l (k :: ks) s u := by
  have esd : t.esd = s.esd := by rw [h.whole]
  have first : u.tank k = t.tank k := g.others k fresh
  have firstState : u.tankState k = t.tankState k := by rw [State.tankState, first]; rfl
  have again (q : Seq) (hq : q = s.seq l ∨ q = s.outletFound l) :
      ({ q with holds := setErase .noOutlet q.holds, pump := pumpPermit q t.esd.loop } : Seq) = s.outletFound l := by
    rcases hq with rfl | rfl
    · rw [esd]; rfl
    · rw [esd]
      simp only [State.outletFound, setErase_twice]
      rfl
  have between : t.seq l = s.seq l ∨ t.seq l = s.outletFound l := by
    by_cases filling : t.tankState k = some .filling
    · exact .inr (h.found ⟨k, List.mem_cons_self, filling⟩)
    · exact .inl (h.unfound fun j hj => List.mem_singleton.mp hj ▸ filling)
  refine ⟨?_, fun j hj r hr => ?_, fun j hj => ?_, fun ⟨j, hj, filling⟩ => ?_, fun none => ?_, fun j hj => ?_, ?_⟩
  · rw [g.lineup, h.lineup, List.append_assoc, List.singleton_append]
  · rcases List.mem_cons.mp hj with rfl | hj
    · rw [first]
      exact h.record j List.mem_cons_self r hr
    · have other : j ∉ [k] := fun e => fresh (List.mem_singleton.mp e ▸ hj)
      exact g.record j hj r ((h.others j other).trans hr)
  · obtain ⟨out, outs⟩ := not_or.mp (mt List.mem_cons.mpr hj)
    exact (g.others j outs).trans (h.others j (mt List.mem_singleton.mp out))
  · by_cases later : ∃ i ∈ ks, u.tankState i = some .filling
    · rw [g.found later]
      exact again _ between
    · rw [g.unfound fun i hi e => later ⟨i, hi, e⟩]
      rcases List.mem_cons.mp hj with rfl | hj
      · exact h.found ⟨j, List.mem_cons_self, firstState ▸ filling⟩
      · exact absurd ⟨j, hj, filling⟩ later
  · rw [g.unfound fun i hi => none i (List.mem_cons_of_mem _ hi)]
    exact h.unfound fun j hj => List.mem_singleton.mp hj ▸ firstState ▸ none k List.mem_cons_self
  · obtain ⟨a, b, c, d, e⟩ := g.only j hj
    obtain ⟨a', b', c', d', e'⟩ := h.only j hj
    exact ⟨a.trans a', b.trans b', c.trans c', d.trans d', e.trans e'⟩
  · have whole := g.whole
    rw [h.whole] at whole
    exact whole

/-- R91: the tanks of a list join one after another. -/
theorem State.assignAll_joined {l : LineId} {ks : List TankId} {s : State} (distinct : ks.Nodup)
    (known : ∀ k ∈ ks, ∃ r, s.tank k = some r) : JoinedLineup l ks s (ks.foldl (fun t k => t.assignTank l k) s) := by
  induction ks generalizing s with
  | nil => exact .nil l s
  | cons k ks ih =>
    obtain ⟨fresh, distinct⟩ := List.nodup_cons.mp distinct
    obtain ⟨r, hr⟩ := known k List.mem_cons_self
    have joined := State.assignTank_joined l hr
    refine joined.cons fresh (ih distinct fun j hj => ?_)
    have other : j ∉ [k] := fun e => fresh (List.mem_singleton.mp e ▸ hj)
    rw [joined.others j other]
    exact known j (List.mem_cons_of_mem _ hj)

/-! ### The checks of the list (R90) -/

theorem LineState.assigns_of {st : LineState} (connected : st ≠ .disconnected) (sound : st ≠ .tripped) : st.assigns = true := by
  cases st <;> simp_all [LineState.assigns]

theorem State.exec_assign {s : State} (hr : Ready s) (l : LineId) (fs : List NumField) :
    exec (.assign (lineNumber l) fs) s = .next (s.takeAssign (lineNumber l) fs) := by
  show Host.Outcome.next (s.drained.takeAssign (lineNumber l) fs) = _
  rw [s.drained_ready hr]

theorem any_other_line {o : Option LineId} {l : LineId} : o.any (fun j => j ≠ l) = true ↔ ∃ j, o = some j ∧ j ≠ l := by
  cases o <;> simp

/-- R90, check 4: the refusal of one tank is its fault. -/
theorem State.assignRefusal_fault {s : State} {l : LineId} {b n : Nat} {why : String} (h : AssignFault s l b n why) :
    s.assignRefusal l b n = some [why, numText n] := by
  rcases h with ⟨unknown, rfl⟩ | ⟨k, r, rfl, hr, fault⟩
  · have out : ((tankOf n).bind fun t => s.tank t) = none := by
      cases hk : tankOf n with
      | none => rfl
      | some k => exact unknown k (tankOf_some hk)
    simp only [State.assignRefusal, out]
  · simp only [State.assignRefusal, tankOf_tankNumber, Option.bind_some, hr, any_other_line]
    rcases fault with ⟨t, rfl⟩ | ⟨t, u, rfl⟩ | ⟨t, u, g, rfl⟩ | ⟨t, u, g, full, rfl⟩
    · rw [if_pos t]
    · rw [if_neg t, if_pos u]
    · rw [if_neg t, if_neg u, if_pos g]
    · rw [if_neg t, if_neg u, if_neg (not_not.mpr g), if_pos full]

theorem State.assignRefusal_some {s : State} {l : LineId} {b n : Nat} {ws : List String} (h : s.assignRefusal l b n = some ws) :
    ∃ why, AssignFault s l b n why := by
  cases hk : tankOf n with
  | none =>
    refine ⟨"RANGE", .inl ⟨fun k hn => ?_, rfl⟩⟩
    rw [hn, tankOf_tankNumber] at hk
    cases hk
  | some k =>
    obtain rfl := tankOf_some hk
    cases hr : s.tank k with
    | none => exact ⟨"RANGE", .inl ⟨fun j hj => tankNumber_injective hj ▸ hr, rfl⟩⟩
    | some r =>
      by_cases taken : ∃ j, r.line = some j ∧ j ≠ l
      · exact ⟨"TAKEN", .inr ⟨k, r, rfl, hr, .inl ⟨taken, rfl⟩⟩⟩
      by_cases unfit : r.state ≠ .listed ∨ r.conflict = true
      · exact ⟨"STATE", .inr ⟨k, r, rfl, hr, .inr (.inl ⟨taken, unfit, rfl⟩)⟩⟩
      by_cases graded : (s.seq l).grade = some r.grade
      · have full : 6 ≤ (s.lineup l).length + b := by
          by_contra room
          simp only [State.assignRefusal, tankOf_tankNumber, Option.bind_some, hr, any_other_line, if_neg taken, if_neg unfit,
            if_neg (not_not.mpr graded), if_neg room, reduceCtorEq] at h
        exact ⟨"FULLLINE", .inr ⟨k, r, rfl, hr, .inr (.inr (.inr ⟨taken, unfit, graded, full, rfl⟩))⟩⟩
      · exact ⟨"GRADE", .inr ⟨k, r, rfl, hr, .inr (.inr (.inl ⟨taken, unfit, graded, rfl⟩))⟩⟩

/-- R90: a tank without a fault passes. -/
theorem State.assignRefusal_of_fit {s : State} {l : LineId} {b n : Nat} (h : ∀ why, ¬ AssignFault s l b n why) :
    s.assignRefusal l b n = none := by
  by_contra some
  obtain ⟨ws, hws⟩ := Option.ne_none_iff_exists'.mp some
  obtain ⟨why, fault⟩ := State.assignRefusal_some hws
  exact h why fault

/-- R90: the tanks that pass are passed over, and counted. -/
theorem State.assignRefusals_append {s : State} {l : LineId} {b : Nat} {before : List Nat}
    (fit : ∀ i m, before[i]? = some m → s.assignRefusal l (b + i) m = none) (rest : List Nat) :
    s.assignRefusals l b (before ++ rest) = s.assignRefusals l (b + before.length) rest := by
  induction before generalizing b with
  | nil => rfl
  | cons n ns ih =>
    have head := fit 0 n rfl
    rw [Nat.add_zero] at head
    have tail := ih (b := b + 1) fun i m hm => by
      rw [Nat.add_assoc, Nat.add_comm 1 i]
      exact fit (i + 1) m hm
    rw [List.cons_append, State.assignRefusals, head]
    simp only []
    rw [tail, List.length_cons, Nat.add_assoc, Nat.add_comm 1]

/-- R90: a LISTED tank of the line's grade, of no line, without conflict, with room for it in the lineup, has no fault. -/
theorem not_assignFault {s : State} {l : LineId} {b : Nat} {k : TankId} {r : Tank} (hr : s.tank k = some r)
    (free : r.line = none) (listed : r.state = .listed) (calm : r.conflict = false) (grade : (s.seq l).grade = some r.grade)
    (room : (s.lineup l).length + b < 6) (why : String) : ¬ AssignFault s l b (tankNumber k) why := by
  rintro (⟨unknown, -⟩ | ⟨j, r', same, hr', fault⟩)
  · rw [unknown k rfl] at hr
    cases hr
  · obtain rfl := tankNumber_injective same
    obtain rfl := Option.some.inj (hr.symm.trans hr')
    rcases fault with ⟨⟨i, taken, -⟩, -⟩ | ⟨-, unfit, -⟩ | ⟨-, -, other, -⟩ | ⟨-, -, -, full, -⟩
    · rw [free] at taken
      cases taken
    · simp [listed, calm] at unfit
    · exact other grade
    · omega

/-! ### ASSIGN -/

/-- R90, R91: a list that passes its checks is taken. -/
theorem State.exec_assign_taken {l : LineId} {ks : List TankId} {s : State} (hr : Ready s)
    (connected : (s.seq l).state ≠ .disconnected) (sound : (s.seq l).state ≠ .tripped) (named : ks ≠ []) (distinct : ks.Nodup)
    (room : (s.lineup l).length + ks.length ≤ 6)
    (fit : ∀ k ∈ ks, ∃ r, s.tank k = some r ∧ r.line = none ∧ r.state = .listed ∧ r.conflict = false
      ∧ (s.seq l).grade = some r.grade) :
    let t := ks.foldl (fun t k => t.assignTank l k) s
    exec (.assign (lineNumber l) (ks.map fun k => some (tankNumber k))) s =
      .next (t.take ["ASSIGN", numText (lineNumber l)] (t.tankWords ks)) := by
  intro t
  have numbers : allNumbers (ks.map fun k => some (tankNumber k)) = some (ks.map tankNumber) := by
    rw [← allNumbers_some, List.map_map]
    rfl
  have good : ¬ (ks.map tankNumber = [] ∨ 6 < (ks.map tankNumber).length ∨ ¬ (ks.map tankNumber).Nodup) := by
    have few : ks.length ≤ 6 := by omega
    simp [named, distinct, few, List.nodup_map_iff tankNumber_injective]
  have passed : s.assignRefusals l 0 (ks.map tankNumber) = none := by
    have each : ∀ i m, (ks.map tankNumber)[i]? = some m → s.assignRefusal l (0 + i) m = none := fun i m hm => by
      obtain ⟨k, hk, rfl⟩ : ∃ k, ks[i]? = some k ∧ tankNumber k = m := by simpa using hm
      obtain ⟨short, rfl⟩ := List.getElem?_eq_some_iff.mp hk
      obtain ⟨r, hr, free, listed, calm, grade⟩ := fit _ (List.getElem_mem short)
      exact State.assignRefusal_of_fit (not_assignFault hr free listed calm grade (by omega))
    have through := State.assignRefusals_append each []
    rwa [List.append_nil] at through
  rw [State.exec_assign hr, State.takeAssign, State.lineRequest_ready hr.1, LineState.assigns_of connected sound,
    if_neg (by decide)]
  simp only [numbers, if_neg good, passed, tanksOf_numbers]
  rfl

theorem State.exec_assign_syntax {l : LineId} {fs : List NumField} {s : State} (hr : Ready s)
    (connected : (s.seq l).state ≠ .disconnected) (sound : (s.seq l).state ≠ .tripped)
    (bad : fs = [] ∨ 6 < fs.length ∨ none ∈ fs ∨ ¬ fs.Nodup) :
    exec (.assign (lineNumber l) fs) s = .next (s.refuse ["ASSIGN", numText (lineNumber l)] ["SYNTAX"]) := by
  rw [State.exec_assign hr, State.takeAssign, State.lineRequest_ready hr.1, LineState.assigns_of connected sound,
    if_neg (by decide)]
  cases e : allNumbers fs with
  | none => rfl
  | some ns =>
    have refused : ns = [] ∨ 6 < ns.length ∨ ¬ ns.Nodup := by
      rw [allNumbers_eq_some e] at bad
      simpa [List.nodup_map_iff (Option.some_injective Nat)] using bad
    simp only [if_pos refused]

theorem State.exec_assign_refused {l : LineId} {before after : List Nat} {n : Nat} {why : String} {s : State} (hr : Ready s)
    (connected : (s.seq l).state ≠ .disconnected) (sound : (s.seq l).state ≠ .tripped)
    (few : (before ++ n :: after).length ≤ 6) (distinct : (before ++ n :: after).Nodup)
    (fit : ∀ i m, before[i]? = some m → ∀ w, ¬ AssignFault s l i m w) (fault : AssignFault s l before.length n why) :
    exec (.assign (lineNumber l) ((before ++ n :: after).map some)) s =
      .next (s.refuse ["ASSIGN", numText (lineNumber l)] [why, numText n]) := by
  have good : ¬ (before ++ n :: after = [] ∨ 6 < (before ++ n :: after).length ∨ ¬ (before ++ n :: after).Nodup) := by
    rintro (none | many | twice)
    · simp at none
    · omega
    · exact twice distinct
  have refused : s.assignRefusals l 0 (before ++ n :: after) = some [why, numText n] := by
    rw [State.assignRefusals_append fun i m hm => ?_, Nat.zero_add, State.assignRefusals, State.assignRefusal_fault fault]
    rw [Nat.zero_add]
    exact State.assignRefusal_of_fit (fit i m hm)
  rw [State.exec_assign hr, State.takeAssign, State.lineRequest_ready hr.1, LineState.assigns_of connected sound,
    if_neg (by decide)]
  simp only [allNumbers_some, if_neg good, refused]

/-- Settles O38: the checks of the list in their order, and the tanks that join (`JoinedLineup`). -/
theorem assignTaken : Obligations.AssignTaken := by
  refine ⟨fun l ks s hr connected sound named distinct room fit => ?_, fun l fs s hr connected sound bad => ?_,
    fun l before after n why s hr connected sound few distinct fit fault => ?_⟩
  · have run := State.exec_assign_taken hr connected sound named distinct room fit
    have joined := State.assignAll_joined (l := l) distinct fun k hk => (fit k hk).imp fun _ h => h.1
    simp only [] at run
    generalize ks.foldl (fun t k => t.assignTank l k) s = t at run joined
    have seq : t.seq l = s.seq l ∨ t.seq l = s.outletFound l := by
      by_cases filling : ∃ k ∈ ks, t.tankState k = some .filling
      · exact .inr (joined.found filling)
      · exact .inl (joined.unfound fun k hk e => filling ⟨k, hk, e⟩)
    have kept : (t.seq l).state = (s.seq l).state ∧ (t.seq l).trips = (s.seq l).trips ∧ (t.seq l).permit = (s.seq l).permit := by
      rcases seq with e | e <;> rw [e] <;> exact ⟨rfl, rfl, rfl⟩
    have port : t.port = s.port := by rw [joined.whole]
    refine ⟨_, t.tankWords ks, run, joined.lineup, joined.record, joined.others, joined.found, joined.unfound, kept.1, kept.2.1,
      kept.2.2, ?_, joined.only, ?_⟩
    · rw [State.take_eq, replied, port]
      rfl
    · apply State.eq_of_fields <;> simp only [State.take_eq]
      all_goals rw [joined.whole]
  · rw [State.exec_assign_syntax hr connected sound bad]
    rfl
  · rw [State.exec_assign_refused hr connected sound few distinct fit fault]
    rfl

end Sys2Proof.Machine
end

section
/-! SUPPORT. SET (R93, R119, R172): the settings, rings and timers that a list of settings leaves. -/

namespace Sys2Proof.Machine

/-! ### Settings -/

theorem SettingName.store_value (n m : SettingName) (v : Nat) (x : Settings) :
    settingValue (n.store v x) m = if m = n then v else settingValue x m := by
  cases n <;> cases m <;> rfl

theorem SettingName.store_estw {n : SettingName} (h : n ≠ .estw) (v : Nat) (x : Settings) : (n.store v x).estw = x.estw := by
  have kept := n.store_value .estw v x
  rwa [if_neg h.symm] at kept

theorem SettingName.store_changeover {n : SettingName} (h : n ≠ .changeover) (v : Nat) (x : Settings) :
    (n.store v x).changeover = x.changeover := by
  have kept := n.store_value .changeover v x
  rwa [if_neg h.symm] at kept

/-! ### One record written for every tank -/

theorem modTanks_eq (s : State) (f : Tank → Tank) (ks : List TankId) :
    ks.foldl (fun s k => s.modTank k f) s = { s with tanks := (ks.foldl (fun s k => s.modTank k f) s).tanks } := by
  induction ks generalizing s with
  | nil => rfl
  | cons k ks ih =>
    rw [List.foldl_cons, ih]
    apply State.eq_of_fields <;> simp

theorem modTanks_tank (s : State) (f : Tank → Tank) {ks : List TankId} (distinct : ks.Nodup) (j : TankId) :
    (ks.foldl (fun s k => s.modTank k f) s).tank j = if j ∈ ks then (s.tank j).map f else s.tank j := by
  induction ks generalizing s with
  | nil => simp
  | cons k ks ih =>
    obtain ⟨fresh, distinct⟩ := List.nodup_cons.mp distinct
    rw [List.foldl_cons, ih _ distinct, State.modTank_tank]
    by_cases e : j = k
    · subst e
      simp [fresh]
    · simp [e]

theorem allTanks_nodup : allTanks.Nodup := by decide

/-! ### Timers that a SET expires (R93) -/

/-- R93: the running timer of a record that a SET of the names `ns` expires, with the timeout at `limit`. -/
def Tank.dueBy (ns : List SettingName) (limit now : Nat) (r : Tank) : Option ChangeTimer :=
  r.timer.filter fun c => decide (SettingName.changeover ∈ ns) && c.expired.isNone && decide (limit ≤ now - c.since)

/-- R93, R119: a record after a SET of the names `ns` that leaves the settings `x`. -/
def Tank.setBy (ns : List SettingName) (x : Settings) (now : Nat) (r : Tank) : Tank :=
  { r with
    ring := if SettingName.estw ∈ ns then r.ring.drop (r.ring.length - x.estw) else r.ring
    timer := match r.dueBy ns x.changeover now with
      | some c => some { c with expired := some (now - c.since) }
      | none => r.timer }

theorem Tank.dueBy_of_not_mem {ns : List SettingName} (h : SettingName.changeover ∉ ns) (limit now : Nat) (r : Tank) :
    r.dueBy ns limit now = none := by
  simp [Tank.dueBy, h]

theorem Tank.dueBy_congr {ns ms : List SettingName} (h : SettingName.changeover ∈ ns ↔ SettingName.changeover ∈ ms)
    (limit now : Nat) (r : Tank) : r.dueBy ns limit now = r.dueBy ms limit now := by
  simp only [Tank.dueBy, h]

theorem Tank.dueBy_eq_some {ns : List SettingName} {limit now : Nat} {r : Tank} {c : ChangeTimer} :
    r.dueBy ns limit now = some c ↔
      SettingName.changeover ∈ ns ∧ r.timer = some c ∧ c.expired = none ∧ limit ≤ now - c.since := by
  simp only [Tank.dueBy, Option.filter_eq_some_iff, Bool.and_eq_true, decide_eq_true_eq, Option.isNone_iff_eq_none]
  tauto

theorem Tank.setBy_timer_of_not_mem {ns : List SettingName} (h : SettingName.changeover ∉ ns) (x : Settings) (now : Nat)
    (r : Tank) : (r.setBy ns x now).timer = r.timer := by
  simp [Tank.setBy, Tank.dueBy_of_not_mem h]

theorem Tank.setBy_of_not_mem {ns : List SettingName} (ring : SettingName.estw ∉ ns) (timer : SettingName.changeover ∉ ns)
    (x : Settings) (now : Nat) (r : Tank) : r.setBy ns x now = r := by
  simp [Tank.setBy, Tank.dueBy_of_not_mem timer, ring]

/-- R119: ESTW takes its rates from the ring. -/
theorem Tank.setBy_estw {ns : List SettingName} (h : SettingName.estw ∉ ns) (w : Nat) (x : Settings) (now : Nat) (r : Tank) :
    (r.setBy ns x now).trimRing w = r.setBy (ns ++ [.estw]) (SettingName.store w x .estw) now := by
  have member : SettingName.changeover ∈ ns ++ [.estw] ↔ SettingName.changeover ∈ ns := by simp
  have due := Tank.dueBy_congr member x.changeover now r
  simp only [Tank.setBy, Tank.trimRing, SettingName.store, due, h, if_false, List.mem_append, List.mem_singleton, or_true,
    if_true]

/-- R93: CHANGEOVER judges the timer. -/
theorem Tank.setBy_changeover {ns : List SettingName} (h : SettingName.changeover ∉ ns) (w : Nat) (x : Settings) (now : Nat)
    (r : Tank) : (r.setBy ns x now).timed w now = r.setBy (ns ++ [.changeover]) (SettingName.store w x .changeover) now := by
  have same : (r.setBy ns x now).timed w now = { r.setBy ns x now with timer := r.timer.map (ChangeTimer.judged w now) } := by
    rw [Tank.timed, Tank.setBy_timer_of_not_mem h]
  rw [same]
  have member : SettingName.changeover ∈ ns ++ [.changeover] := by simp
  have other : SettingName.estw ∈ ns ++ [.changeover] ↔ SettingName.estw ∈ ns := by simp
  have timer : r.timer.map (ChangeTimer.judged w now) = (r.setBy (ns ++ [.changeover]) (SettingName.store w x .changeover) now).timer := by
    cases ht : r.timer with
    | none => simp [Tank.setBy, Tank.dueBy, ht]
    | some c =>
      by_cases due : c.expired = none ∧ w ≤ now - c.since
      · have found : r.dueBy (ns ++ [.changeover]) w now = some c := Tank.dueBy_eq_some.mpr ⟨member, ht, due⟩
        simp [Tank.setBy, SettingName.store, found, ChangeTimer.judged, due]
      · have nothing : r.dueBy (ns ++ [.changeover]) w now = none := by
          rw [Option.eq_none_iff_forall_ne_some]
          intro d hd
          obtain ⟨-, hc, late⟩ := Tank.dueBy_eq_some.mp hd
          rw [ht, Option.some.injEq] at hc
          exact due (hc ▸ late)
        simp [Tank.setBy, SettingName.store, nothing, ht, ChangeTimer.judged, due]
  rw [timer]
  simp only [Tank.setBy, SettingName.store, other]

/-- A setting that acts on no record. -/
theorem Tank.setBy_other {ns : List SettingName} {n : SettingName} (ring : n ≠ .estw) (timer : n ≠ .changeover) (w : Nat)
    (x : Settings) (now : Nat) (r : Tank) : r.setBy (ns ++ [n]) (n.store w x) now = r.setBy ns x now := by
  simp only [Tank.setBy, SettingName.store_estw ring, SettingName.store_changeover timer, Tank.dueBy, List.mem_append,
    List.mem_singleton, ring.symm, timer.symm, or_false]

/-- R93: a timer falls due at this moment exactly where a SET of CHANGEOVER would expire it. -/
theorem not_noTimerEnd_iff {s : State} {k : TankId} {ns : List SettingName} (h : SettingName.changeover ∈ ns) :
    ¬ NoTimerEnd s s.clock k ↔
      ∃ r, s.tank k = some r ∧ (r.dueBy ns s.settings.changeover s.clock).isSome = true := by
  simp only [Option.isSome_iff_exists, Tank.dueBy_eq_some, not_forall, Nat.not_lt]
  constructor
  · rintro ⟨c, running, due⟩
    obtain ⟨r, hr, timer, fresh⟩ := (s.runningTimer_some k c).mp running
    rw [ChangeTimer.run, fresh] at due
    exact ⟨r, hr, c, h, timer, fresh, due⟩
  · rintro ⟨r, hr, c, -, timer, fresh, due⟩
    refine ⟨c, (s.runningTimer_some k c).mpr ⟨r, hr, timer, fresh⟩, ?_⟩
    rw [ChangeTimer.run, fresh]
    exact due

/-! ### Alarms of the timers that expire -/

/-- R153: a raised alarm passes every entry of another kind and object by. -/
theorem State.mem_raiseAlarm_other (s : State) {k : AlarmKind} {o : AlarmObject} {a : Alarm} (h : (a.kind, a.object) ≠ (k, o)) :
    a ∈ (s.raiseAlarm k o).alarms ↔ a ∈ s.alarms := by
  have other : ¬ Alarm.isFor k o a = true := fun g => h ((Alarm.isFor_iff k o a).mp g)
  rcases s.raiseAlarm_cases k o with ⟨-, e⟩ | ⟨-, -, -, e⟩ | ⟨-, -, -, e⟩ <;> rw [e]
  · rw [List.mem_append, List.mem_singleton]
    refine ⟨fun g => g.resolve_right fun e => h (by rw [e]), .inl⟩
  · rw [List.mem_map]
    refine ⟨fun ⟨b, hb, eq⟩ => ?_, fun ha => ⟨a, ha, if_neg other⟩⟩
    by_cases g : Alarm.isFor k o b = true
    · rw [if_pos g] at eq
      rw [← eq] at other
      exact absurd g other
    · rwa [if_neg g, ← eq] at *

/-- R93: a timer that is not due stays so while others are judged. -/
theorem NoTimerEnd.judgeChange {s : State} {k : TankId} (h : NoTimerEnd s s.clock k) (j : TankId) :
    NoTimerEnd (s.judgeChange j) (s.judgeChange j).clock k := by
  by_cases e : k = j
  · rw [← e, State.judgeChange_of_none h]
    exact h
  · have running : (s.judgeChange j).runningTimer k = s.runningTimer k := by
      rw [State.runningTimer, State.judgeChange_tank, if_neg e]
      rfl
    unfold NoTimerEnd
    rw [running, (s.judgeChange_keeps j).settings, State.judgeChange_clock]
    exact h

/-- R93: the alarms of the timers that are due alone are raised. -/
theorem judgeChanges_alarms {s : State} {a : Alarm}
    (other : ∀ k, ¬ NoTimerEnd s s.clock k → (a.kind, a.object) ≠ (.changeoverLate, .tank k)) (ks : List TankId) :
    a ∈ (ks.foldl State.judgeChange s).alarms ↔ a ∈ s.alarms := by
  induction ks generalizing s with
  | nil => rfl
  | cons k ks ih =>
    rw [List.foldl_cons, ih fun j due => other j fun early => due (early.judgeChange k)]
    by_cases early : NoTimerEnd s s.clock k
    · rw [State.judgeChange_of_none early]
    · obtain ⟨c, running, due⟩ := not_forall₂.mp early
      rw [State.judgeChange_of_due running (Nat.not_lt.mp due), State.mem_raiseAlarm_other _ (other k early),
        State.notify_alarms, State.modTank_alarms]

theorem judgeChanges_horn {s : State} (h : HornFollows s) (ks : List TankId) : HornFollows (ks.foldl State.judgeChange s) :=
  (Free.foldl (c := .all) ks (fun t k _ => t.judgeChange_free k trivial) s).horn h

/-! ### A list of settings -/

/-- From `s` to `t` the settings `qs` have been stored, and have acted on the records. -/
structure SettingsTaken (qs : List (SettingName × Nat)) (s t : State) : Prop where
  values : ∀ p ∈ qs, settingValue t.settings p.1 = p.2
  kept : ∀ n, n ∉ qs.map (·.1) → settingValue t.settings n = settingValue s.settings n
  whole : t = { s with settings := t.settings, tanks := t.tanks, alarms := t.alarms, horn := t.horn, notices := t.notices }
  tank : ∀ k, t.tank k = (s.tank k).map (Tank.setBy (qs.map (·.1)) t.settings s.clock)
  told : ∀ k r, s.tank k = some r → (r.dueBy (qs.map (·.1)) t.settings.changeover s.clock).isSome = true → LateTold t k
  alarms : ∀ a : Alarm, (∀ k r, s.tank k = some r → (r.dueBy (qs.map (·.1)) t.settings.changeover s.clock).isSome = true →
    (a.kind, a.object) ≠ (.changeoverLate, .tank k)) → (a ∈ t.alarms ↔ a ∈ s.alarms)
  quiet : (∀ k r, s.tank k = some r → r.dueBy (qs.map (·.1)) t.settings.changeover s.clock = none) →
    t.alarms = s.alarms ∧ t.horn = s.horn
  horn : HornFollows s → HornFollows t
  untimed : SettingName.changeover ∉ qs.map (·.1) → t.alarms = s.alarms ∧ t.horn = s.horn ∧ t.notices = s.notices

theorem SettingsTaken.nil (s : State) : SettingsTaken [] s s where
  values _ h := absurd h List.not_mem_nil
  kept _ _ := rfl
  whole := rfl
  tank k := by
    have same : Tank.setBy [] s.settings s.clock = id :=
      funext fun r => Tank.setBy_of_not_mem List.not_mem_nil List.not_mem_nil _ _ r
    rw [List.map_nil, same, Option.map_id_fun, id]
  told k r _ due := by simp [Tank.dueBy] at due
  alarms _ _ := Iff.rfl
  quiet _ := ⟨rfl, rfl⟩
  horn := id
  untimed _ := ⟨rfl, rfl, rfl⟩

/-- A setting is stored. -/
def State.storeSetting (s : State) (p : SettingName × Nat) : State := { s with settings := p.1.store p.2 s.settings }

theorem State.storeSetting_tank (s : State) (p : SettingName × Nat) (k : TankId) : (s.storeSetting p).tank k = s.tank k := rfl

theorem State.setOne_estw (s : State) (w : Nat) : s.setOne (.estw, w) =
    allTanks.foldl (fun s k => s.modTank k (Tank.trimRing w)) (s.storeSetting (.estw, w)) := rfl

theorem State.setOne_changeover (s : State) (w : Nat) : s.setOne (.changeover, w) =
    allTanks.foldl State.judgeChange (s.storeSetting (.changeover, w)) := rfl

theorem State.setOne_other (s : State) {n : SettingName} (ring : n ≠ .estw) (timer : n ≠ .changeover) (w : Nat) :
    s.setOne (n, w) = s.storeSetting (n, w) := by
  cases n
  case estw => exact absurd rfl ring
  case changeover => exact absurd rfl timer
  all_goals rfl

theorem State.setOne_settings (s : State) (p : SettingName × Nat) : (s.setOne p).settings = p.1.store p.2 s.settings := by
  obtain ⟨n, w⟩ := p
  by_cases ring : n = .estw
  · rw [ring, State.setOne_estw, modTanks_eq]
    rfl
  by_cases timer : n = .changeover
  · rw [timer, State.setOne_changeover, (judgeChanges_keeps _ _).settings]
    rfl
  · rw [State.setOne_other s ring timer]
    rfl

section Snoc

variable {qs : List (SettingName × Nat)} {s t : State} (h : SettingsTaken qs s t) (n : SettingName) (w : Nat)
include h

theorem SettingsTaken.values_snoc (fresh : n ∉ qs.map (·.1)) :
    ∀ p ∈ qs ++ [(n, w)], settingValue (t.setOne (n, w)).settings p.1 = p.2 := by
  intro p hp
  rw [State.setOne_settings, SettingName.store_value]
  rcases List.mem_append.mp hp with old | new
  · rw [if_neg fun e => fresh (List.mem_map.mpr ⟨p, old, e⟩)]
    exact h.values p old
  · obtain rfl := List.mem_singleton.mp new
    rw [if_pos rfl]

theorem SettingsTaken.kept_snoc : ∀ m, m ∉ (qs ++ [(n, w)]).map (·.1) →
    settingValue (t.setOne (n, w)).settings m = settingValue s.settings m := by
  intro m hm
  simp only [List.map_append, List.map_cons, List.map_nil, List.mem_append, List.mem_singleton, not_or] at hm
  rw [State.setOne_settings, SettingName.store_value, if_neg hm.2]
  exact h.kept m hm.1

/-- A setting other than CHANGEOVER, which writes no alarm and no notice. -/
theorem SettingsTaken.snoc_untimed (timer : n ≠ .changeover) (fresh : n ∉ qs.map (·.1))
    (whole : t.setOne (n, w) = { t with settings := n.store w t.settings, tanks := (t.setOne (n, w)).tanks })
    (tank : ∀ k, (t.setOne (n, w)).tank k =
      (s.tank k).map (Tank.setBy (qs.map (·.1) ++ [n]) (n.store w t.settings) s.clock)) :
    SettingsTaken (qs ++ [(n, w)]) s (t.setOne (n, w)) := by
  have names : (qs ++ [(n, w)]).map (·.1) = qs.map (·.1) ++ [n] := by simp
  have member : SettingName.changeover ∈ qs.map (·.1) ++ [n] ↔ SettingName.changeover ∈ qs.map (·.1) := by
    rw [List.mem_append, List.mem_singleton, or_iff_left timer.symm]
  have values := h.values_snoc n w fresh
  have kept := h.kept_snoc n w
  have limit := SettingName.store_changeover timer w t.settings
  have same (r : Tank) : r.dueBy (qs.map (·.1) ++ [n]) (n.store w t.settings).changeover s.clock =
      r.dueBy (qs.map (·.1)) t.settings.changeover s.clock := by rw [limit, Tank.dueBy_congr member]
  have settings := t.setOne_settings (n, w)
  generalize t.setOne (n, w) = u at *
  have port : u.port = t.port := by rw [whole]
  have alarms : u.alarms = t.alarms := by rw [whole]
  have horn : u.horn = t.horn := by rw [whole]
  have notices : u.notices = t.notices := by rw [whole]
  refine ⟨values, kept, ?_, fun k => ?_, fun k r hr due => ?_, fun a other => ?_, fun none => ?_, fun follows => ?_, fun out => ?_⟩
  · have before := h.whole
    apply State.eq_of_fields <;> simp only []
    all_goals rw [whole, before]
  · rw [names, settings]
    exact tank k
  · rw [names, settings, same] at due
    exact (h.told k r hr due).congr alarms port (by rw [notices]; exact List.Subset.refl _)
  · rw [names, settings] at other
    simp only [same] at other
    rw [alarms]
    exact h.alarms a other
  · rw [names, settings] at none
    simp only [same] at none
    rw [alarms, horn]
    exact h.quiet none
  · unfold HornFollows
    rw [horn, alarms]
    exact h.horn follows
  · rw [names, member] at out
    rw [alarms, horn, notices]
    exact h.untimed out

theorem SettingsTaken.snoc_changeover (fresh : SettingName.changeover ∉ qs.map (·.1)) :
    SettingsTaken (qs ++ [(.changeover, w)]) s (t.setOne (.changeover, w)) := by
  have names : (qs ++ [(SettingName.changeover, w)]).map (·.1) = qs.map (·.1) ++ [.changeover] := by simp
  have member : SettingName.changeover ∈ qs.map (·.1) ++ [.changeover] := by simp
  have values := h.values_snoc .changeover w fresh
  have kept := h.kept_snoc .changeover w
  have settings := t.setOne_settings (.changeover, w)
  obtain ⟨alarms, horn, notices⟩ := h.untimed fresh
  have clock : t.clock = s.clock := by rw [h.whole]
  have limit : ((SettingName.changeover).store w t.settings).changeover = w := rfl
  have due_iff (k : TankId) : ¬ NoTimerEnd (t.storeSetting (.changeover, w)) t.clock k ↔
      ∃ r, s.tank k = some r ∧ (r.dueBy (qs.map (·.1) ++ [.changeover]) w s.clock).isSome = true := by
    refine (not_noTimerEnd_iff (s := t.storeSetting (.changeover, w)) member).trans ?_
    have due (r : Tank) : (r.setBy (qs.map (·.1)) t.settings s.clock).dueBy (qs.map (·.1) ++ [.changeover]) w t.clock =
        r.dueBy (qs.map (·.1) ++ [.changeover]) w s.clock := by
      rw [clock, Tank.dueBy, Tank.setBy_timer_of_not_mem fresh, Tank.dueBy]
    have record := (t.storeSetting_tank (.changeover, w) k).trans (h.tank k)
    constructor
    · rintro ⟨x, hx, g⟩
      rw [record, Option.map_eq_some_iff] at hx
      obtain ⟨r, hr, rfl⟩ := hx
      exact ⟨r, hr, (congrArg Option.isSome (due r)).symm.trans g⟩
    · rintro ⟨r, hr, g⟩
      exact ⟨_, record.trans (by rw [hr]; rfl), (congrArg Option.isSome (due r)).trans g⟩
  rw [State.setOne_changeover] at *
  have judged := judgeChanges_eq (t.storeSetting (.changeover, w)) allTanks
  refine ⟨values, kept, ?_, fun k => ?_, fun k r hr due => ?_, fun a other => ?_, fun none => ?_, fun follows => ?_, fun out => ?_⟩
  · have before := h.whole
    apply State.eq_of_fields <;> simp only []
    all_goals rw [judged, State.storeSetting, before]
  · rw [names, settings, judgeChanges_tank _ allTanks_nodup (tank_mem_all k)]
    have record := (t.storeSetting_tank (.changeover, w) k).trans (h.tank k)
    rw [record, Option.map_map]
    refine Option.map_congr fun r _ => ?_
    rw [← Tank.setBy_changeover fresh, ← clock]
    rfl
  · rw [names, settings, limit] at due
    obtain ⟨c, running, late⟩ := not_forall₂.mp ((due_iff k).mpr ⟨r, hr, due⟩)
    exact judgeChanges_told running (Nat.not_lt.mp late) (tank_mem_all k)
  · rw [names, settings, limit] at other
    rw [judgeChanges_alarms fun k due => ?_]
    · exact iff_of_eq (congrArg (a ∈ ·) alarms)
    · obtain ⟨r, hr, late⟩ := (due_iff k).mp due
      exact other k r hr late
  · rw [names, settings, limit] at none
    have early (k : TankId) : NoTimerEnd (t.storeSetting (.changeover, w)) t.clock k := by
      by_contra due
      obtain ⟨r, hr, late⟩ := (due_iff k).mp due
      rw [none k r hr] at late
      cases late
    rw [judgeChanges_of_none early]
    exact ⟨alarms, horn⟩
  · have stored : HornFollows (t.storeSetting (.changeover, w)) := h.horn follows
    exact judgeChanges_horn stored allTanks
  · rw [names] at out
    exact absurd member out

/-- One setting more. -/
theorem SettingsTaken.snoc (fresh : n ∉ qs.map (·.1)) : SettingsTaken (qs ++ [(n, w)]) s (t.setOne (n, w)) := by
  by_cases timer : n = .changeover
  · subst timer
    exact h.snoc_changeover w fresh
  by_cases ring : n = .estw
  · subst ring
    have trimmed := modTanks_eq (t.storeSetting (.estw, w)) (Tank.trimRing w) allTanks
    refine h.snoc_untimed .estw w (by decide) fresh ?_ fun k => ?_
    · rw [State.setOne_estw]
      exact trimmed
    · have record := (t.storeSetting_tank (.estw, w) k).trans (h.tank k)
      rw [State.setOne_estw, modTanks_tank _ _ allTanks_nodup, if_pos (tank_mem_all k), record, Option.map_map]
      refine Option.map_congr fun r _ => ?_
      exact Tank.setBy_estw fresh w _ _ r
  · refine h.snoc_untimed n w timer fresh ?_ fun k => ?_
    · rw [State.setOne_other t ring timer]
      rfl
    · have record := (t.storeSetting_tank (n, w) k).trans (h.tank k)
      rw [State.setOne_other t ring timer, record]
      refine Option.map_congr fun r _ => ?_
      exact (Tank.setBy_other ring timer w _ _ r).symm

end Snoc

/-- R172: a list of settings, each once, one after another. -/
theorem State.setAll_taken (s : State) {qs : List (SettingName × Nat)} (distinct : (qs.map (·.1)).Nodup) :
    SettingsTaken qs s (qs.foldl State.setOne s) := by
  induction qs using List.reverseRecOn with
  | nil => exact .nil s
  | append_singleton qs p ih =>
    rw [List.map_append, List.map_singleton, List.nodup_append] at distinct
    obtain ⟨before, -, apart⟩ := distinct
    rw [List.foldl_append, List.foldl_cons, List.foldl_nil]
    exact (ih before).snoc p.1 p.2 fun old => apart _ old _ (List.mem_singleton_self _) rfl

end Sys2Proof.Machine
end

section
/-! SUPPORT. SET and MASK (R168, R172): the lists that read, what each stores, and the lists refused. -/

namespace Sys2Proof.Machine

/-! ### The pairs of a SET -/

/-- The fields of a SET of the settings `ps`. -/
def setFields (ps : List (SettingName × Nat)) : List Field := ps.flatMap fun p => [.word p.1.text, .num p.2]

/-- The settings of a SET with the values used (R172). -/
def usedSettings (ps : List (SettingName × Nat)) : List (SettingName × Nat) := ps.map fun p => (p.1, p.1.used p.2)

theorem usedSettings_names (ps : List (SettingName × Nat)) : (usedSettings ps).map (·.1) = ps.map (·.1) := by
  simp [usedSettings, Function.comp_def]

theorem SettingName.find_text (n : SettingName) :
    (SettingName.all.find? fun x => decide (x.text = n.text)) = some n := by
  cases n <;> rfl

theorem settingPairs_setFields (ps : List (SettingName × Nat)) : settingPairs (setFields ps) = some ps := by
  induction ps with
  | nil => rfl
  | cons p ps ih =>
    have split : setFields (p :: ps) = .word p.1.text :: .num p.2 :: setFields ps := rfl
    rw [split, settingPairs, p.1.find_text, ih]

theorem setFields_of_settingPairs : ∀ {fields : List Field} {ps : List (SettingName × Nat)},
    settingPairs fields = some ps → fields = setFields ps
  | [], _, h => by
    obtain rfl := Option.some.inj h
    rfl
  | .word w :: .num v :: rest, ps, h => by
    rw [settingPairs] at h
    cases name : SettingName.all.find? fun x => decide (x.text = w) with
    | none => simp [name] at h
    | some n =>
      cases tail : settingPairs rest with
      | none => simp [tail] at h
      | some qs =>
        simp only [name, tail, Option.some.injEq] at h
        have text : n.text = w := by simpa using List.find?_some name
        rw [← h, setFields_of_settingPairs tail, ← text]
        rfl
  | .word _ :: .word _ :: _, _, h => nomatch h
  | .num _ :: _, _, h => nomatch h
  | [.word _], _, h => nomatch h

/-! ### SET -/

theorem State.exec_set {s : State} (hr : Ready s) (fields : List Field) : exec (.set fields) s = .next (s.takeSet fields) := by
  show Host.Outcome.next (s.drained.takeSet fields) = _
  rw [State.drained_ready hr]

theorem State.exec_set_taken {s : State} (hr : Ready s) {ps : List (SettingName × Nat)} (some : ps ≠ [])
    (distinct : (ps.map (·.1)).Nodup) : exec (.set (setFields ps)) s = .next (((usedSettings ps).foldl State.setOne s).take ["SET"]
      (ps.flatMap fun p => [p.1.text, numText (p.1.used p.2)] ++ clampedMark p.2 (p.1.used p.2))) := by
  have good : ¬ (ps = [] ∨ ¬ (ps.map (·.1)).Nodup) := by tauto
  rw [State.exec_set hr, State.takeSet, State.afterStartup_ready hr.1]
  simp only [settingPairs_setFields, if_neg good]
  rfl

theorem State.exec_set_syntax {s : State} (hr : Ready s) {fields : List Field}
    (bad : ∀ ps, ps ≠ [] → (ps.map (·.1)).Nodup → fields ≠ setFields ps) :
    exec (.set fields) s = .next (s.refuse ["SET"] ["SYNTAX"]) := by
  rw [State.exec_set hr, State.takeSet, State.afterStartup_ready hr.1]
  cases read : settingPairs fields with
  | none => rfl
  | some ps =>
    have refused : ps = [] ∨ ¬ (ps.map (·.1)).Nodup := by
      by_contra good
      obtain ⟨some, distinct⟩ := not_or.mp good
      exact bad ps some (not_not.mp distinct) (setFields_of_settingPairs read)
    simp only [if_pos refused]

/-- R93, R119: a SET of neither name leaves the tank table. -/
theorem SettingsTaken.tanks {qs : List (SettingName × Nat)} {s t : State} (h : SettingsTaken qs s t)
    (ring : SettingName.estw ∉ qs.map (·.1)) (timer : SettingName.changeover ∉ qs.map (·.1)) : t.tanks = s.tanks := by
  refine vector_ext fun k => (h.tank k).trans ?_
  have same : Tank.setBy (qs.map (·.1)) t.settings s.clock = id := funext fun r => Tank.setBy_of_not_mem ring timer _ _ r
  rw [same, Option.map_id_fun, id]
  rfl

/-! ### MASK -/

theorem State.exec_mask {s : State} (hr : Ready s) (words : List String) : exec (.mask words) s = .next (s.takeMask words) := by
  show Host.Outcome.next (s.drained.takeMask words) = _
  rw [State.drained_ready hr]

theorem NoticeKind.text_ne_slash (k : NoticeKind) : k.text ≠ "/" := by
  cases k <;> decide

theorem exists_of_mapM_eq_some {α β : Type} {f : α → Option β} {xs : List α} {ys : List β} (h : xs.mapM f = some ys) {x : α}
    (hx : x ∈ xs) : ∃ y, f x = some y := by
  induction xs generalizing ys with
  | nil => cases hx
  | cons z xs ih =>
    simp only [List.mapM_cons, Option.bind_eq_bind, Option.bind_eq_some_iff] at h
    obtain ⟨y, hy, zs, hzs, -⟩ := h
    rcases List.mem_cons.mp hx with rfl | later
    · exact ⟨y, hy⟩
    · exact ih hzs later

theorem slash_not_mem_of_maskList {ws : List String} {ks : List NoticeKind} (h : maskList ws = some ks) : "/" ∉ ws := by
  unfold maskList at h
  split_ifs at h with none all empty
  · rw [none]; decide
  · rw [all]; decide
  · intro slash
    obtain ⟨k, hk⟩ := exists_of_mapM_eq_some h slash
    exact k.text_ne_slash (by simpa using List.find?_some hk)

/-- The lists of a MASK are what stands before its first slash and what stands after it. -/
theorem takeWhile_slash {vw : List String} (h : "/" ∉ vw) (mw : List String) :
    (vw ++ "/" :: mw).takeWhile (· ≠ "/") = vw ∧ (vw ++ "/" :: mw).dropWhile (· ≠ "/") = "/" :: mw := by
  have all : ∀ w ∈ vw, decide (w ≠ "/") = true := fun w hw => decide_eq_true fun e => h (e ▸ hw)
  rw [List.takeWhile_append_of_pos all, List.dropWhile_append_of_pos all]
  simp

theorem State.exec_mask_taken {s : State} (hr : Ready s) {vw mw : List String} {vs ms : List NoticeKind}
    (values : maskList vw = some vs) (masked : maskList mw = some ms) :
    exec (.mask (vw ++ "/" :: mw)) s = .next ((s.setMask (newMask vs ms s.port.mask)).take ["MASK"]
      ((newMask vs ms s.port.mask).map NoticeKind.text)) := by
  obtain ⟨before, after⟩ := takeWhile_slash (slash_not_mem_of_maskList values) mw
  rw [State.exec_mask hr, State.takeMask, State.afterStartup_ready hr.1]
  simp only [before, after, values, masked]
  rfl

theorem State.exec_mask_syntax {s : State} (hr : Ready s) {words : List String}
    (bad : ∀ vw mw, words = vw ++ "/" :: mw → "/" ∉ vw → maskList vw = none ∨ maskList mw = none) :
    exec (.mask words) s = .next (s.refuse ["MASK"] ["SYNTAX"]) := by
  rw [State.exec_mask hr, State.takeMask, State.afterStartup_ready hr.1]
  by_cases slash : "/" ∈ words
  · obtain ⟨vw, mw, rfl, first⟩ := List.eq_append_cons_of_mem slash
    obtain ⟨before, after⟩ := takeWhile_slash first mw
    simp only [before, after]
    rcases bad vw mw rfl first with e | e
    · simp only [e]
    · simp only [e]
      cases maskList vw <;> rfl
  · have none : words.dropWhile (· ≠ "/") = [] :=
      List.dropWhile_eq_nil_iff.mpr fun w hw => decide_eq_true fun e => slash (e ▸ hw)
    simp only [none]

/-- Settles O56: the settings one after another (`SettingsTaken`), and the two lists of a MASK. -/
theorem setAndMaskTaken : Obligations.SetAndMaskTaken := by
  refine ⟨fun ps s hr some distinct => ?_, fun vw mw vs ms s hr values masked => ?_, fun fields s hr bad => ?_,
    fun words s hr bad => ?_⟩
  · have run := State.exec_set_taken hr some distinct
    have names := usedSettings_names ps
    have taken := s.setAll_taken (qs := usedSettings ps) (names.symm ▸ distinct)
    generalize (usedSettings ps).foldl State.setOne s = t at run taken
    have port : t.port = s.port := by rw [taken.whole]
    have kept_tanks := taken.tanks
    obtain ⟨values, kept, whole, tank, told, alarms, quiet, horn, untimed⟩ := taken
    rw [names] at kept kept_tanks tank told alarms quiet untimed
    refine ⟨_, ps.flatMap fun p => [p.1.text, numText (p.1.used p.2)] ++ clampedMark p.2 (p.1.used p.2), run,
      fun p hp => values _ (List.mem_map.mpr ⟨p, hp, rfl⟩), kept, ?_, ?_, kept_tanks, tank, fun k r hr due => ?_, alarms,
      quiet, horn, untimed⟩
    · rw [State.take_eq, replied, port]
      rfl
    · apply State.eq_of_fields <;> simp only [State.take_eq]
      all_goals rw [whole]
    · obtain ⟨present, noticed⟩ := told k r hr due
      exact ⟨present, fun m => noticed (port ▸ m)⟩
  · exact State.exec_mask_taken hr values masked
  · exact State.exec_set_syntax hr bad
  · exact State.exec_mask_syntax hr bad

end Sys2Proof.Machine
end

section
/-! SUPPORT. A tank that changes its state or leaves its lineup, and what its line is told of it (R79, R82, R96). -/

namespace Sys2Proof.Machine

/-! ### Writes of records and lineups -/

/-- From `s` to `t` records, lineups, alarms and notices alone have been written. -/
def Regrouped (s t : State) : Prop :=
  t = { s with lineups := t.lineups, tanks := t.tanks, alarms := t.alarms, horn := t.horn, notices := t.notices }

theorem Regrouped.refl (s : State) : Regrouped s s := rfl

theorem Regrouped.trans {s t u : State} (h : Regrouped s t) (g : Regrouped t u) : Regrouped s u := by
  unfold Regrouped at *
  apply State.eq_of_fields <;> simp only []
  all_goals rw [g, h]

theorem State.modTank_regrouped (s : State) (k : TankId) (f : Tank → Tank) : Regrouped s (s.modTank k f) := by
  apply State.eq_of_fields <;> simp

theorem State.modTankNoticed_regrouped (s : State) (k : TankId) (f : Tank → Tank) : Regrouped s (s.modTankNoticed k f) := by
  apply State.eq_of_fields <;> simp

theorem State.alarmGone_regrouped (s : State) (a : AlarmKind) (o : AlarmObject) : Regrouped s (s.alarmGone a o) := by
  apply State.eq_of_fields <;> simp

theorem State.moveTank_regrouped (s : State) (k : TankId) (st : TankState) : Regrouped s (s.moveTank k st) := by
  have moved := s.modTankNoticed_regrouped k (Tank.moved st s.clock)
  unfold State.moveTank
  simp only []
  split
  · exact moved.trans (State.alarmGone_regrouped _ _ _)
  · exact moved

theorem State.leaveLineup_regrouped (s : State) (k : TankId) : Regrouped s (s.leaveLineup k) := by
  unfold State.leaveLineup
  split
  · exact .refl s
  · apply State.eq_of_fields <;> simp

theorem State.moveTank_tank (s : State) (k : TankId) (st : TankState) :
    (s.moveTank k st).tank k = (s.tank k).map (Tank.moved st s.clock) := by
  unfold State.moveTank
  simp only []
  split <;> simp

theorem State.moveTank_lineup (s : State) (k : TankId) (st : TankState) (l : LineId) :
    (s.moveTank k st).lineup l = s.lineup l := by
  unfold State.moveTank
  simp only []
  split <;> simp

/-- R82, R101: the record of a tank that leaves its lineup. -/
theorem State.leaveLineup_tank (s : State) (k : TankId) : (s.leaveLineup k).tank k =
    (s.tank k).map fun r => if r.line.isSome then { r with line := none, stale := false } else r := by
  unfold State.leaveLineup State.tankLine
  cases h : s.tank k with
  | none => simp [h]
  | some r =>
    cases hl : r.line with
    | none => simp [h, hl]
    | some l => simp [h, hl]

/-! ### What a line is told (R96) -/

/-- From `s` to `c` line `l` has been told that a tank has left the state `was`. -/
structure LineTold (l : LineId) (was : TankState) (s c : State) : Prop where
  topping : was = .topping → ToldOfTopping s c l ∧ (c.rate l).throttle = decide (0 < c.countIn l .topping)
  others : was ≠ .topping → c.rate l = s.rate l ∧ c.meas l = s.meas l
  rate : c.rate l = { s.rate l with throttle := (c.rate l).throttle, eff := (c.rate l).eff, governing := (c.rate l).governing }
  meas : c.meas l = { s.meas l with steady := (c.meas l).steady, inRun := (c.meas l).inRun, outRun := (c.meas l).outRun }
  seq : c.seq l = if was = .full ∧ c.countIn l .full = 0 then
    { s.seq l with holds := setErase .tankFull (s.seq l).holds, pump := pumpPermit (s.seq l) s.esd.loop } else s.seq l
  drive : c.drive l = s.drive l

theorem State.formed_eq (s : State) (l : LineId) (r : Rate) :
    s.formed l r = { r with eff := (s.formed l r).eff, governing := (s.formed l r).governing } := by
  unfold State.formed
  split <;> rfl

theorem State.measAt_eq (s : State) (l : LineId) (eff : Option Nat) : s.measAt l eff = { s.meas l with
    steady := (s.measAt l eff).steady, inRun := (s.measAt l eff).inRun, outRun := (s.measAt l eff).outRun } := by
  unfold State.measAt Meas.unsteady
  split <;> rfl

/-- R96: a line told of a tank that has been written after `s`. -/
theorem Regrouped.told {s u : State} (h : Regrouped s u) {l : LineId} (others : ∀ j, j ≠ l → u.lineup j = s.lineup j)
    (was : TankState) : LineTold l was s (u.tellDeparture l was) := by
  have whole := u.tellDeparture_eq l was
  have full : u.leftFull l = s.leftFull l := by funext f n; rw [h]; rfl
  have top : u.leftTopping l = s.leftTopping l := by funext f n; rw [h]; rfl
  have at' : u.measAt l = s.measAt l := by funext x; rw [h]; rfl
  have seqs : u.seqs = s.seqs := by rw [h]
  have rates : u.rates = s.rates := by rw [h]
  have meass : u.meass = s.meass := by rw [h]
  have drives : u.drives = s.drives := by rw [h]
  rw [full, top, at', State.meas, meass] at whole
  have own := (u.tellDeparture_own l was).only
  have count (st : TankState) : (u.tellDeparture l was).countIn l st = u.countIn l st := by rw [whole]; rfl
  have seq : (u.tellDeparture l was).seq l = s.leftFull l (decide (was = .full)) (u.countIn l .full) := by
    rw [whole]; simp [State.seq]
  have rate : (u.tellDeparture l was).rate l = s.leftTopping l (decide (was = .topping)) (u.countIn l .topping) := by
    rw [whole]; simp [State.rate]
  have meas : (u.tellDeparture l was).meas l = if was = .topping then s.measAt l ((u.tellDeparture l was).rate l).eff
      else s.meas l := by
    rw [rate, whole]; simp [State.meas]
  have drive : (u.tellDeparture l was).drive l = s.drive l := by rw [whole, State.drive, drives]; rfl
  have only : OnlyLine s (u.tellDeparture l was) l := fun j hj => by
    obtain ⟨q, r, m, d, lu⟩ := own j hj
    rw [q, r, m, d, lu, others j hj, State.seq, State.rate, State.meas, State.drive, seqs, rates, meass, drives]
    exact ⟨rfl, rfl, rfl, rfl, rfl⟩
  generalize u.tellDeparture l was = c at *
  refine ⟨fun e => ?_, fun e => ⟨?_, ?_⟩, ?_, ?_, ?_, drive⟩
  · have formed : c.rate l = s.formed l (throttledBy s c l) := by
      rw [rate, State.leftTopping, decide_eq_true e, if_pos rfl, throttledBy, count]
    refine ⟨toldOfTopping formed (by rw [meas, if_pos e]) only, ?_⟩
    rw [formed, State.formed_eq]
    rfl
  · rw [rate, State.leftTopping, decide_eq_false e, if_neg Bool.false_ne_true]
  · rw [meas, if_neg e]
  · rw [rate, State.leftTopping]
    split
    · rw [State.formed_eq]
    · rfl
  · rw [meas]
    split
    · exact State.measAt_eq _ _ _
    · rfl
  · rw [seq, State.leftFull, count]
    simp only [decide_eq_true_eq]

end Sys2Proof.Machine
end

section
/-! SUPPORT. The transitions of a level report (R86, R88, R96, R97), on the record and on its line. -/

namespace Sys2Proof.Machine

/-! ### Counts over a lineup -/

theorem State.countIn_congr {s t : State} {l : LineId} {st : TankState} (lineup : t.lineup l = s.lineup l)
    (tanks : ∀ k ∈ s.lineup l, t.tank k = s.tank k) : t.countIn l st = s.countIn l st := by
  unfold State.countIn State.tankState
  rw [lineup]
  exact congrArg List.length (List.filter_congr fun k hk => by rw [tanks k hk])

theorem openOutlets_congr {s t : State} {l : LineId} (lineup : t.lineup l = s.lineup l)
    (tanks : ∀ k ∈ s.lineup l, t.tank k = s.tank k) : openOutlets t l = openOutlets s l := by
  unfold openOutlets
  rw [lineup]
  exact List.filter_congr fun k hk => by rw [tanks k hk]

/-- R97: the count of open valves is that of the tanks with an open valve. -/
theorem State.openValves_eq (s : State) (l : LineId) : s.openValves l = (openOutlets s l).length := rfl

theorem LineTold.congr {l : LineId} {was : TankState} {s c u : State} (h : LineTold l was s c) (seqs : u.seqs = c.seqs)
    (rates : u.rates = c.rates) (meass : u.meass = c.meass) (drives : u.drives = c.drives) (lineups : u.lineups = c.lineups)
    (count : ∀ st, u.countIn l st = c.countIn l st) : LineTold l was s u := by
  have seq (j : LineId) : u.seq j = c.seq j := by rw [State.seq, seqs]; rfl
  have rate (j : LineId) : u.rate j = c.rate j := by rw [State.rate, rates]; rfl
  have meas (j : LineId) : u.meas j = c.meas j := by rw [State.meas, meass]; rfl
  have drive (j : LineId) : u.drive j = c.drive j := by rw [State.drive, drives]; rfl
  have lineup (j : LineId) : u.lineup j = c.lineup j := by rw [State.lineup, lineups]; rfl
  obtain ⟨topping, others, fr, fm, fs, fd⟩ := h
  refine ⟨fun e => ?_, ?_, by rwa [rate], by rwa [meas], by rwa [seq, count], by rwa [drive]⟩
  · obtain ⟨⟨formed, only⟩, throttle⟩ := topping e
    refine ⟨⟨?_, fun j hj => ?_⟩, by rwa [rate, count]⟩
    · rw [rate, meas, throttledBy, count]
      exact formed
    · rw [seq, rate, meas, drive, lineup]
      exact only j hj
  · rwa [rate, meas]

/-! ### The two ways a tank departs -/

/-- R86, R88: a tank out of its lineup and LISTED, with TOPPED set where `b` says so, before its line is told. -/
def State.takeOff (s : State) (k : TankId) (b : Bool) : State :=
  ((s.moveTank k .listed).leaveLineup k).modTankNoticed k fun x => { x with topped := x.topped || b }

theorem State.takeOff_regrouped (s : State) (k : TankId) (b : Bool) : Regrouped s (s.takeOff k b) :=
  ((s.moveTank_regrouped k _).trans (State.leaveLineup_regrouped _ k)).trans (State.modTankNoticed_regrouped _ k _)

theorem State.takeOff_tank {s : State} {k : TankId} {r : Tank} {l : LineId} (h : s.tank k = some r) (hl : r.line = some l)
    (b : Bool) : (s.takeOff k b).tank k = some { r.offLine with topped := r.topped || b } := by
  simp [State.takeOff, State.leaveLineup_tank, State.moveTank_tank, h, hl, Tank.moved, Tank.offLine]

theorem State.takeOff_lineup {s : State} {k : TankId} {l : LineId} (h : s.tankLine k = some l) (b : Bool) (j : LineId) :
    (s.takeOff k b).lineup j = if j = l then setErase k (s.lineup l) else s.lineup j := by
  have line : (s.moveTank k .listed).tankLine k = some l := by rw [State.tankLine_moveTank, h]
  rw [State.takeOff, State.modTankNoticed_lineup, State.leaveLineup_lineup, line, State.moveTank_lineup]
  by_cases e : j = l
  · subst e; simp
  · simp [e, Ne.symm e]

theorem State.listTank_takeOff {s : State} {k : TankId} {r : Tank} {l : LineId} (h : s.tank k = some r) (hl : r.line = some l)
    (b : Bool) : s.listTank k b = ((s.takeOff k b).tellDeparture l r.state).applyPending k := by
  unfold State.listTank State.takeOff
  rw [h]
  simp only [hl]

theorem not_mem_setErase {α : Type} [DecidableEq α] (x : α) (xs : List α) : x ∉ setErase x xs := by
  simp [setErase]

/-- R82, R86, R96: a tank that becomes LISTED, and its line. -/
theorem State.listTank_lineTold {s : State} {k : TankId} {r : Tank} {l : LineId} (h : s.tank k = some r) (hl : r.line = some l)
    (b : Bool) : LineTold l r.state s (s.listTank k b) ∧ (s.listTank k b).tank k = unlined { r with topped := r.topped || b }
      ∧ (s.listTank k b).lineup l = setErase k (s.lineup l)
      ∧ (s.listTank k b).link = s.link.without fun j =>
          decide (j = k) && (unlined { r with topped := r.topped || b }).isNone := by
  have line : s.tankLine k = some l := by simp [State.tankLine, h, hl]
  have off := s.takeOff_regrouped k b
  have told := off.told (l := l) (fun j hj => by rw [State.takeOff_lineup line, if_neg hj]) r.state
  have own := (s.takeOff k b).tellDeparture_own l r.state
  have record := (own.tank k).trans (State.takeOff_tank h hl b)
  have lineup : ((s.takeOff k b).tellDeparture l r.state).lineup l = setErase k (s.lineup l) := by
    rw [State.lineup, own.elsewhere.lineups, ← State.lineup, State.takeOff_lineup line, if_pos rfl]
  have link : ((s.takeOff k b).tellDeparture l r.state).link = s.link := by rw [own.elsewhere.link, off]
  rw [State.listTank_takeOff h hl]
  generalize (s.takeOff k b).tellDeparture l r.state = c at *
  have applied := State.applyPending_eq record
  have tank : ∀ j, j ≠ k → (c.applyPending k).tank j = c.tank j := fun j hj => by
    rw [applied, State.tank, vget_vset, if_neg hj]
    rfl
  have same : (c.applyPending k).lineup l = c.lineup l := by rw [applied]; rfl
  refine ⟨told.congr (by rw [applied]) (by rw [applied]) (by rw [applied]) (by rw [applied]) (by rw [applied]) fun st => ?_, ?_, ?_, ?_⟩
  · refine State.countIn_congr same fun j hj => tank j fun e => ?_
    rw [lineup, e] at hj
    exact not_mem_setErase k _ hj
  · rw [State.applyPending_tank, record]
    rfl
  · rw [same, lineup]
  · rw [applied, link]
    rfl

/-- R88, R96: a tank that changes to a state in which it stays lined up, and its line. -/
theorem State.shiftTank_lineTold {s : State} {k : TankId} {r : Tank} {l : LineId} {st : TankState} (h : s.tank k = some r)
    (hl : r.line = some l) (hst : r.state ≠ st) : LineTold l r.state s (s.shiftTank k st)
      ∧ (s.shiftTank k st).tank k = some (r.moved st s.clock) ∧ (s.shiftTank k st).lineup l = s.lineup l
      ∧ (s.shiftTank k st).link = s.link := by
  have moved := s.moveTank_regrouped k st
  have e : s.shiftTank k st = (s.moveTank k st).tellDeparture l r.state := by
    unfold State.shiftTank
    rw [h]
    simp only [hl, if_neg hst]
  have own := (s.moveTank k st).tellDeparture_own l r.state
  rw [e]
  refine ⟨moved.told (fun j _ => s.moveTank_lineup k st j) _, ?_, ?_, ?_⟩
  · rw [own.tank, State.moveTank_tank, h]
    rfl
  · rw [State.lineup, own.elsewhere.lineups, ← State.lineup, State.moveTank_lineup]
  · rw [own.elsewhere.link, moved]

/-! ### The transitions -/

/-- From `s` to `u` the transitions of a report have been made of tank `k`, which stood with the record `r` in the lineup of line
`l` (R86, R88, R96, R97). -/
structure Transition (k : TankId) (l : LineId) (r : Tank) (s u : State) : Prop where
  only : OnlyLine s u l
  gone : (u.tank k).bind (·.line) = none → k ∉ u.lineup l
  stays : (u.tank k).bind (·.line) = some l → u.lineup l = s.lineup l
  filling : r.state = .assigned → u.tankState k = some .filling →
    HoldCause.noOutlet ∉ (u.seq l).holds ∧ openOutlets u l ≠ []
  full : r.state = .full → u.tankState k ≠ some .full → u.countIn l .full = 0 → HoldCause.tankFull ∉ (u.seq l).holds
  topping : r.state = .topping → u.tankState k ≠ some .topping →
    ToldOfTopping s u l ∧ (u.rate l).throttle = decide (0 < u.countIn l .topping)
  still : r.state ≠ .topping ∨ u.tankState k = some .topping → u.meas l = s.meas l ∧ u.rate l = s.rate l
  seq : u.seq l = { s.seq l with holds := (u.seq l).holds, pump := (u.seq l).pump }
  holds : HoldCause.noOutlet ∈ (u.seq l).holds → HoldCause.noOutlet ∈ (s.seq l).holds
  rate : u.rate l = { s.rate l with throttle := (u.rate l).throttle, eff := (u.rate l).eff, governing := (u.rate l).governing }
  meas : u.meas l = { s.meas l with steady := (u.meas l).steady, inRun := (u.meas l).inRun, outRun := (u.meas l).outRun }
  drive : u.drive l = s.drive l

/-- A report that leaves the state of the tank leaves its line. -/
theorem Transition.quiet {k : TankId} {l : LineId} {r : Tank} {s u : State} (h : Regrouped s u) (lineups : u.lineups = s.lineups)
    (state : u.tankState k = some r.state) (line : (u.tank k).bind (·.line) = some l) : Transition k l r s u := by
  have seq (j : LineId) : u.seq j = s.seq j := by rw [h]; rfl
  have rate (j : LineId) : u.rate j = s.rate j := by rw [h]; rfl
  have meas (j : LineId) : u.meas j = s.meas j := by rw [h]; rfl
  have drive (j : LineId) : u.drive j = s.drive j := by rw [h]; rfl
  have lineup (j : LineId) : u.lineup j = s.lineup j := by rw [State.lineup, lineups]; rfl
  refine ⟨fun j _ => ⟨seq j, rate j, meas j, drive j, lineup j⟩, fun e => ?_, fun _ => lineup l, fun e g => ?_, fun e g => ?_,
    fun e g => ?_, fun _ => ⟨meas l, rate l⟩, by rw [seq], by rw [seq]; exact id, by rw [rate], by rw [meas], drive l⟩
  · rw [line] at e
    cases e
  · rw [state, e] at g
    cases g
  · exact absurd (state.trans (congrArg some e)) g
  · exact absurd (state.trans (congrArg some e)) g

/-- A departure from a state other than ASSIGNED, of which the line is told. -/
theorem LineTold.transition {k : TankId} {l : LineId} {r : Tank} {s u : State} (told : LineTold l r.state s u)
    (only : OnlyLine s u l) (assigned : r.state ≠ .assigned) (left : u.tankState k ≠ some r.state)
    (gone : (u.tank k).bind (·.line) = none → k ∉ u.lineup l)
    (stays : (u.tank k).bind (·.line) = some l → u.lineup l = s.lineup l) : Transition k l r s u := by
  obtain ⟨topping, others, rate, meas, seq, drive⟩ := told
  refine ⟨only, gone, stays, fun e => absurd e assigned, fun e _ none => ?_, fun e _ => topping e, fun e => ?_, ?_, fun m => ?_,
    rate, meas, drive⟩
  · rw [seq, if_pos ⟨e, none⟩]
    exact not_mem_setErase _ _
  · have other : r.state ≠ .topping := e.elim id fun g t => left (g.trans (congrArg some t.symm))
    exact (others other).symm
  · rw [seq]
    split <;> rfl
  · rw [seq] at m
    split at m
    · exact (mem_setErase.mp m).1
    · exact m

end Sys2Proof.Machine
end

section
/-! SUPPORT. The transitions that each reported valve brings (R88), and the record that they leave (R86). -/

namespace Sys2Proof.Machine

theorem State.clearRing_tank (s : State) (k : TankId) :
    (s.clearRing k).tank k = (s.tank k).map fun r => { r with ring := [], anchor := none } := by
  simp [State.clearRing]

/-- A line told of a tank of a record that has been written before. -/
theorem Regrouped.lineTold {s u c : State} {l : LineId} {was : TankState} (h : Regrouped s u) (lineups : u.lineups = s.lineups)
    (told : LineTold l was u c) : LineTold l was s c := by
  have seq (j : LineId) : u.seq j = s.seq j := by rw [h]; rfl
  have rate (j : LineId) : u.rate j = s.rate j := by rw [h]; rfl
  have meas (j : LineId) : u.meas j = s.meas j := by rw [h]; rfl
  have drive (j : LineId) : u.drive j = s.drive j := by rw [h]; rfl
  have lineup (j : LineId) : u.lineup j = s.lineup j := by rw [State.lineup, lineups]; rfl
  have esd : u.esd = s.esd := by rw [h]
  obtain ⟨topping, others, fr, fm, fs, fd⟩ := told
  refine ⟨fun e => ?_, by rwa [← rate, ← meas], by rwa [← rate], by rwa [← meas], by rwa [← seq, ← esd], by rwa [← drive]⟩
  obtain ⟨⟨formed, only⟩, throttle⟩ := topping e
  refine ⟨⟨?_, fun j hj => ?_⟩, throttle⟩
  · rw [h] at formed
    exact formed
  · rw [← seq, ← rate, ← meas, ← drive, ← lineup]
    exact only j hj

/-- R86: a record that becomes LISTED is so with no line, unless its pending entry removes it. -/
theorem unlined_state {r x : Tank} (h : unlined r = some x) : x.state = .listed := by
  unfold unlined pendingApplied at h
  split at h
  · exact (Option.some.inj h) ▸ rfl
  · cases h
  · exact (Option.some.inj h) ▸ rfl

theorem Link.without_of_isNone (x : Link) (k : TankId) {gone : Bool} (h : gone = true) :
    k ∉ (x.without fun j => decide (j = k) && gone).poll := by
  simp [Link.without, h]

/-! ### The transitions of a lined-up tank -/

/-- From `s` to `u` a report has brought tank `k` of line `l`, with the record `r` after its steps 3 and 4, its transitions. -/
structure Transited (k : TankId) (l : LineId) (r : Tank) (s u : State) : Prop where
  line : Transition k l r s u
  tank : u.tank k = transited r
  link : transited r ≠ none → u.link = s.link
  poll : transited r = none → k ∉ u.link.poll

section Lined

variable {s a : State} {k : TankId} {l : LineId} {r : Tank} (stored : Regrouped s a) (lineups : a.lineups = s.lineups)
  (h : a.tank k = some r) (hl : r.line = some l)
include stored lineups h hl

/-- R88: a report of OPEN to an ASSIGNED tank with a volume. -/
theorem Transited.filling (assigned : r.state = .assigned) (opened : r.valve = .opened) (volume : r.vRep ≠ none)
    (member : k ∈ s.lineup l) (only : OnlyLine s (a.startFilling k) l) : Transited k l r s (a.startFilling k) := by
  have line : a.tankLine k = some l := by simp [State.tankLine, h, hl]
  have e : a.startFilling k = (a.shiftTank k .filling).dropHold l .noOutlet := by
    unfold State.startFilling
    rw [line]
  obtain ⟨told, tank, lineup, link⟩ := State.shiftTank_lineTold h hl (st := .filling) (by rw [assigned]; decide)
  have told := stored.lineTold lineups told
  have own := (a.shiftTank k .filling).dropHold_own l .noOutlet
  have moved : r.moved .filling a.clock = { r with state := .filling, timer := none } := by simp [Tank.moved]
  obtain ⟨rate, meas⟩ := told.others (by rw [assigned]; decide)
  have seq := told.seq
  rw [if_neg (by rw [assigned]; exact fun g => by cases g.1)] at seq
  have record : (a.startFilling k).tank k = some { r with state := .filling, timer := none } := by
    rw [e, own.tank, tank, moved]
  have same : (a.startFilling k).lineup l = s.lineup l := by
    rw [e, State.lineup, own.elsewhere.lineups, ← State.lineup, lineup, State.lineup, lineups]
    rfl
  have dropped : (a.startFilling k).seq l =
      { s.seq l with holds := setErase .noOutlet (s.seq l).holds, pump := ((a.startFilling k).seq l).pump } := by
    rw [e, State.dropHold_seq, if_pos rfl, seq]
  have fate : transited r = some { r with state := .filling, timer := none } := by
    rw [transited, if_pos opened, if_pos ⟨assigned, volume⟩]
  have outlet : openOutlets (a.startFilling k) l ≠ [] := by
    refine List.ne_nil_of_mem (a := k) (List.mem_filter.mpr ⟨same ▸ member, ?_⟩)
    simp [record, opened]
  have rate' : (a.startFilling k).rate l = s.rate l := by rw [e, ← rate]; simp [State.dropHold]
  have meas' : (a.startFilling k).meas l = s.meas l := by rw [e, ← meas]; simp [State.dropHold]
  have drive : (a.startFilling k).drive l = s.drive l := by rw [e, ← told.drive]; simp [State.dropHold]
  refine ⟨⟨only, fun none => ?_, fun _ => same, fun _ _ => ⟨?_, outlet⟩, fun full => ?_, fun topping => ?_,
    fun _ => ⟨meas', rate'⟩, ?_, fun m => ?_, by rw [rate'], by rw [meas'], drive⟩, record.trans fate.symm, fun _ => ?_,
    fun none => ?_⟩
  · rw [record] at none
    exact absurd (hl.symm.trans none) (by simp)
  · rw [dropped]
    exact not_mem_setErase _ _
  · rw [assigned] at full
    cases full
  · rw [assigned] at topping
    cases topping
  · exact dropped.trans (by rw [dropped])
  · rw [dropped] at m
    exact (mem_setErase.mp m).1
  · rw [e, own.elsewhere.link, link, stored]
  · rw [fate] at none
    cases none

/-- R88: a report of CLOSED to a tank in FILLING or TOPPING. -/
theorem Transited.stopped (state : r.state = .filling ∨ r.state = .topping) (fate : transited r = some (r.moved .assigned a.clock))
    (only : OnlyLine s (a.shiftTank k .assigned) l) : Transited k l r s (a.shiftTank k .assigned) := by
  have other : r.state ≠ .assigned := by rcases state with e | e <;> rw [e] <;> decide
  obtain ⟨told, tank, lineup, link⟩ := State.shiftTank_lineTold h hl other
  have told := stored.lineTold lineups told
  refine ⟨told.transition only other ?_ (fun none => ?_) (fun _ => ?_), tank.trans fate.symm, fun _ => ?_, fun none => ?_⟩
  · rw [State.tankState, tank]
    exact fun e => other (Option.some.inj e).symm
  · rw [tank] at none
    exact absurd (hl.symm.trans none) (by simp)
  · rw [lineup, State.lineup, lineups]
    rfl
  · rw [link, stored]
  · rw [fate] at none
    cases none

/-- R88: a report of CLOSED to a tank in FULL or RELEASING. -/
theorem Transited.listed {b : Bool} (state : r.state = .full ∨ r.state = .releasing)
    (fate : transited r = unlined { r with topped := r.topped || b }) (only : OnlyLine s (a.listTank k b) l) :
    Transited k l r s (a.listTank k b) := by
  have assigned : r.state ≠ .assigned := by rcases state with e | e <;> rw [e] <;> decide
  have listed : r.state ≠ .listed := by rcases state with e | e <;> rw [e] <;> decide
  obtain ⟨told, tank, lineup, link⟩ := State.listTank_lineTold h hl b
  have told := stored.lineTold lineups told
  rw [← fate] at tank link
  refine ⟨told.transition only assigned (fun e => ?_) (fun _ => ?_) (fun line => ?_), tank, fun some => ?_, fun none => ?_⟩
  · rw [State.tankState, tank, fate, Option.map_eq_some_iff] at e
    obtain ⟨x, hx, e⟩ := e
    exact listed (e.symm.trans (unlined_state hx))
  · rw [lineup]
    exact not_mem_setErase _ _
  · rw [tank, fate, unlined_line] at line
    cases line
  · have still : (transited r).isNone = false := by simpa [Option.isNone_eq_false_iff, Option.isSome_iff_ne_none] using some
    rw [link, still]
    simp only [Bool.and_false, Link.without_none]
    rw [stored]
  · rw [link]
    exact Link.without_of_isNone _ _ (by rw [none]; rfl)

/-- A report that brings no transition. -/
theorem Transited.quiet (state : transited r = some r) : Transited k l r s a := by
  refine ⟨.quiet stored lineups (by rw [State.tankState, h]; rfl) (by rw [h]; exact hl), h.trans state.symm, fun _ => by rw [stored],
    fun none => ?_⟩
  rw [state] at none
  cases none

end Lined

end Sys2Proof.Machine
end

section
/-! SUPPORT. The transitions of a level report, by the reported valve and the state of the tank (R88). -/

namespace Sys2Proof.Machine

/-- R118: what a report of CLOSED brings does not read the ring. -/
theorem transited_cleared {r : Tank} (closed : r.valve ≠ .opened) :
    transited { r with ring := [], anchor := none } = transited r := by
  unfold transited
  simp only [if_neg closed]

theorem Transited.of_cleared {k : TankId} {l : LineId} {r : Tank} {s u : State} (closed : r.valve ≠ .opened)
    (h : Transited k l { r with ring := [], anchor := none } s u) : Transited k l r s u := by
  obtain ⟨line, tank, link, poll⟩ := h
  rw [transited_cleared closed] at tank link poll
  obtain ⟨only, gone, stays, filling, full, topping, still, seq, holds, rate, meas, drive⟩ := line
  exact ⟨⟨only, gone, stays, filling, full, topping, still, seq, holds, rate, meas, drive⟩, tank, link, poll⟩

/-- R88: what a report of CLOSED does with each state: back to ASSIGNED, to LISTED, or no change. -/
theorem TankState.reported (st : TankState) :
    ((st = .filling ∨ st = .topping) ∨ st = .full ∨ st = .releasing) ∨ st = .listed ∨ st = .assigned ∨ st = .overfill := by
  cases st <;> decide

/-- R88: the transitions of a tank in a lineup. -/
theorem State.reportTransition_lined {s a : State} {k : TankId} {l : LineId} {r : Tank} {w : ValveWord} (stored : Regrouped s a)
    (lineups : a.lineups = s.lineups) (h : a.tank k = some r) (hl : r.line = some l) (word : r.valve = reportedValve w)
    (member : k ∈ s.lineup l) (only : OnlyLine s (a.reportTransition k w) l) : Transited k l r s (a.reportTransition k w) := by
  cases w with
  | opened =>
    by_cases fills : r.state = .assigned ∧ r.vRep.isSome = true
    · have e : a.reportTransition k .opened = a.startFilling k := by
        simp only [State.reportTransition, h, if_pos fills]
      rw [e] at only ⊢
      exact .filling stored lineups h hl fills.1 word (Option.isSome_iff_ne_none.mp fills.2) member only
    · have e : a.reportTransition k .opened = a := by
        simp only [State.reportTransition, h, if_neg fills]
      rw [e]
      refine .quiet stored lineups h hl ?_
      rw [Option.isSome_iff_ne_none] at fills
      have opened : r.valve = .opened := word
      rw [transited, if_pos opened, if_neg fills]
  | closed =>
    have closed : r.valve ≠ .opened := by rw [word]; decide
    have cleared : Regrouped s (a.clearRing k) := stored.trans (a.modTank_regrouped k _)
    have same : (a.clearRing k).lineups = s.lineups := by rw [← lineups]; simp [State.clearRing]
    have record : (a.clearRing k).tank k = some { r with ring := [], anchor := none } := by rw [State.clearRing_tank, h]; rfl
    refine .of_cleared closed ?_
    rcases r.state.reported with (stopped | listed) | kept
    · have e : a.reportTransition k .closed = (a.clearRing k).shiftTank k .assigned := by
        rcases stopped with state | state <;> simp only [State.reportTransition, h, state]
      rw [e] at only ⊢
      refine .stopped cleared same record hl stopped ?_ only
      rcases stopped with state | state <;> simp [transited, closed, state, Tank.moved]
    · have e : a.reportTransition k .closed = (a.clearRing k).listTank k (decide (r.state = .full)) := by
        rcases listed with state | state <;> simp [State.reportTransition, h, state]
      rw [e] at only ⊢
      refine .listed cleared same record hl listed ?_ only
      rcases listed with state | state <;> simp [transited, closed, state]
    · have e : a.reportTransition k .closed = a.clearRing k := by
        rcases kept with state | state | state <;> simp only [State.reportTransition, h, state]
      rw [e]
      refine .quiet cleared same record hl ?_
      rcases kept with state | state | state <;> simp [transited, closed, state]

/-- R88: a tank that is not watched keeps its state, and its lineup too. -/
theorem State.reportTransition_unwatched {a : State} {k : TankId} {r : Tank} {w : ValveWord} (h : a.tank k = some r)
    (out : r.state.watched = false) (word : r.valve = reportedValve w) :
    (a.reportTransition k w).tank k = transited r ∧ transited r ≠ none
      ∧ a.reportTransition k w = { a with tanks := (a.reportTransition k w).tanks } := by
  have state : r.state = .listed ∨ r.state = .overfill := by
    revert out
    cases r.state <;> decide
  cases w with
  | opened =>
    have e : a.reportTransition k .opened = a := by
      rcases state with e | e <;> simp [State.reportTransition, h, e]
    have fate : transited r = some r := by
      rcases state with e | e <;> simp [transited, word, reportedValve, e]
    rw [e, fate]
    exact ⟨h, by simp, rfl⟩
  | closed =>
    have e : a.reportTransition k .closed = a.clearRing k := by
      rcases state with e | e <;> simp [State.reportTransition, h, e]
    have fate : transited r = some { r with ring := [], anchor := none } := by
      rcases state with e | e <;> simp [transited, word, reportedValve, e]
    rw [e, fate, State.clearRing_tank, h]
    refine ⟨rfl, by simp, ?_⟩
    apply State.eq_of_fields <;> simp [State.clearRing]

end Sys2Proof.Machine
end

section
/-! SUPPORT. NO_OUTLET after the transitions of a level report (R48, R97), and the line of the tank then. -/

namespace Sys2Proof.Machine

/-- R48: the sequence state of a line that a hold cause is handed to, but for its state, hold causes and pump permit. -/
theorem State.addHold_seq_eq (s : State) (l : LineId) (c : HoldCause) : (s.addHold l c).seq l = { s.seq l with
    state := ((s.addHold l c).seq l).state, holds := ((s.addHold l c).seq l).holds, pump := ((s.addHold l c).seq l).pump } := by
  by_cases idle : (s.seq l).state.takesHold = false ∨ c ∈ (s.seq l).holds
  · rw [State.addHold_eq_self idle]
  · obtain ⟨takes, fresh⟩ := not_or.mp idle
    have takes : (s.seq l).state.takesHold = true := by simpa using takes
    by_cases moving : (s.seq l).state.moving = true
    · rw [(State.addHold_begins moving fresh).1]
    · rw [State.addHold_of_paused takes (by simpa using moving) fresh]
      simp

theorem ToldOfTopping.congr {s c u : State} {l : LineId} (h : ToldOfTopping s c l) (rate : u.rate l = c.rate l)
    (meas : u.meas l = c.meas l) (count : u.countIn l .topping = c.countIn l .topping) (only : OnlyLine s u l) :
    ToldOfTopping s u l := by
  refine ⟨?_, only⟩
  rw [rate, meas, throttledBy, count]
  exact h.1

/-- What a level report of tank `k`, lined up to line `l` with the record `r`, has brought that line from `s` to `b` before overfill and
the evaluation. -/
structure LineReported (k : TankId) (l : LineId) (r : Tank) (s b : State) : Prop where
  only : OnlyLine s b l
  gone : (b.tank k).bind (·.line) = none → k ∉ b.lineup l
  stays : (b.tank k).bind (·.line) = some l → b.lineup l = s.lineup l
  filling : r.state = .assigned → b.tankState k = some .filling → HoldCause.noOutlet ∉ (b.seq l).holds
  full : r.state = .full → b.tankState k ≠ some .full → b.countIn l .full = 0 → HoldCause.tankFull ∉ (b.seq l).holds
  throttle : r.state = .topping → b.tankState k ≠ some .topping → (b.rate l).throttle = decide (0 < b.countIn l .topping)
  closed : (s.seq l).state ∈ [LineState.opening, .delivering] → openOutlets s l ≠ [] → openOutlets b l = [] →
    HoldCause.noOutlet ∈ (b.seq l).holds ∧ (HoldCause.noOutlet ∉ (s.seq l).holds → (b.seq l).state = .holding)
  opened : (s.seq l).state ∉ [LineState.opening, .delivering] ∨ openOutlets s l = [] ∨ openOutlets b l ≠ [] →
    (b.seq l).state = (s.seq l).state ∧ (HoldCause.noOutlet ∈ (b.seq l).holds → HoldCause.noOutlet ∈ (s.seq l).holds)
  seq : b.seq l = { s.seq l with state := (b.seq l).state, holds := (b.seq l).holds, pump := (b.seq l).pump }
  meas : b.meas l = { s.meas l with steady := (b.meas l).steady, inRun := (b.meas l).inRun, outRun := (b.meas l).outRun }
  rate : b.rate l = { s.rate l with
    throttle := (b.rate l).throttle, eff := (b.rate l).eff, governing := (b.rate l).governing
    surgeRun := (b.rate l).surgeRun, maxRun := (b.rate l).maxRun }
  still : (b.seq l).state = (s.seq l).state → b.drive l = s.drive l
    ∧ (r.state ≠ .topping ∨ b.tankState k = some .topping → b.meas l = s.meas l ∧ b.rate l = s.rate l)
    ∧ (r.state = .topping → b.tankState k ≠ some .topping → ToldOfTopping s b l)
  held : (b.seq l).state ≠ (s.seq l).state → b.drive l = ((s.drive l).rampTo 0 (s.freshTClose l)).trackFrom0
    ∧ ((s.seq l).state = .delivering → (b.meas l).steady = false ∧ (b.meas l).inRun = 0 ∧ (b.meas l).outRun = 0
        ∧ (b.rate l).surgeRun = 0 ∧ (b.rate l).maxRun = 0
        ∧ (AlarmsDistinct s → ¬ AlarmPresent b .flowUnsteady (.line l)))

/-- R97: where NO_OUTLET does not join, the transitions alone have reached the line. -/
theorem Transition.reported {k : TankId} {l : LineId} {r : Tank} {s u : State} (h : Transition k l r s u)
    (quiet : ¬ (openOutlets s l ≠ [] ∧ openOutlets u l = [] ∧ (s.seq l).state ∈ [LineState.opening, .delivering])) :
    LineReported k l r s u := by
  obtain ⟨only, gone, stays, filling, full, topping, still, seq, holds, rate, meas, drive⟩ := h
  have state : (u.seq l).state = (s.seq l).state := by rw [seq]
  refine ⟨only, gone, stays, fun e g => (filling e g).1, full, fun e g => (topping e g).2, fun m o c => absurd ⟨o, c, m⟩ quiet,
    fun _ => ⟨state, holds⟩, ?_, meas, ?_, fun _ => ⟨drive, still, fun e g => (topping e g).1⟩, fun e => absurd state e⟩
  · rw [seq]
  · rw [rate]

/-- R48, R97: NO_OUTLET handed to a line in OPENING or DELIVERING after the transitions. -/
theorem Transition.reported_closed {k : TankId} {l : LineId} {r : Tank} {s u : State} (h : Transition k l r s u)
    (distinct : AlarmsDistinct s → AlarmsDistinct u) (store : u.store = s.store) (clock : u.clock = s.clock)
    (moving : (s.seq l).state ∈ [LineState.opening, .delivering]) (outlets : openOutlets s l ≠ []) (closed : openOutlets u l = []) :
    LineReported k l r s (u.addHold l .noOutlet) := by
  obtain ⟨only, gone, stays, filling, full, topping, still, seq, holds, rate, meas, drive⟩ := h
  have handed := u.addHold_handed l .noOutlet
  have frame := u.addHold_seq_eq l .noOutlet
  have own := u.addHold_own l .noOutlet
  generalize u.addHold l .noOutlet = b at *
  have tank (j : TankId) : b.tank j = u.tank j := own.tank j
  have lineup (j : LineId) : b.lineup j = u.lineup j := by rw [State.lineup, own.elsewhere.lineups]; rfl
  have tankState : b.tankState k = u.tankState k := by rw [State.tankState, tank]; rfl
  have count (st : TankState) : b.countIn l st = u.countIn l st := State.countIn_congr (lineup l) fun j _ => tank j
  have open' : openOutlets b l = [] := (openOutlets_congr (lineup l) fun j _ => tank j).trans closed
  have state : (u.seq l).state = (s.seq l).state := by rw [seq]
  have fresh : u.freshTClose l = s.freshTClose l := State.freshTClose_congr store clock meas (by rw [drive])
  obtain ⟨begins, idle, joins, -, others, -, -⟩ := handed
  rw [state] at begins idle joins
  have joined : HoldCause.noOutlet ∈ (b.seq l).holds := by
    refine joins ?_
    rcases List.mem_cons.mp moving with e | e
    · rw [e]; decide
    · rw [List.mem_singleton.mp e]; decide
  have onlyLine : OnlyLine s b l := fun j hj => by
    obtain ⟨q, x, m, d, lu⟩ := only j hj
    obtain ⟨q', x', m', d', lu'⟩ := own.only j hj
    exact ⟨q'.trans q, x'.trans x, m'.trans m, d'.trans d, lu'.trans lu⟩
  have base : b.seq l = { s.seq l with state := (b.seq l).state, holds := (b.seq l).holds, pump := (b.seq l).pump } := by
    rw [frame, seq]
  have fields : (b.rate l).throttle = (u.rate l).throttle
      ∧ b.meas l = { s.meas l with steady := (b.meas l).steady, inRun := (b.meas l).inRun, outRun := (b.meas l).outRun }
      ∧ b.rate l = { s.rate l with
          throttle := (b.rate l).throttle, eff := (b.rate l).eff, governing := (b.rate l).governing
          surgeRun := (b.rate l).surgeRun, maxRun := (b.rate l).maxRun } := by
    by_cases begun : (s.seq l).state ∈ [LineState.opening, .delivering] ∧ HoldCause.noOutlet ∉ (u.seq l).holds
    · obtain ⟨-, -, -, -, pending, delivering, other⟩ := begins begun
      rw [state] at delivering other
      by_cases e : (s.seq l).state = .delivering
      · obtain ⟨m, x, -⟩ := delivering e
        rw [pending] at x
        exact ⟨by rw [x], by rw [m, meas], by rw [x, rate]⟩
      · obtain ⟨m, x⟩ := other e
        rw [pending] at x
        exact ⟨by rw [x], by rw [m, meas], by rw [x, rate]⟩
    · obtain ⟨-, -, x, m⟩ := idle begun
      exact ⟨by rw [x], by rw [m, meas], by rw [x, rate]⟩
  obtain ⟨throttle, measFrame, rateFrame⟩ := fields
  refine ⟨onlyLine, by rw [tank, lineup]; exact gone, by rw [tank, lineup]; exact stays,
    fun e g => absurd closed (filling e (tankState ▸ g)).2, by rw [tankState, count, others _ (by decide)]; exact full,
    by rw [tankState, count, throttle]; exact fun e g => (topping e g).2,
    fun _ _ _ => ⟨joined, fun out => (begins ⟨moving, fun m => out (holds m)⟩).1⟩,
    fun out => absurd out (by rw [open']; simp [moving, outlets]), base, measFrame, rateFrame, fun e => ?_, fun e => ?_⟩
  · have idle := idle fun begun => by
      rw [(begins begun).1] at e
      rw [← e] at moving
      exact absurd moving (by decide)
    obtain ⟨-, d, x, m⟩ := idle
    rw [d, x, m, tankState]
    exact ⟨drive, still, fun a g => (topping a g).1.congr x m (count _) onlyLine⟩
  · have begun : (s.seq l).state ∈ [LineState.opening, .delivering] ∧ HoldCause.noOutlet ∉ (u.seq l).holds := by
      by_contra none
      exact e (idle none).1
    obtain ⟨-, -, -, d, -, delivering, -⟩ := begins begun
    refine ⟨by rw [d, drive, fresh], fun e => ?_⟩
    obtain ⟨m, x, gone, -⟩ := delivering (state.trans e)
    rw [m, x]
    exact ⟨rfl, rfl, rfl, rfl, rfl, fun h => gone (distinct h)⟩

end Sys2Proof.Machine
end

section
/-! SUPPORT. OVERFILL (R107): the record, the trip unit, and what the line of the tank is told (R96, R97). -/

namespace Sys2Proof.Machine

/-- What a hold cause has brought a line stands while the line stays as it is. -/
theorem HoldHanded.kept {s b t : State} {l : LineId} {c : HoldCause} (h : HoldHanded c s b l) (seq : t.seq l = b.seq l)
    (drive : t.drive l = b.drive l) (rate : t.rate l = b.rate l) (meas : t.meas l = b.meas l)
    (alarms : AlarmPresent t .flowUnsteady (.line l) → AlarmPresent b .flowUnsteady (.line l)) (notices : b.notices ⊆ t.notices) :
    HoldHanded c s t l := by
  by_cases m : (s.seq l).state ∈ [LineState.opening, .delivering] ∧ c ∉ (s.seq l).holds
  · refine h.later (p := (b.seq l).permit) (u := (b.seq l).pump) seq ?_ drive rate meas alarms notices
    rw [seq]
    exact (h.1 m).2.2.1
  · obtain ⟨-, h2, h3⟩ := h
    rw [← seq, ← drive, ← rate, ← meas] at h2
    rw [← seq] at h3
    exact ⟨fun k => absurd k m, h2, h3⟩

theorem eq_singleton_iff_setErase {α : Type} [DecidableEq α] {x : α} {xs : List α} (distinct : xs.Nodup) :
    xs ≠ [] ∧ setErase x xs = [] ↔ xs = [x] := by
  constructor
  · rintro ⟨nonempty, erased⟩
    have only : ∀ y ∈ xs, y = x := fun y hy => by
      by_contra other
      have := mem_setErase.mpr ⟨hy, other⟩
      rw [erased] at this
      cases this
    match xs, nonempty with
    | [y], _ => rw [only y List.mem_cons_self]
    | y :: z :: _, _ =>
      have e : y = z := (only y (by simp)).trans (only z (by simp)).symm
      exact absurd distinct (by simp [e])
  · rintro rfl
    exact ⟨by simp, by simp [setErase]⟩

/-- R107: a tank out of its lineup and in OVERFILL, before its line is told. -/
def State.spill (s : State) (k : TankId) : State :=
  (((s.moveTank k .overfill).leaveLineup k).clearRing k).modTankNoticed k fun x => { x with stale := false }

/-- R107: the record of a tank that enters OVERFILL. -/
def Tank.spilt (r : Tank) : Tank :=
  { r with state := .overfill, line := none, timer := none, stale := false, ring := [], anchor := none }

theorem State.spill_regrouped (s : State) (k : TankId) : Regrouped s (s.spill k) :=
  (((s.moveTank_regrouped k _).trans (State.leaveLineup_regrouped _ k)).trans (State.modTank_regrouped _ k _)).trans
    (State.modTankNoticed_regrouped _ k _)

theorem State.spill_tank {s : State} {k : TankId} {r : Tank} (h : s.tank k = some r) : (s.spill k).tank k = some r.spilt := by
  cases hl : r.line <;>
    simp [State.spill, State.clearRing_tank, State.leaveLineup_tank, State.moveTank_tank, h, hl, Tank.moved, Tank.spilt]

theorem State.spill_lineup {s : State} {k : TankId} {l : LineId} (h : s.tankLine k = some l) (j : LineId) :
    (s.spill k).lineup j = if j = l then setErase k (s.lineup l) else s.lineup j := by
  have line : (s.moveTank k .overfill).tankLine k = some l := by rw [State.tankLine_moveTank, h]
  rw [State.spill, State.modTankNoticed_lineup, State.clearRing, State.modTank_lineup, State.leaveLineup_lineup, line,
    State.moveTank_lineup]
  by_cases e : j = l
  · subst e; simp
  · simp [e, Ne.symm e]

theorem State.spill_within (s : State) (k : TankId) : Free { Scope.all with tanks := (· = k) } s (s.spill k) :=
  (((s.moveTank_free k _ rfl).trans (State.leaveLineup_free _ k rfl fun _ _ => trivial)).trans
    (State.clearRing_free _ k rfl)).trans (State.modTankNoticed_free _ k _ rfl)

theorem State.spill_other (s : State) {k j : TankId} (h : j ≠ k) : (s.spill k).tank j = s.tank j := (s.spill_within k).tank_eq h

/-- R107, R147, R136: the trip and the advice of a tank that has entered OVERFILL. -/
def State.spillTold (s : State) (k : TankId) : State := (s.deviceTrip (.overfill k)).queueAdvice k .overfill

theorem State.enterOverfill_lined {s : State} {k : TankId} {r : Tank} {l : LineId} (h : s.tank k = some r) (hl : r.line = some l) :
    s.enterOverfill k =
      (((s.spill k).tellDeparture l r.state).reportOutlets l (s.openValves l)).spillTold k := by
  unfold State.enterOverfill
  simp only [h, hl]
  rfl

theorem State.enterOverfill_unlined {s : State} {k : TankId} {r : Tank} (h : s.tank k = some r) (hl : r.line = none) :
    s.enterOverfill k = (s.spill k).spillTold k := by
  unfold State.enterOverfill
  simp only [h, hl]
  rfl

theorem State.queueAdvice_eq (s : State) (k : TankId) (a : AdviceKind) :
    s.queueAdvice k a = { s with link := (s.queueAdvice k a).link } := by
  unfold State.queueAdvice
  split <;> rfl

/-- R136: the advice writes the queue alone. -/
theorem State.spillTold_eq (s : State) (k : TankId) :
    s.spillTold k = { s.deviceTrip (.overfill k) with link := (s.spillTold k).link } :=
  State.queueAdvice_eq _ k _

theorem State.spillTold_trips (s : State) (k : TankId) : k ∈ (s.spillTold k).overfills
    ∧ DeviceTrip.overfill k ∈ (s.spillTold k).device
    ∧ (s.spillTold k).esd.contact = .opened ∧ AlarmPresent (s.spillTold k) .overfill (.tank k) := by
  rw [State.spillTold_eq]
  exact ⟨(s.mem_deviceTrip_overfills _ k).mpr (.inl rfl), (s.mem_deviceTrip _ _).mpr (.inl rfl),
    congrArg Esd.contact (s.deviceTrip_esd _), s.deviceTrip_alarmPresent (.overfill k)⟩

theorem State.spillTold_advice {s : State} (h : s.link.gauging = .linked) (k : TankId) :
    (k, .overfill) ∈ (s.spillTold k).link.advices := by
  unfold State.spillTold State.queueAdvice
  split
  · next e => exact e.resolve_left (by simp [h])
  · simp

/-- The trip and the advice leave the lines and the tank table. -/
structure SameTables (s t : State) : Prop where
  seqs : t.seqs = s.seqs
  rates : t.rates = s.rates
  meass : t.meass = s.meass
  drives : t.drives = s.drives
  lineups : t.lineups = s.lineups
  tanks : t.tanks = s.tanks

theorem State.spillTold_same (s : State) (k : TankId) : SameTables s (s.spillTold k) := by
  rw [State.spillTold_eq]
  constructor <;> simp

theorem State.spillTold_notices (s : State) (k : TankId) : s.notices ⊆ (s.spillTold k).notices := by
  rw [State.spillTold_eq]
  exact s.deviceTrip_subset _

theorem State.spillTold_alarmPresent (s : State) (k : TankId) (l : LineId) :
    AlarmPresent (s.spillTold k) .flowUnsteady (.line l) ↔ AlarmPresent s .flowUnsteady (.line l) := by
  rw [State.spillTold_eq]
  exact s.alarmPresent_deviceTrip_other (.overfill k) (by simp [DeviceTrip.alarm])

/-- R107: the record of a tank that has entered OVERFILL, and the trip unit. -/
theorem State.enterOverfill_spilt {s : State} {k : TankId} {r : Tank} (h : s.tank k = some r) :
    (s.enterOverfill k).tank k = some r.spilt ∧ k ∈ (s.enterOverfill k).overfills
      ∧ DeviceTrip.overfill k ∈ (s.enterOverfill k).device ∧ (s.enterOverfill k).esd.contact = .opened
      ∧ AlarmPresent (s.enterOverfill k) .overfill (.tank k)
      ∧ (s.link.gauging = .linked → (k, .overfill) ∈ (s.enterOverfill k).link.advices) := by
  have regrouped := s.spill_regrouped k
  have told : ∃ u : State, s.enterOverfill k = u.spillTold k ∧ u.tank k = some r.spilt ∧ u.link = s.link := by
    cases hl : r.line with
    | none => exact ⟨_, State.enterOverfill_unlined h hl, State.spill_tank h, by rw [regrouped]⟩
    | some l =>
      have own := ((s.spill k).tellDeparture_own l r.state).trans (State.reportOutlets_own _ l (s.openValves l))
      exact ⟨_, State.enterOverfill_lined h hl, (own.tank k).trans (State.spill_tank h), by rw [own.elsewhere.link, regrouped]⟩
  obtain ⟨u, e, tank, link⟩ := told
  rw [e]
  obtain ⟨listed, device, contact, alarm⟩ := u.spillTold_trips k
  have record : (u.spillTold k).tank k = some r.spilt := by rw [State.tank, (u.spillTold_same k).tanks]; exact tank
  exact ⟨record, listed, device, contact, alarm, fun g => State.spillTold_advice (link ▸ g) k⟩

/-- R96, R97: what line `l` of a tank with the record `x` is told where the tank enters OVERFILL. -/
structure SpillReported (k : TankId) (l : LineId) (x : Tank) (b t : State) : Prop where
  lineup : t.lineup l = setErase k (b.lineup l)
  outlet : (b.seq l).state ∈ [LineState.opening, .delivering] → openOutlets b l = [k] → HoldCause.noOutlet ∈ (t.seq l).holds
  told : ∃ c : State, c.tanks = t.tanks ∧ c.lineups = t.lineups ∧ c.esd.loop = b.esd.loop ∧ c.drive l = b.drive l
    ∧ c.freshTClose l = b.freshTClose l ∧ c.port = b.port ∧ (AlarmsDistinct b → AlarmsDistinct c)
    ∧ (x.state = .topping → ToldOfTopping b c l)
    ∧ (x.state ≠ .topping → c.rate l = b.rate l ∧ c.meas l = b.meas l)
    ∧ c.seq l = (if x.state = .full ∧ t.countIn l .full = 0 then
        { b.seq l with holds := setErase .tankFull (b.seq l).holds, pump := pumpPermit (b.seq l) b.esd.loop }
      else b.seq l)
    ∧ ((b.seq l).state ∈ [LineState.opening, .delivering] ∧ openOutlets b l = [k] → HoldHanded .noOutlet c t l)
    ∧ ((b.seq l).state ∉ [LineState.opening, .delivering] ∨ openOutlets b l ≠ [k] →
        t.seq l = c.seq l ∧ t.drive l = c.drive l ∧ t.rate l = c.rate l ∧ t.meas l = c.meas l)
    ∧ ∀ j, j ≠ l → t.seq j = b.seq j ∧ t.rate j = b.rate j ∧ t.meas j = b.meas j ∧ t.drive j = b.drive j
        ∧ t.lineup j = b.lineup j

theorem State.reportOutlets_joins {s : State} {l : LineId} {n : Nat} (h : 0 < n ∧ openOutlets s l = [] ∧
    (s.seq l).state ∈ [LineState.opening, .delivering]) : s.reportOutlets l n = s.addHold l .noOutlet := by
  obtain ⟨before, closed, moving⟩ := h
  exact if_pos ⟨before, by rw [State.openValves_eq, closed]; rfl, (LineState.moving_iff _).mpr moving⟩

theorem State.reportOutlets_eq_self {s : State} {l : LineId} {n : Nat} (h : ¬ (0 < n ∧ openOutlets s l = [] ∧
    (s.seq l).state ∈ [LineState.opening, .delivering])) : s.reportOutlets l n = s := by
  refine if_neg fun ⟨before, closed, moving⟩ => h ⟨before, ?_, (LineState.moving_iff _).mp moving⟩
  exact List.length_eq_zero_iff.mp closed

/-- From `b` to `c` tank `k` with the record `x` has left the lineup of line `l` for OVERFILL, and the line has been told so (R96). -/
structure Spilt (k : TankId) (l : LineId) (x : Tank) (b c : State) : Prop where
  told : LineTold l x.state b c
  lineup : ∀ j, c.lineup j = if j = l then setErase k (b.lineup l) else b.lineup j
  outlets : openOutlets c l = setErase k (openOutlets b l)
  only : ∀ j, j ≠ l → c.seq j = b.seq j ∧ c.rate j = b.rate j ∧ c.meas j = b.meas j ∧ c.drive j = b.drive j
  esd : c.esd = b.esd
  port : c.port = b.port
  store : c.store = b.store
  clock : c.clock = b.clock
  distinct : AlarmsDistinct b → AlarmsDistinct c

theorem State.spill_spilt {b : State} {k : TankId} {x : Tank} {l : LineId} (h : b.tank k = some x) (hl : x.line = some l) :
    Spilt k l x b ((b.spill k).tellDeparture l x.state) := by
  have line : b.tankLine k = some l := by simp [State.tankLine, h, hl]
  have regrouped := b.spill_regrouped k
  have told := regrouped.told (l := l) (fun j hj => by rw [State.spill_lineup line, if_neg hj]) x.state
  have own := (b.spill k).tellDeparture_own l x.state
  have free : Free .all b (b.spill k) := (b.spill_within k).mono (Scope.le_all _)
  have lineup (j : LineId) : ((b.spill k).tellDeparture l x.state).lineup j = if j = l then setErase k (b.lineup l) else b.lineup j := by
    rw [State.lineup, own.elsewhere.lineups]
    exact State.spill_lineup line j
  refine ⟨told, lineup, ?_, fun j hj => ?_, by rw [own.elsewhere.esd, regrouped], by rw [own.elsewhere.port, regrouped],
    by rw [own.elsewhere.store, regrouped], by rw [own.elsewhere.clock, regrouped], fun d => own.distinct (free.distinct d)⟩
  · unfold openOutlets
    rw [lineup, if_pos rfl, setErase, setErase, List.filter_filter, List.filter_filter]
    refine List.filter_congr fun j _ => ?_
    by_cases e : j = k
    · simp [e]
    · rw [own.tank j, b.spill_other e, Bool.and_comm]
  · obtain ⟨q, r, m, d, -⟩ := own.only j hj
    rw [q, r, m, d, regrouped]
    exact ⟨rfl, rfl, rfl, rfl⟩

theorem State.enterOverfill_reported {b : State} {k : TankId} {x : Tank} {l : LineId} (h : b.tank k = some x) (hl : x.line = some l)
    (distinct : (b.lineup l).Nodup) : SpillReported k l x b (b.enterOverfill k) := by
  have spilt := State.spill_spilt h hl
  rw [State.enterOverfill_lined h hl]
  generalize (b.spill k).tellDeparture l x.state = c at *
  obtain ⟨told, lineup, outlets, only, esd, port, store, clock, alarms⟩ := spilt
  obtain ⟨topping, others, -, meas, seq, drive⟩ := told
  have state : (c.seq l).state = (b.seq l).state := by
    rw [seq]
    split <;> rfl
  have open_iff : (0 < b.openValves l ∧ openOutlets c l = [] ∧ (c.seq l).state ∈ [LineState.opening, .delivering]) ↔
      (b.seq l).state ∈ [LineState.opening, .delivering] ∧ openOutlets b l = [k] := by
    have once : (openOutlets b l).Nodup := distinct.filter _
    rw [← eq_singleton_iff_setErase once, outlets, state, State.openValves_eq, List.length_pos_iff]
    tauto
  have own' := c.reportOutlets_own l (b.openValves l)
  have handed : (b.seq l).state ∈ [LineState.opening, .delivering] ∧ openOutlets b l = [k] →
      HoldHanded .noOutlet c (c.reportOutlets l (b.openValves l)) l := fun g => by
    rw [State.reportOutlets_joins (open_iff.mpr g)]
    exact c.addHold_handed l _
  have idle : ¬ ((b.seq l).state ∈ [LineState.opening, .delivering] ∧ openOutlets b l = [k]) →
      c.reportOutlets l (b.openValves l) = c := fun g => State.reportOutlets_eq_self (mt open_iff.mp g)
  generalize c.reportOutlets l (b.openValves l) = d at *
  obtain ⟨seqs, rates, meass, drives, lineups, tanks⟩ := d.spillTold_same k
  have tseq (j : LineId) : (d.spillTold k).seq j = d.seq j := by rw [State.seq, seqs]; rfl
  have trate (j : LineId) : (d.spillTold k).rate j = d.rate j := by rw [State.rate, rates]; rfl
  have tmeas (j : LineId) : (d.spillTold k).meas j = d.meas j := by rw [State.meas, meass]; rfl
  have tdrive (j : LineId) : (d.spillTold k).drive j = d.drive j := by rw [State.drive, drives]; rfl
  have notices := d.spillTold_notices k
  have unsteady := (d.spillTold_alarmPresent k l).mp
  generalize d.spillTold k = t at *
  have tables : c.tanks = t.tanks ∧ c.lineups = t.lineups := by
    rw [tanks, lineups, own'.elsewhere.tanks, own'.elsewhere.lineups]
    exact ⟨rfl, rfl⟩
  have tlineup (j : LineId) : t.lineup j = c.lineup j := by rw [State.lineup, ← tables.2]; rfl
  have count : t.countIn l .full = c.countIn l .full :=
    State.countIn_congr (tlineup l) fun j _ => by rw [State.tank, ← tables.1]; rfl
  have thanded (g : (b.seq l).state ∈ [LineState.opening, .delivering] ∧ openOutlets b l = [k]) : HoldHanded .noOutlet c t l :=
    (handed g).kept (tseq l) (tdrive l) (trate l) (tmeas l) unsteady notices
  refine ⟨by rw [tlineup, lineup, if_pos rfl], fun moving one => ?_, c, tables.1, tables.2, by rw [esd], drive,
    State.freshTClose_congr store clock meas (by rw [drive]), port, alarms, fun e => (topping e).1, others, by rw [seq, count],
    thanded, fun g => ?_, fun j hj => ?_⟩
  · refine (thanded ⟨moving, one⟩).2.2.1 ?_
    rw [state]
    rcases List.mem_cons.mp moving with e | e
    · rw [e]; decide
    · rw [List.mem_singleton.mp e]; decide
  · rw [tseq, trate, tmeas, tdrive, idle fun ⟨moving, one⟩ => g.elim (· moving) (· one)]
    exact ⟨rfl, rfl, rfl, rfl⟩
  · obtain ⟨q, r, m, d', -⟩ := own'.only j hj
    obtain ⟨q', r', m', d''⟩ := only j hj
    rw [tseq, trate, tmeas, tdrive, tlineup, lineup, if_neg hj]
    exact ⟨q.trans q', r.trans r', m.trans m', d'.trans d'', rfl⟩

end Sys2Proof.Machine
end

section
/-! SUPPORT. A level report, whole: what it brings the tank and its line (R87), then overfill or the estimator and the evaluation. -/

namespace Sys2Proof.Machine

/-! ### The record of a report -/

theorem Tank.reported_eq (p : LevelReport) (m : Nat) (r : Tank) : r.reported p m = { r with
    valve := reportedValve p.valve, fault := some p.fault
    vRep := if p.fault = true then r.vRep else some (min p.volume r.cap)
    mTime := if p.fault = true then r.mTime else some m } := by
  unfold Tank.reported
  cases p.fault <;> rfl

/-- R88: a tank with its valve open keeps its line. -/
theorem transited_opened {r : Tank} (opened : r.valve = .opened) :
    ∃ x, transited r = some x ∧ x.valve = .opened ∧ x.line = r.line ∧ (r.state ≠ .assigned → x.state = r.state) := by
  unfold transited
  rw [if_pos opened]
  split
  · next h => exact ⟨_, rfl, opened, rfl, fun e => absurd h.1 e⟩
  · exact ⟨r, rfl, opened, rfl, fun _ => rfl⟩

theorem unlined_valve {r x : Tank} (h : unlined r = some x) : x.valve = r.valve := by
  unfold unlined pendingApplied at h
  split at h
  · exact (Option.some.inj h) ▸ rfl
  · cases h
  · exact (Option.some.inj h) ▸ rfl

theorem transited_valve {r x : Tank} (h : transited r = some x) : x.valve = r.valve := by
  unfold transited at h
  split at h
  · split at h <;> exact (Option.some.inj h) ▸ rfl
  · split at h
    case h_3 => exact unlined_valve (r := { r with topped := true, ring := [], anchor := none }) h
    case h_4 => exact unlined_valve (r := { r with ring := [], anchor := none }) h
    all_goals exact (Option.some.inj h) ▸ rfl

theorem Tank.overfills_iff (x : Tank) :
    x.overfills = true ↔ x.state ≠ .overfill ∧ ∃ y, x.vRep = some y ∧ x.cap * x.hh / 1000 ≤ y := by
  unfold Tank.overfills Tank.vHh
  cases x.vRep with
  | none => simp
  | some y => simp [and_comm]

/-- R116: with the valve closed, or with no line, the estimator makes the anchor absent whatever the line does. -/
theorem estimated_idle {x : Tank} (h : x.valve ≠ .opened ∨ x.line = none) (steady steady' : Bool) (epoch epoch' w : Nat) :
    estimated steady epoch w false x = estimated steady' epoch' w false x := by
  unfold estimated
  simp only [Bool.false_eq_true, if_false]
  rcases h with closed | none
  · split
    · simp [closed]
    · rfl
  · rw [none]

/-! ### The state before overfill and the evaluation -/

/-- What a level report of tank `k`, with the record `r` before it, leaves from `s` to `b` besides the record. -/
structure ReportReached (k : TankId) (r : Tank) (s b : State) : Prop where
  onlyTank : OnlyTank s b k
  trips : KeepsTrips s b
  base : KeepsBase s b
  port : b.port = s.port
  distinct : AlarmsDistinct s → AlarmsDistinct b
  alone : r.line = none → b = { s with tanks := b.tanks, notices := b.notices }
  line : ∀ l, r.line = some l → LineReported k l r s b

/-- The estimator writes the ring and anchor alone, of which the line reads nothing. -/
theorem LineReported.estimate {k : TankId} {l : LineId} {r : Tank} {s b : State} (h : LineReported k l r s b) :
    LineReported k l r s (b.estimate k) := by
  have whole := b.estimate_eq k
  have roles (j : TankId) : ((b.estimate k).tank j).map (fun x => (x.state, x.line, x.valve)) =
      (b.tank j).map fun x => (x.state, x.line, x.valve) := by
    by_cases e : j = k
    · subst e
      cases hx : b.tank j with
      | none => simp [State.estimate, hx]
      | some x => rw [State.estimate_tank hx]; rfl
    · have free : Free { Scope.all with tanks := (· = k) } b (b.estimate k) := b.estimate_free k rfl
      rw [free.tank_eq e]
  generalize b.estimate k = c at *
  have tankState (j : TankId) : c.tankState j = b.tankState j := by
    have := congrArg (Option.map (·.1)) (roles j)
    simpa [State.tankState, Option.map_map, Function.comp_def] using this
  have tankLine : (c.tank k).bind (·.line) = (b.tank k).bind (·.line) := by
    have := congrArg (Option.bind · (·.2.1)) (roles k)
    simpa [Option.bind_map, Function.comp_def] using this
  have valve (j : TankId) : (c.tank j).map (·.valve) = (b.tank j).map (·.valve) := by
    have := congrArg (Option.map (·.2.2)) (roles j)
    simpa [Option.map_map, Function.comp_def] using this
  have lineup (j : LineId) : c.lineup j = b.lineup j := by rw [whole]; rfl
  have seq (j : LineId) : c.seq j = b.seq j := by rw [whole]; rfl
  have rate (j : LineId) : c.rate j = b.rate j := by rw [whole]; rfl
  have meas (j : LineId) : c.meas j = b.meas j := by rw [whole]; rfl
  have drive (j : LineId) : c.drive j = b.drive j := by rw [whole]; rfl
  have count (st : TankState) : c.countIn l st = b.countIn l st := by
    unfold State.countIn
    simp only [tankState, lineup]
  have outlets : openOutlets c l = openOutlets b l := by
    unfold openOutlets
    simp only [valve, lineup]
  have alarms : c.alarms = b.alarms := by rw [whole]
  obtain ⟨only, gone, stays, filling, full, throttle, closed, opened, hseq, hmeas, hrate, still, held⟩ := h
  have onlyLine : OnlyLine s c l := fun j hj => by
    rw [seq, rate, meas, drive, lineup]
    exact only j hj
  refine ⟨onlyLine, by rwa [tankLine, lineup], by rwa [tankLine, lineup], by rwa [tankState, seq], by rwa [tankState, seq, count],
    by rwa [tankState, rate, count], by rwa [seq, outlets], by rwa [seq, outlets], by rwa [seq], by rwa [meas], by rwa [rate],
    fun e => ?_, by rwa [seq, drive, meas, rate, AlarmPresent.congr alarms]⟩
  rw [seq] at e
  obtain ⟨d, m, told⟩ := still e
  rw [drive, tankState, meas, rate]
  exact ⟨d, m, fun a g => (told a g).congr (rate l) (meas l) (count _) onlyLine⟩

theorem ReportReached.estimate {k : TankId} {r : Tank} {s b : State} (h : ReportReached k r s b) :
    ReportReached k r s (b.estimate k) := by
  have whole := b.estimate_eq k
  have free : Free { Scope.all with tanks := (· = k) } b (b.estimate k) := b.estimate_free k rfl
  obtain ⟨onlyTank, trips, base, port, distinct, alone, line⟩ := h
  refine ⟨fun j hj => (free.tank_eq hj).trans (onlyTank j hj), ?_, ?_, ?_, fun d => ?_, fun e => ?_, fun l e => (line l e).estimate⟩
  · rw [whole]; exact trips
  · rw [whole]; exact base
  · rw [whole]; exact port
  · rw [whole]; exact distinct d
  · have before := alone e
    apply State.eq_of_fields <;> simp only []
    all_goals rw [whole, before]

/-- R87, R88, R97: the state after the transitions of a report and the judgement of the outlets. -/
def State.reportReaches (s : State) (p : LevelReport) (r : Tank) : State :=
  let u := (s.takeReport p (s.clock - p.age)).reportTransition p.tank p.valve
  match r.line with
  | some l => u.reportOutlets l (s.openValves l)
  | none => u

theorem State.levelReport_eq {s : State} {p : LevelReport} {r : Tank} (h : s.tank p.tank = some r)
    (fresh : r.mTime.getD 0 ≤ s.clock - p.age) : s.levelReport p =
      let b := s.reportReaches p r
      match b.tank p.tank with
      | none => b
      | some x =>
        if x.overfills then b.enterOverfill p.tank else (if p.fault then b else b.estimate p.tank).evaluate p.tank := by
  unfold State.levelReport
  simp only [h, if_neg (Nat.not_lt.mpr fresh), State.afterReport, State.reportReaches]
  cases r.line <;> rfl

end Sys2Proof.Machine
end

section
/-! SUPPORT. A level report under sound lineups, as the statements say it (`ReportMade`). -/

namespace Sys2Proof.Machine

/-- What a report may touch besides its tank: its line, the ship link, the alarms. -/
def reportScope (k : TankId) (r : Tank) : Scope :=
  { lines := fun l => r.line = some l, tanks := (· = k), link := True, trip := False }

theorem State.takeReport_regrouped (s : State) (p : LevelReport) (m : Nat) : Regrouped s (s.takeReport p m) :=
  s.modTankNoticed_regrouped _ _

theorem State.takeReport_lineups (s : State) (p : LevelReport) (m : Nat) : (s.takeReport p m).lineups = s.lineups := by
  simp [State.takeReport]

theorem State.takeReport_tank {s : State} {p : LevelReport} {r : Tank} (h : s.tank p.tank = some r) (m : Nat) :
    (s.takeReport p m).tank p.tank = some (r.reported p m) := by
  simp [State.takeReport, h]

/-- R97: NO_OUTLET judged after the transitions. -/
theorem Transition.outlets {k : TankId} {l : LineId} {r : Tank} {s u : State} (h : Transition k l r s u)
    (distinct : AlarmsDistinct s → AlarmsDistinct u) (store : u.store = s.store) (clock : u.clock = s.clock) :
    LineReported k l r s (u.reportOutlets l (s.openValves l)) := by
  have state : (u.seq l).state = (s.seq l).state := by rw [h.seq]
  by_cases joins : openOutlets s l ≠ [] ∧ openOutlets u l = [] ∧ (s.seq l).state ∈ [LineState.opening, .delivering]
  · obtain ⟨outlets, closed, moving⟩ := joins
    rw [State.reportOutlets_joins (n := s.openValves l) ⟨List.length_pos_iff.mpr outlets, closed, state ▸ moving⟩]
    exact h.reported_closed distinct store clock moving outlets closed
  · rw [State.reportOutlets_eq_self (n := s.openValves l) fun ⟨outlets, closed, moving⟩ =>
      joins ⟨List.length_pos_iff.mp outlets, closed, state ▸ moving⟩]
    exact h.reported joins

section Report

variable {s : State} {p : LevelReport} {r : Tank} (h : s.tank p.tank = some r)
include h

theorem State.reportTransition_within : Free (reportScope p.tank r) s
    ((s.takeReport p (s.clock - p.age)).reportTransition p.tank p.valve) := by
  refine (s.takeReport_free p _ rfl).trans (State.reportTransition_free _ _ _ rfl trivial fun l e => ?_)
  rw [State.tankLine_takeReport, State.tankLine, h] at e
  exact e

theorem State.reportReaches_within : Free (reportScope p.tank r) s (s.reportReaches p r) := by
  have within := State.reportTransition_within h
  unfold State.reportReaches
  cases line : r.line with
  | none => exact within
  | some l => exact within.own l line (State.reportOutlets_own _ l _)

variable (sound : LineupsSound s)
include sound

/-- R87, R97: what a report has left before overfill and the evaluation. -/
theorem State.reportReaches_reached : ReportReached p.tank r s (s.reportReaches p r)
    ∧ (s.reportReaches p r).tank p.tank = transited (r.reported p (s.clock - p.age))
    ∧ (transited (r.reported p (s.clock - p.age)) ≠ none → (s.reportReaches p r).link = s.link)
    ∧ (transited (r.reported p (s.clock - p.age)) = none → p.tank ∉ (s.reportReaches p r).link.poll) := by
  have within := State.reportReaches_within h
  have frame := within.frame
  have stored := s.takeReport_regrouped p (s.clock - p.age)
  have lineups := s.takeReport_lineups p (s.clock - p.age)
  have record := State.takeReport_tank h (s.clock - p.age)
  have fields := r.reported_eq p (s.clock - p.age)
  have word : (r.reported p (s.clock - p.age)).valve = reportedValve p.valve := by rw [fields]
  have state : (r.reported p (s.clock - p.age)).state = r.state := by rw [fields]
  have sameLine : (r.reported p (s.clock - p.age)).line = r.line := by rw [fields]
  have reached (alone : r.line = none → s.reportReaches p r = { s with
      tanks := (s.reportReaches p r).tanks, notices := (s.reportReaches p r).notices })
      (line : ∀ l, r.line = some l → LineReported p.tank l r s (s.reportReaches p r)) :
      ReportReached p.tank r s (s.reportReaches p r) :=
    ⟨fun j hj => within.tank_eq hj, within.trip_eq not_false,
      ⟨frame.pending, frame.clock, frame.phase, frame.key, frame.settings, frame.store⟩, frame.port, within.distinct, alone, line⟩
  cases line : r.line with
  | none =>
    have out : (r.reported p (s.clock - p.age)).state.watched = false := by
      rw [state, ← sound.2.1 p.tank r h, line]
      rfl
    obtain ⟨tank, still, whole⟩ := State.reportTransition_unwatched record out word
    have e : s.reportReaches p r = (s.takeReport p (s.clock - p.age)).reportTransition p.tank p.valve := by
      simp only [State.reportReaches, line]
    have notices : s.takeReport p (s.clock - p.age) = { s with
        tanks := (s.takeReport p (s.clock - p.age)).tanks, notices := (s.takeReport p (s.clock - p.age)).notices } := by
      apply State.eq_of_fields <;> simp [State.takeReport]
    have alone : s.reportReaches p r = { s with
        tanks := (s.reportReaches p r).tanks, notices := (s.reportReaches p r).notices } := by
      rw [e]
      apply State.eq_of_fields <;> simp only []
      all_goals rw [whole, notices]
    refine ⟨reached (fun _ => alone) fun l e => ?_, e ▸ tank, fun _ => by rw [alone], fun none => absurd none still⟩
    rw [line] at e
    cases e
  | some l =>
    have member : p.tank ∈ s.lineup l := (sound.1 l p.tank).mpr (by simp [State.tankLine, h, line])
    have before := State.reportTransition_within h
    have only : OnlyLine s ((s.takeReport p (s.clock - p.age)).reportTransition p.tank p.valve) l := fun j hj =>
      before.line_eq fun e => hj (Option.some.inj (e.symm.trans line))
    have transited := State.reportTransition_lined stored lineups record (sameLine.trans line) word member only
    have e : s.reportReaches p r =
        ((s.takeReport p (s.clock - p.age)).reportTransition p.tank p.valve).reportOutlets l (s.openValves l) := by
      simp only [State.reportReaches, line]
    have moves : Transition p.tank l r s ((s.takeReport p (s.clock - p.age)).reportTransition p.tank p.valve) := by
      obtain ⟨only, gone, stays, filling, full, topping, still, seq, holds, rate, meas, drive⟩ := transited.line
      rw [state] at filling full topping still
      exact ⟨only, gone, stays, filling, full, topping, still, seq, holds, rate, meas, drive⟩
    obtain ⟨-, tank, link, poll⟩ := transited
    generalize (s.takeReport p (s.clock - p.age)).reportTransition p.tank p.valve = u at *
    have own := u.reportOutlets_own l (s.openValves l)
    have told := moves.outlets before.distinct before.frame.store before.frame.clock
    refine ⟨reached (fun none => ?_) fun j hj => ?_, ?_, ?_, ?_⟩
    · rw [line] at none
      cases none
    · rw [line] at hj
      rw [e, ← Option.some.inj hj]
      exact told
    · rw [e, own.tank]
      exact tank
    · rw [e, own.elsewhere.link]
      exact link
    · rw [e, own.elsewhere.link]
      exact poll

/-- R116: the figures that the estimator reads of the line are those before the report. -/
theorem State.estimated_reached {x : Tank} (fate : transited (r.reported p (s.clock - p.age)) = some x) (w : Nat) :
    let b := s.reportReaches p r
    estimated (x.line.any fun l => (b.meas l).steady) ((x.line.map fun l => (b.meas l).epoch).getD 0) w false x =
      estimated (x.line.any fun l => (s.meas l).steady) ((x.line.map fun l => (s.meas l).epoch).getD 0) w false x := by
  intro b
  obtain ⟨reached, tank, -, -⟩ := State.reportReaches_reached h sound
  rw [fate] at tank
  by_cases idle : x.valve ≠ .opened ∨ x.line = none
  · exact estimated_idle idle _ _ _ _ _
  · obtain ⟨opened, lined⟩ := not_or.mp idle
    obtain ⟨l, hl⟩ := Option.ne_none_iff_exists'.mp lined
    have fields := r.reported_eq p (s.clock - p.age)
    have opened : x.valve = .opened := not_not.mp opened
    obtain ⟨y, hy, -, line, state⟩ := transited_opened ((transited_valve fate).symm.trans opened)
    obtain rfl : x = y := Option.some.inj (fate.symm.trans hy)
    have line : r.line = some l := by
      rw [fields] at line
      exact line.symm.trans hl
    have told := reached.line l line
    have outlets : openOutlets b l ≠ [] := by
      have stays := told.stays (by rw [tank]; exact hl)
      refine List.ne_nil_of_mem (a := p.tank) (List.mem_filter.mpr ⟨?_, ?_⟩)
      · rw [stays]
        exact (sound.1 l p.tank).mpr (by simp [State.tankLine, h, line])
      · simp [b, tank, opened]
    have topping : r.state ≠ .topping ∨ b.tankState p.tank = some .topping := by
      rw [or_iff_not_imp_left, not_not]
      intro e
      rw [fields] at state
      rw [State.tankState, tank, Option.map_some, state (by rw [e]; decide), e]
    obtain ⟨-, same, -⟩ := told.still (told.opened (.inr (.inr outlets))).1
    have meas : b.meas l = s.meas l := (same topping).1
    simp only [hl, Option.any_some, Option.map_some, meas]

end Report

end Sys2Proof.Machine
end

section
/-! SUPPORT. `ReportMade` for a level report, and SOUND (R89). -/

namespace Sys2Proof.Machine

/-- R107, R116: the state after the estimator, which is passed by with gauge fault yes and where the tank enters OVERFILL. -/
def State.afterEstimate (s : State) (k : TankId) (fault : Bool) : State :=
  if fault = true ∨ (s.tank k).all (·.overfills) = true then s else s.estimate k

theorem State.afterEstimate_eq_self {s : State} {k : TankId} {fault : Bool}
    (h : fault = true ∨ (s.tank k).all (·.overfills) = true) : s.afterEstimate k fault = s := if_pos h

theorem State.afterEstimate_below {s : State} {k : TankId} {x : Tank} (h : s.tank k = some x) (below : ¬ x.overfills = true)
    (fault : Bool) : s.afterEstimate k fault = if fault then s else s.estimate k := by
  have all : (s.tank k).all (·.overfills) = false := by simp [h, below]
  cases fault <;> simp [State.afterEstimate, all]

theorem State.afterEstimate_link (s : State) (k : TankId) (fault : Bool) : (s.afterEstimate k fault).link = s.link := by
  unfold State.afterEstimate
  split
  · rfl
  · rw [s.estimate_eq]

theorem ReportReached.afterEstimate {k : TankId} {r : Tank} {s u : State} (h : ReportReached k r s u) (fault : Bool) :
    ReportReached k r s (u.afterEstimate k fault) := by
  unfold State.afterEstimate
  split
  · exact h
  · exact h.estimate

/-- R116: ring and anchor with gauge fault yes. -/
theorem estimated_fault (steady : Bool) (epoch w : Nat) (x : Tank) : estimated steady epoch w true x = (x.ring, x.anchor) := by
  simp [estimated]

/-- R88: a report brings a tank to no line. -/
theorem transited_line {r x : Tank} {l : LineId} (h : transited r = some x) (hl : x.line = some l) : r.line = some l := by
  have off (y : Tank) (e : unlined y = some x) : x.line = none := by
    have none := unlined_line y
    rwa [e, Option.bind_some] at none
  unfold transited at h
  split at h
  · split at h <;> (obtain rfl := Option.some.inj h; exact hl)
  · split at h
    case h_3 => rw [off _ h] at hl; cases hl
    case h_4 => rw [off _ h] at hl; cases hl
    all_goals (obtain rfl := Option.some.inj h; exact hl)

/-- R87: a level report under sound lineups. -/
theorem State.levelReport_made {s : State} {p : LevelReport} {r : Tank} (h : s.tank p.tank = some r) (sound : LineupsSound s)
    (fresh : r.mTime.getD 0 ≤ s.clock - p.age) :
    ReportMade p.tank p.volume p.valve p.fault (s.clock - p.age) s r (s.levelReport p) := by
  obtain ⟨reached, tank, link, poll⟩ := State.reportReaches_reached h sound
  have figures {x : Tank} (e) (w : Nat) := State.estimated_reached h sound (x := x) e w
  have whole := State.levelReport_eq h fresh
  have frame := (State.reportReaches_within h).frame
  have fields := r.reported_eq p (s.clock - p.age)
  unfold ReportMade
  rw [← fields]
  simp only [← Tank.overfills_iff]
  simp only [] at whole figures
  generalize r.reported p (s.clock - p.age) = r' at *
  generalize s.reportReaches p r = u at *
  obtain ⟨onlyTank, trips, base, port, distinct, alone, line⟩ := reached.afterEstimate p.fault
  refine ⟨u.afterEstimate p.tank p.fault, onlyTank, trips, base, port, distinct, alone, fun still => ?_, fun x fate below => ?_,
    fun x fate full => ?_, fun fate => ?_, fun l e => ?_⟩
  · rw [State.afterEstimate_link, link still]
  · have record : u.tank p.tank = some x := tank.trans fate
    have e := State.afterEstimate_below record below p.fault
    rw [record] at whole
    simp only [if_neg below] at whole
    rw [e]
    refine ⟨?_, whole⟩
    cases p.fault with
    | true =>
      rw [estimated_fault]
      exact record
    | false =>
      have figures := figures fate s.settings.estw
      have settings : u.settings = s.settings := frame.settings
      rw [← figures, ← settings]
      exact State.estimate_tank record
  · have record : u.tank p.tank = some x := tank.trans fate
    have e : u.afterEstimate p.tank p.fault = u := State.afterEstimate_eq_self (.inr (by simp [record, full]))
    have reached := reached
    rw [record] at whole
    simp only [if_pos full] at whole
    rw [e, whole]
    obtain ⟨spilt, listed, device, contact, alarm, advice⟩ := State.enterOverfill_spilt record
    have gauging : u.link = s.link := link (by rw [fate]; exact Option.some_ne_none x)
    refine ⟨record, ⟨x.spilt, spilt, rfl, rfl, rfl, rfl, rfl, rfl⟩, fun j hj => ?_, listed, device, contact, alarm,
      fun g => advice (gauging ▸ g), fun l hl => ?_⟩
    · have within : Free { Scope.all with tanks := (· = p.tank) } u (u.enterOverfill p.tank) :=
        u.enterOverfill_free _ rfl trivial trivial fun _ _ => trivial
      exact (within.tank_eq hj).trans (reached.onlyTank j hj)
    · have line : r.line = some l := by
        rw [← transited_line fate hl, fields]
      have lineup : u.lineup l = s.lineup l := (reached.line l line).stays (by rw [record]; exact hl)
      obtain ⟨erased, outlet, told⟩ := State.enterOverfill_reported record hl (lineup ▸ sound.2.2 l)
      exact ⟨lineup ▸ erased, outlet, told⟩
  · have record : u.tank p.tank = none := tank.trans fate
    have e : u.afterEstimate p.tank p.fault = u := State.afterEstimate_eq_self (.inr (by simp [record]))
    rw [record] at whole
    rw [e, whole]
    exact ⟨record, rfl, poll fate⟩
  · have told := line l e
    exact ⟨told.only, told.gone, told.stays, told.filling, told.full, told.throttle, told.closed, told.opened, told.seq, told.meas,
      told.rate, told.still, told.held⟩

end Sys2Proof.Machine
end

section
/-! SUPPORT. What a level report leaves of the readings it stores (R87), whatever the lineups, and SOUND (R89). -/

namespace Sys2Proof.Machine

/-! ### Readings -/

/-- The readings and the capacity data of a record. -/
def Tank.readings (r : Tank) : Option Nat × Option Nat × ShipValve × Option Bool × Nat × Nat :=
  (r.vRep, r.mTime, r.valve, r.fault, r.cap, r.hh)

/-- A record without a pending entry keeps its readings and capacity data, and enters no OVERFILL. -/
def Tank.KeepsReadings (r x : Tank) : Prop :=
  x.readings = r.readings ∧ x.pendingEntry = none ∧ (r.state ≠ .overfill → x.state ≠ .overfill)

/-- From `s` to `t` the record of tank `k`, without a pending entry, has kept its readings. -/
def ReadingsKept (k : TankId) (s t : State) : Prop :=
  ∀ r, s.tank k = some r → r.pendingEntry = none → ∃ x, t.tank k = some x ∧ r.KeepsReadings x

theorem ReadingsKept.of_tank {k : TankId} {s t : State} (h : t.tank k = s.tank k) : ReadingsKept k s t :=
  fun r hr pending => ⟨r, h.trans hr, rfl, pending, id⟩

theorem ReadingsKept.refl (k : TankId) (s : State) : ReadingsKept k s s := .of_tank rfl

theorem ReadingsKept.trans {k : TankId} {s t u : State} (h : ReadingsKept k s t) (g : ReadingsKept k t u) : ReadingsKept k s u := by
  intro r hr pending
  obtain ⟨x, hx, same, none, under⟩ := h r hr pending
  obtain ⟨y, hy, same', none', under'⟩ := g x hx none
  exact ⟨y, hy, same'.trans same, none', fun e => under' (under e)⟩

theorem Own.readings {l : LineId} {s t : State} (h : Own l s t) (k : TankId) : ReadingsKept k s t := .of_tank (h.tank k)

/-- A write of the record that leaves the readings. -/
theorem ReadingsKept.of_map {k : TankId} {s t : State} {f : Tank → Tank} (h : t.tank k = (s.tank k).map f)
    (kept : ∀ r : Tank, r.pendingEntry = none → r.KeepsReadings (f r)) : ReadingsKept k s t :=
  fun r hr pending => ⟨f r, by rw [h, hr]; rfl, kept r pending⟩

theorem State.modTankNoticed_readings (s : State) (k : TankId) {f : Tank → Tank}
    (kept : ∀ r : Tank, r.pendingEntry = none → r.KeepsReadings (f r)) : ReadingsKept k s (s.modTankNoticed k f) :=
  .of_map (by simp) kept

theorem State.modTank_readings (s : State) (k : TankId) {f : Tank → Tank}
    (kept : ∀ r : Tank, r.pendingEntry = none → r.KeepsReadings (f r)) : ReadingsKept k s (s.modTank k f) :=
  .of_map (by simp) kept

theorem State.moveTank_readings (s : State) (k : TankId) {st : TankState} (h : st ≠ .overfill) :
    ReadingsKept k s (s.moveTank k st) :=
  .of_map (s.moveTank_tank k st) fun _ pending => ⟨rfl, pending, fun _ => h⟩

theorem State.leaveLineup_readings (s : State) (k : TankId) : ReadingsKept k s (s.leaveLineup k) := by
  refine .of_map (s.leaveLineup_tank k) fun r pending => ?_
  split <;> exact ⟨rfl, pending, id⟩

theorem State.clearRing_readings (s : State) (k : TankId) : ReadingsKept k s (s.clearRing k) :=
  s.modTank_readings k fun _ pending => ⟨rfl, pending, id⟩

theorem State.applyPending_readings (s : State) (k : TankId) : ReadingsKept k s (s.applyPending k) := by
  intro r hr pending
  refine ⟨r, ?_, rfl, pending, id⟩
  rw [State.applyPending_tank, hr, Option.bind_some, pendingApplied, pending]

theorem State.listTank_readings (s : State) (k : TankId) (b : Bool) : ReadingsKept k s (s.listTank k b) := by
  have off : ReadingsKept k s (((s.moveTank k .listed).leaveLineup k).modTankNoticed k fun x => { x with topped := x.topped || b }) :=
    ((s.moveTank_readings k (by decide)).trans (State.leaveLineup_readings _ k)).trans
      (State.modTankNoticed_readings _ k fun _ pending => ⟨rfl, pending, id⟩)
  unfold State.listTank
  split
  · exact .refl k s
  · simp only []
    split
    · exact (off.trans ((State.tellDeparture_own _ _ _).readings k)).trans (State.applyPending_readings _ k)
    · exact off.trans (State.applyPending_readings _ k)

theorem State.shiftTank_readings (s : State) (k : TankId) {st : TankState} (h : st ≠ .overfill) :
    ReadingsKept k s (s.shiftTank k st) := by
  have moved := s.moveTank_readings k h
  unfold State.shiftTank
  split
  · exact .refl k s
  · simp only []
    split
    · split
      · exact moved
      · exact moved.trans ((State.tellDeparture_own _ _ _).readings k)
    · exact moved

theorem State.startFilling_readings (s : State) (k : TankId) : ReadingsKept k s (s.startFilling k) := by
  have shifted := s.shiftTank_readings k (st := .filling) (by decide)
  unfold State.startFilling
  simp only []
  split
  · exact shifted.trans ((State.dropHold_own _ _ _).readings k)
  · exact shifted

theorem State.reportTransition_readings (s : State) (k : TankId) (w : ValveWord) : ReadingsKept k s (s.reportTransition k w) := by
  unfold State.reportTransition
  split
  · exact .refl k s
  · split
    · split
      · exact s.startFilling_readings k
      · exact .refl k s
    · have cleared := s.clearRing_readings k
      simp only []
      split
      case h_3 => exact cleared.trans (State.listTank_readings _ k true)
      case h_4 => exact cleared.trans (State.listTank_readings _ k false)
      case h_1 => exact cleared.trans (State.shiftTank_readings _ k (by decide))
      case h_2 => exact cleared.trans (State.shiftTank_readings _ k (by decide))
      all_goals exact cleared

theorem Tank.estimate_readings (steady : Bool) (epoch w v m : Nat) {r : Tank} (pending : r.pendingEntry = none) :
    r.KeepsReadings (r.estimate steady epoch w v m) := by
  unfold Tank.estimate
  split
  · exact ⟨rfl, pending, id⟩
  · split
    · exact ⟨rfl, pending, id⟩
    · split
      · exact ⟨rfl, pending, id⟩
      · split <;> exact ⟨rfl, pending, id⟩

theorem State.estimate_readings (s : State) (k : TankId) : ReadingsKept k s (s.estimate k) := by
  unfold State.estimate
  split
  · exact .refl k s
  · split
    · exact s.modTank_readings k fun _ pending => Tank.estimate_readings _ _ _ _ _ pending
    · exact s.modTank_readings k fun _ pending => ⟨rfl, pending, id⟩

theorem State.queueAdvice_readings (s : State) (k j : TankId) (a : AdviceKind) : ReadingsKept k s (s.queueAdvice j a) := by
  refine .of_tank ?_
  rw [State.queueAdvice_eq]
  rfl

theorem State.actOn_readings (s : State) (k : TankId) (l : LineId) (r : Tank) (e : Results) : ReadingsKept k s (s.actOn k l r e) := by
  unfold State.actOn
  split
  · exact (s.addTrip_own l .overrun).readings k
  · split
    · exact ((s.shiftTank_readings k (by decide)).trans ((State.addHold_own _ l _).readings k)).trans
        (State.queueAdvice_readings _ k k _)
    · split
      · split
        · exact ((s.moveTank_readings k (by decide)).trans ((State.reportTopping_soft _ l _).own.readings k)).trans
            (State.queueAdvice_readings _ k k _)
        · exact .refl k s
      · exact .refl k s

theorem State.evaluate_readings (s : State) (k : TankId) : ReadingsKept k s (s.evaluate k) := by
  have stored (e : Results) : ReadingsKept k s ((s.judgeStale k).modTank k fun x => { x with results := some e }) :=
    have judged : ReadingsKept k s (s.judgeStale k) := s.modTankNoticed_readings k fun _ pending => ⟨rfl, pending, id⟩
    judged.trans (State.modTank_readings _ k fun _ pending => ⟨rfl, pending, id⟩)
  unfold State.evaluate
  split
  · exact .refl k s
  · split
    · split
      · simp only []
        split
        · exact ((stored _).trans (State.actOn_readings _ k _ _ _)).trans ((State.addHold_own _ _ _).readings k)
        · exact (stored _).trans (State.actOn_readings _ k _ _ _)
      · exact .refl k s
    · exact .refl k s

/-! ### A report -/

theorem State.reportReaches_readings (s : State) (p : LevelReport) (r : Tank) :
    ReadingsKept p.tank (s.takeReport p (s.clock - p.age)) (s.reportReaches p r) := by
  have moved := (s.takeReport p (s.clock - p.age)).reportTransition_readings p.tank p.valve
  unfold State.reportReaches
  cases r.line with
  | none => exact moved
  | some l => exact moved.trans ((State.reportOutlets_own _ l _).readings _)

/-- R87, R107: the record and the trip unit after a report to a record without a pending entry. -/
theorem State.levelReport_readings {s : State} {p : LevelReport} {r : Tank} (h : s.tank p.tank = some r)
    (fresh : r.mTime.getD 0 ≤ s.clock - p.age) (pending : r.pendingEntry = none) : ∃ x, (s.levelReport p).tank p.tank = some x
      ∧ x.readings = (r.reported p (s.clock - p.age)).readings
      ∧ ((r.reported p (s.clock - p.age)).overfills = true → x.state = .overfill ∧ x.line = none
        ∧ p.tank ∈ (s.levelReport p).overfills ∧ DeviceTrip.overfill p.tank ∈ (s.levelReport p).device
        ∧ (s.levelReport p).esd.contact = .opened) := by
  have whole := State.levelReport_eq h fresh
  have record := State.takeReport_tank h (s.clock - p.age)
  have unchanged : (r.reported p (s.clock - p.age)).pendingEntry = none := by rw [r.reported_eq]; exact pending
  obtain ⟨x, hx, same, none, under⟩ := s.reportReaches_readings p r _ record unchanged
  have overfills : (r.reported p (s.clock - p.age)).overfills = true → x.overfills = true := fun g => by
    simp only [Tank.readings, Prod.mk.injEq] at same
    obtain ⟨volume, -, -, -, cap, hh⟩ := same
    rw [Tank.overfills_iff] at g ⊢
    rw [volume, cap, hh]
    exact ⟨under g.1, g.2⟩
  simp only [hx] at whole
  by_cases full : x.overfills = true
  · rw [if_pos full] at whole
    obtain ⟨spilt, listed, device, contact, -, -⟩ := State.enterOverfill_spilt hx
    rw [whole]
    exact ⟨x.spilt, spilt, same, fun _ => ⟨rfl, rfl, listed, device, contact⟩⟩
  · rw [if_neg full] at whole
    have after : ReadingsKept p.tank (s.reportReaches p r) (s.levelReport p) := by
      rw [whole]
      split
      · exact State.evaluate_readings _ _
      · exact (State.estimate_readings _ _).trans (State.evaluate_readings _ _)
    obtain ⟨y, hy, kept, -, -⟩ := after x hx none
    exact ⟨y, hy, kept.trans same, fun g => absurd (overfills g) full⟩

theorem State.levelReport_keeps (s : State) (p : LevelReport) :
    OnlyTank s (s.levelReport p) p.tank ∧ KeepsBase s (s.levelReport p) ∧ (s.levelReport p).port = s.port := by
  have within : Free { Scope.all with tanks := (· = p.tank) } s (s.levelReport p) :=
    s.levelReport_free p rfl trivial trivial fun _ _ => trivial
  have frame := within.frame
  exact ⟨fun j hj => within.tank_eq hj, ⟨frame.pending, frame.clock, frame.phase, frame.key, frame.settings, frame.store⟩,
    frame.port⟩

/-! ### SOUND -/

theorem State.exec_sound {s : State} (hr : Ready s) (n : Nat) (v : NumField) (w : Option ValveWord) :
    exec (.sound n v w) s = .next (s.takeSound n v w) := by
  show Host.Outcome.next (s.drained.takeSound n v w) = _
  rw [s.drained_ready hr]

/-- The report that a SOUND makes (R89). -/
def soundReport (k : TankId) (v : Nat) (w : ValveWord) (r : Tank) : LevelReport :=
  { tank := k, volume := min v r.cap, valve := w, fault := false, age := 0 }

/-- R87, R89: the record that SOUND stores. -/
theorem Tank.reported_sound (r : Tank) (k : TankId) (v : Nat) (w : ValveWord) (m : Nat) : r.reported (soundReport k v w r) m =
    { r with valve := reportedValve w, fault := some false, vRep := some (min v r.cap), mTime := some m } := by
  rw [r.reported_eq]
  simp [soundReport]

/-- R89: SOUND taken, with the words of its reply. -/
theorem State.exec_sound_taken {s : State} {k : TankId} {v : Nat} {w : ValveWord} {r : Tank} (hr : Ready s)
    (manual : s.link.gauging = .manual) (h : s.tank k = some r) : ∃ ws, exec (.sound (tankNumber k) (some v) (some w)) s =
      .next { s.levelReport (soundReport k v w r) with port := replied s ("=" :: "SOUND" :: numText (tankNumber k) :: ws) } := by
  obtain ⟨-, -, port⟩ := s.levelReport_keeps (soundReport k v w r)
  refine ⟨[(s.levelReport (soundReport k v w r)).tankWord k]
    ++ (if v = min v r.cap then [] else [numText (min v r.cap), "CLAMPED"]), ?_⟩
  rw [State.exec_sound hr, State.takeSound, State.afterStartup_ready hr.1, State.onTank_known h, if_neg (by rw [manual]; decide)]
  have made : s.soundTank k (min v r.cap) w = s.levelReport (soundReport k v w r) := rfl
  simp only [made]
  rw [State.take_eq, replied, replied, port]
  rfl

/-- Settles O41: SOUND is a level report (`State.levelReport_made`, `State.levelReport_readings`), or the first check that fails
refuses it. -/
theorem soundTaken : Obligations.SoundTaken := by
  refine ⟨fun k v w s r hr manual h fresh pending => ?_, fun n v w s hr => ⟨fun linked => ?_, fun manual =>
    ⟨fun unknown => ?_, fun ⟨k, hn, known⟩ missing => ?_⟩⟩, fun k v w s r hr manual h fresh sound => ?_⟩
  · obtain ⟨ws, run⟩ := State.exec_sound_taken (v := v) (w := w) hr manual h
    obtain ⟨only, base, -⟩ := s.levelReport_keeps (soundReport k v w r)
    obtain ⟨x, record, same, spilt⟩ := State.levelReport_readings (p := soundReport k v w r) h fresh pending
    rw [r.reported_sound] at same spilt
    simp only [Tank.readings, Prod.mk.injEq] at same
    obtain ⟨volume, time, valve, fault, -, -⟩ := same
    exact ⟨_, x, ws, run, record, volume, time, valve, fault,
      fun reached out => spilt ((Tank.overfills_iff _).mpr ⟨out, _, rfl, reached⟩), only, rfl, base⟩
  · rw [State.exec_sound hr, State.takeSound, State.afterStartup_ready hr.1, if_pos linked]
    rfl
  · rw [State.exec_sound hr, State.takeSound, State.afterStartup_ready hr.1, if_neg (by rw [manual]; decide),
      State.onTank_unknown unknown]
    rfl
  · obtain ⟨r, h⟩ := Option.ne_none_iff_exists'.mp known
    rw [State.exec_sound hr, State.takeSound, State.afterStartup_ready hr.1, if_neg (by rw [manual]; decide), hn,
      State.onTank_known h]
    rcases missing with e | e
    · rw [e]
      rfl
    · rw [e]
      cases v <;> rfl
  · obtain ⟨ws, run⟩ := State.exec_sound_taken (v := v) (w := w) hr manual h
    have made := State.levelReport_made (p := soundReport k v w r) h sound fresh
    have capped : min (soundReport k v w r).volume r.cap = min v r.cap := Nat.min_eq_left (Nat.min_le_right v r.cap)
    unfold ReportMade at made ⊢
    rw [capped] at made
    exact ⟨_, ws, run, made⟩

end Sys2Proof.Machine
end

section
/-! SUPPORT. The end of a good exchange with any link-loss count in force (R127, R128): with a count of 0, which no run reaches (R172), the
success loses the link. -/

namespace Sys2Proof.Machine

/-! ### The ways a success ends -/

/-- R127, R128: the end of a good exchange by the link state: not counted; the third success, or an earlier one, of a lost link; a link
lost by a link-loss count of 0; a link graded by its window. -/
inductive ClosedWell (refresh : Bool) (s : State) : State → Prop
  | uncounted : s.link.state.counts = false → ClosedWell refresh s (s.modLink (Link.ended refresh))
  | returned : s.link.state = .lost → 3 ≤ min 3 (s.link.succRun + 1) → ClosedWell refresh s (s.succeeded refresh).recoverLink
  | waiting : s.link.state = .lost → min 3 (s.link.succRun + 1) < 3 → ClosedWell refresh s (s.succeeded refresh)
  | lost : s.link.state ∈ [LinkState.good, .poor] → s.settings.linkloss = 0 → ClosedWell refresh s (s.succeeded refresh).enterLost
  | graded : s.link.state ∈ [LinkState.good, .poor] → 0 < s.settings.linkloss →
      ClosedWell refresh s ((s.succeeded refresh).modLinkNoticed Link.graded)

theorem State.succeeded_lost {s : State} (refresh : Bool) (h : s.link.state = .lost) :
    (s.succeeded refresh).link.succRun = min 3 (s.link.succRun + 1) := by
  simp [State.succeeded, Link.count, Link.ended, Link.space, h]

theorem State.closeExchange_closedWell (s : State) (refresh : Bool) : ClosedWell refresh s (s.closeExchange refresh false) := by
  by_cases counts : s.link.state.counts = true
  · rw [State.closeExchange_counted refresh counts]
    have state : (s.succeeded refresh).link.state = s.link.state := rfl
    have up : s.link.state = .lost ∨ s.link.state ∈ [LinkState.good, .poor] := by
      revert counts
      cases s.link.state <;> decide
    rcases up with lost | up
    · have run := State.succeeded_lost refresh lost
      have judged : (s.succeeded refresh).judgeQuality = (s.succeeded refresh).judgeRecovered := by
        unfold State.judgeQuality
        rw [state, lost]
      by_cases third : 3 ≤ min 3 (s.link.succRun + 1)
      · have e : (s.succeeded refresh).judgeRecovered = (s.succeeded refresh).recoverLink :=
          if_pos ⟨state.trans lost, run ▸ third⟩
        rw [judged, e]
        exact .returned lost third
      · have e : (s.succeeded refresh).judgeRecovered = s.succeeded refresh := if_neg fun g => third (run ▸ g.2)
        rw [judged, e]
        exact .waiting lost (Nat.not_le.mp third)
    · by_cases loss : s.settings.linkloss = 0
      · have counted : (s.succeeded refresh).link.lossCount ≤ (s.succeeded refresh).link.failRun := by
          simp [State.succeeded, Link.count, loss]
        have either : s.link.state = .good ∨ s.link.state = .poor := by simpa using up
        have lost : (s.succeeded refresh).judgeLost = (s.succeeded refresh).enterLost := if_pos ⟨either, counted⟩
        have judged : (s.succeeded refresh).judgeQuality = (s.succeeded refresh).enterLost := by
          unfold State.judgeQuality
          rcases either with e | e <;> simp only [state, e, if_pos counted, lost]
        rw [judged]
        exact .lost up loss
      · have stays : ¬ (s.succeeded refresh).link.returns := fun g => by
          rw [state.symm.trans g.1] at up
          exact absurd up (by decide)
        rw [(State.judgeQuality_success (v := s.succeeded refresh) rfl (Nat.pos_of_ne_zero loss)).2 stays]
        exact .graded up (Nat.pos_of_ne_zero loss)
  · rw [Bool.not_eq_true] at counts
    rw [State.closeExchange_uncounted refresh counts]
    exact .uncounted counts

/-! ### The link record -/

/-- What the end of a good exchange leaves of the link record (R124, R127, R134). -/
structure LinkClosed (refresh : Bool) (s c : State) : Prop where
  whole : c.link = { s.link with
    exchange := none, spacing := if refresh = true then 0 else min 15 (s.link.spacing + 1), state := c.link.state
    window := c.link.window, failRun := c.link.failRun, succRun := c.link.succRun, lossCount := c.link.lossCount
    queries := c.link.queries, outcomes := c.link.outcomes }
  queries : c.link.queries = if c.link.state = .lost ∧ s.link.state ≠ .lost then [] else s.link.queries
  acquiring : c.link.state = .acquiring ↔ s.link.state = .acquiring

theorem State.enterLost_link (s : State) : s.enterLost.link = { s.link with
    state := .lost, succRun := 0, queries := [], outcomes := s.enterLost.link.outcomes } := by
  rw [s.enterLost_elsewhere.link, s.lost_eq]

theorem ClosedWell.link {refresh : Bool} {s c : State} (h : ClosedWell refresh s c) : LinkClosed refresh s c := by
  cases h with
  | uncounted counts =>
    have stays : ¬ ((s.modLink (Link.ended refresh)).link.state = .lost ∧ s.link.state ≠ .lost) := fun g => g.2 g.1
    exact ⟨rfl, by rw [if_neg stays]; rfl, Iff.rfl⟩
  | returned lost third =>
    have link : (s.succeeded refresh).recoverLink.link = { (s.succeeded refresh).link with
        state := .good, window := [], failRun := 0 } := by rw [State.recoverLink_eq]
    rw [← not_not (a := s.link.state = .lost)] at lost
    refine ⟨by rw [link]; rfl, ?_, ?_⟩
    · rw [if_neg fun g => lost g.2, link]
      rfl
    · rw [link, not_not.mp lost]
      simp
  | waiting lost few => exact ⟨rfl, by rw [if_neg fun g => g.2 lost]; rfl, Iff.rfl⟩
  | lost up loss =>
    have link := (s.succeeded refresh).enterLost_link
    have other : s.link.state ≠ .lost := fun e => by rw [e] at up; exact absurd up (by decide)
    have apart : s.link.state ≠ .acquiring := fun e => by rw [e] at up; exact absurd up (by decide)
    refine ⟨?_, ?_, ?_⟩
    · rw [link]; rfl
    · rw [link, if_pos ⟨rfl, other⟩]
    · rw [link]
      exact ⟨nofun, fun e => absurd e apart⟩
  | graded up loss =>
    have link : ((s.succeeded refresh).modLinkNoticed Link.graded).link = (s.succeeded refresh).link.graded :=
      State.modLinkNoticed_link _ _
    have counted : (s.succeeded refresh).link.state = s.link.state := rfl
    have state : (s.succeeded refresh).link.graded.state ≠ .lost ∧ (s.succeeded refresh).link.graded.state ≠ .acquiring := by
      simp only [List.mem_cons, List.not_mem_nil, or_false] at up
      unfold Link.graded
      rcases up with e | e
      all_goals
        simp only [counted, e]
        split <;> exact ⟨by decide, by decide⟩
    have apart : s.link.state ≠ .acquiring := fun e => by rw [e] at up; exact absurd up (by decide)
    refine ⟨?_, ?_, ?_⟩
    · rw [link]; rfl
    · rw [link, if_neg fun g => state.1 g.1]
      rfl
    · rw [link]
      exact ⟨fun e => absurd e state.2, fun e => absurd e apart⟩

end Sys2Proof.Machine
end

section
/-! SUPPORT. The judgement of a success (R127 to R129), and what later stages keep of it. -/

namespace Sys2Proof.Machine

/-- R128: the judgement stands while the link record keeps what was judged, and the lines keep what they were told of the link. -/
theorem OutcomeJudged.later {s c t : State} (h : OutcomeJudged false s c) (state : t.link.state = c.link.state)
    (window : t.link.window = c.link.window) (failRun : t.link.failRun = c.link.failRun)
    (succRun : t.link.succRun = c.link.succRun) (lossCount : t.link.lossCount = c.link.lossCount)
    (queries : c.link.queries = [] → t.link.queries = [])
    (alarm : AlarmPresent c .linkLost .link → AlarmPresent t .linkLost .link)
    (permit : ∀ l, (c.seq l).permit = false → (t.seq l).permit = false)
    (holds : ∀ l, HoldCause.link ∈ (t.seq l).holds ↔ HoldCause.link ∈ (c.seq l).holds) : OutcomeJudged false s t := by
  unfold OutcomeJudged at h ⊢
  rw [← state, ← window, ← failRun, ← succRun, ← lossCount] at h
  simp only [] at h ⊢
  obtain ⟨up, run, count, lost, down⟩ := h
  refine ⟨fun u => ⟨fun loss => ?_, (up u).2⟩, run, count, fun l => ⟨fun third => ?_, (lost l).2⟩, down⟩
  · obtain ⟨a, b, q, present, lines, -⟩ := (up u).1 loss
    refine ⟨a, b, queries q, alarm present, fun g l => ?_, nofun⟩
    obtain ⟨off, joins⟩ := lines g l
    exact ⟨permit l off, fun m => (holds l).mpr (joins m)⟩
  · obtain ⟨a, b, d, off⟩ := (lost l).1 third
    exact ⟨a, b, d, fun l => mt (holds l).mp (off l)⟩

/-- R127, R128: the end of a good exchange is judged. -/
theorem ClosedWell.judged {refresh : Bool} {s c : State} (h : ClosedWell refresh s c) : OutcomeJudged false s c := by
  cases h with
  | uncounted counts =>
    have low : s.link.state ≠ .good ∧ s.link.state ≠ .poor ∧ s.link.state ≠ .lost := by
      refine ⟨fun e => ?_, fun e => ?_, fun e => ?_⟩ <;> (rw [e] at counts; cases counts)
    obtain ⟨good, poor, lost⟩ := low
    unfold OutcomeJudged
    simp [good, poor, lost, Link.ended, Link.space]
  | returned lost third =>
    have link : (s.succeeded refresh).recoverLink.link = { (s.succeeded refresh).link with
        state := .good, window := [], failRun := 0 } := by rw [State.recoverLink_eq]
    unfold OutcomeJudged
    have dropped (l : LineId) : HoldCause.link ∉ ((s.succeeded refresh).recoverLink.seq l).holds := by
      rw [State.recoverLink_seq, mem_setErase]
      exact fun h => h.2 rfl
    have short : ¬ min 3 (s.link.succRun + 1) < 3 := by omega
    rw [link]
    simp only [lost, List.mem_cons, List.not_mem_nil, reduceCtorEq, or_false, or_self, false_implies, true_implies, true_and,
      Bool.false_eq_true, if_false, short, and_true, or_true]
    exact ⟨rfl, fun _ => dropped⟩
  | waiting lost few =>
    have short : ¬ 3 ≤ min 3 (s.link.succRun + 1) := by omega
    have run := State.succeeded_lost refresh lost
    unfold OutcomeJudged
    simp only [lost, List.mem_cons, List.not_mem_nil, reduceCtorEq, or_false, or_self, false_implies, true_implies, true_and,
      Bool.false_eq_true, if_false, short, and_true, or_true]
    exact ⟨rfl, fun _ => ⟨lost, rfl, rfl, run⟩⟩
  | lost up loss =>
    have handed := (s.succeeded refresh).enterLost_handed
    have link := (s.succeeded refresh).enterLost_link
    have present := (s.succeeded refresh).enterLost_alarmPresent
    have apart : s.link.state ≠ .lost ∧ s.link.state ≠ .down := by
      constructor <;> (intro e; rw [e] at up; exact absurd up (by decide))
    unfold OutcomeJudged
    rw [link]
    refine ⟨fun _ => ⟨fun _ => ⟨rfl, rfl, rfl, present, fun g l => ?_, nofun⟩, fun g => absurd g (by simp [loss])⟩,
      fun _ => ⟨rfl, rfl⟩, fun _ => rfl, fun e => absurd e apart.1, fun e => absurd e apart.2⟩
    obtain ⟨permit, -, -, -, joins, -⟩ := handed.1 g l
    exact ⟨permit, joins⟩
  | graded up loss =>
    have same : (s.succeeded refresh).modLinkNoticed Link.graded = s.closeExchange refresh false := by
      have stays : ¬ (s.succeeded refresh).link.returns := fun g => by
        have state : s.link.state = .lost := g.1
        rw [state] at up
        exact absurd up (by decide)
      have counts : s.link.state.counts = true := by
        simp only [List.mem_cons, List.not_mem_nil, or_false] at up
        rcases up with e | e <;> rw [e] <;> rfl
      rw [State.closeExchange_counted refresh counts, (State.judgeQuality_success (v := s.succeeded refresh) rfl loss).2 stays]
    rw [same]
    exact outcomeJudged_of_success loss rfl rfl rfl rfl rfl fun lost third => State.closeGood_returns refresh loss lost third

/-! ### The lines -/

/-- From `s` to `c` the link has been lost, and each line told of it (R129). -/
structure LostTold (s c : State) : Prop where
  handed : LinkLossHanded s c
  distinct : AlarmsDistinct s → AlarmsDistinct c
  whole : c = { s with seqs := c.seqs, rates := c.rates, meass := c.meass, drives := c.drives, link := c.link
                       alarms := c.alarms, horn := c.horn, notices := c.notices }

theorem State.eachLine_distinct {f : State → LineId → State} (hf : ∀ t k, AlarmsDistinct t → AlarmsDistinct (f t k)) {s : State}
    (d : AlarmsDistinct s) : AlarmsDistinct (s.eachLine f) := by
  unfold State.eachLine
  induction allLines generalizing s with
  | nil => exact d
  | cons l ls ih => exact ih (hf s l d)

theorem State.enterLost_distinct (s : State) (d : AlarmsDistinct s) : AlarmsDistinct s.enterLost := by
  have lost := s.lost_distinct d
  rw [s.enterLost_eq]
  split
  · exact State.eachLine_distinct (fun t k => (t.linkLostOn_own k).distinct) lost
  · exact lost

theorem ClosedWell.lines {refresh : Bool} {s c : State} (h : ClosedWell refresh s c) :
    EndedWell s c ∨ s.settings.linkloss = 0 ∧ LostTold s c := by
  have counted : EndedWell s (s.succeeded refresh) := .of_link rfl
  cases h with
  | uncounted counts => exact .inl (.of_link rfl)
  | returned lost third => exact .inl (counted.trans (State.recoverLink_endedWell _))
  | waiting lost few => exact .inl counted
  | graded up loss =>
    refine .inl (counted.trans (.of_link ?_))
    apply State.eq_of_fields <;> simp
  | lost up loss =>
    have handed : LinkLossHanded s (s.succeeded refresh).enterLost := (s.succeeded refresh).enterLost_handed
    have same := (s.succeeded refresh).enterLost_elsewhere
    have lost := (s.succeeded refresh).lost_eq
    refine .inr ⟨loss, handed, fun d => (s.succeeded refresh).enterLost_distinct d, ?_⟩
    rw [same.eq, lost]
    rfl

end Sys2Proof.Machine
end

section
/-! SUPPORT. The STOP flag of a good reply (R126), whatever the link-loss count in force, and what later stages keep of it. -/

namespace Sys2Proof.Machine

/-! ### What the STOP flag leaves of the alarms and the pump -/

theorem State.addHold_fades (s : State) (l : LineId) (c : HoldCause) : Fades s (s.addHold l c) := by
  have left : Fades s (s.leaveDelivering l) := by
    have a := s.leaveDelivering_alarms l
    split at a
    · exact (s.alarmGone_fades .flowUnsteady (.line l)).trans (.of_alarms a)
    · exact .of_alarms a
  unfold State.addHold
  simp only []
  split
  · split
    · exact left.trans (.of_alarms (by simp [State.closeOnProfile]))
    · exact .of_alarms (by simp)
  · exact .refl

theorem State.takeStop_fades (s : State) (stop : Bool) : Fades s (s.takeStop stop) := by
  have read : Fades s (s.stopRead stop) := .of_alarms (by simp [State.stopRead])
  have told (t : State) (l : LineId) : Fades t (t.stopOn stop l) := by
    cases stop with
    | true => exact (t.addHold_fades l .ship).trans (.of_alarms (by simp [State.stopOn, State.heldOff, State.clearPermit]))
    | false => exact .of_alarms (by simp [State.stopOn, State.dropHold])
  rw [s.takeStop_eq]
  exact read.trans (Fades.foldl told allLines _)

theorem State.takeStop_subset (s : State) (stop : Bool) : s.notices ⊆ (s.takeStop stop).notices := by
  have read : s.notices ⊆ (s.stopRead stop).notices := by
    unfold State.stopRead State.modLinkNoticed
    simp only []
    split
    · exact List.Subset.refl _
    · exact fun n hn => State.notify_subset _ _ hn
  have lines (ls : List LineId) (t : State) : t.notices ⊆ (ls.foldl (fun s l => s.stopOn stop l) t).notices := by
    induction ls generalizing t with
    | nil => exact List.Subset.refl _
    | cons l ls ih => exact List.Subset.trans (t.stopOn_own stop l).subset (ih _)
  exact List.Subset.trans read (lines allLines _)

/-- R60, R62: the pump permit of a line whose ship permit STOP has cleared. -/
theorem State.takeStop_pump (s : State) (l : LineId) : ((s.takeStop true).seq l).pump = false := by
  obtain ⟨a, -, after⟩ := (s.stopRead true).eachLine_around (l := l) fun t k other => t.stopOn_aside true other
  rw [← s.takeStop_eq] at after
  have cleared := (a.addHold l .ship).clearPermit_seq l
  rw [after.seq]
  exact congrArg Seq.pump cleared

/-! ### STOP after the judgement of the exchange -/

theorem PermitLeft.refl (w : State) : PermitLeft w w :=
  ⟨fun _ => rfl, fun _ => rfl, fun _ _ => rfl, rfl, rfl, rfl, rfl, List.Subset.refl _⟩

/-- A profiled closure told from any state that agrees with the one before it in what it reads of the line. -/
theorem HeldOnProfile.of_before {h : HoldCause} {s c t : State} {l : LineId} (lost : LostTold s c) (held : HeldOnProfile h c t l)
    (state : (c.seq l).state = (s.seq l).state) (drive : c.drive l = s.drive l) (rate : c.rate l = s.rate l)
    (meas : c.meas l = s.meas l) : HeldOnProfile h s t l := by
  obtain ⟨holding, holds, pump, closed, pending, left, stay⟩ := held
  have fresh : c.freshTClose l = s.freshTClose l := State.freshTClose_congr (by rw [lost.whole]) (by rw [lost.whole])
    (by rw [meas]) (by rw [drive])
  have esd : c.esd = s.esd := by rw [lost.whole]
  have port : c.port = s.port := by rw [lost.whole]
  rw [state, meas, rate] at left stay
  rw [port] at left
  rw [esd] at pump
  rw [fresh, drive] at closed
  rw [rate] at pending
  refine ⟨holding, holds, pump, closed, pending, fun out => ?_, stay⟩
  obtain ⟨m, r, alarm, notice⟩ := left out
  exact ⟨m, r, alarm ∘ lost.distinct, notice⟩

/-- R48, R129: a line that the loss of the link holds on its profile is so with SHIP too. -/
theorem HeldOnProfile.stopped {s c : State} {l : LineId} (lost : LostTold s c) (held : HeldOnProfile .link s c l) :
    HeldOnProfile .ship s (c.takeStop true) l := by
  obtain ⟨holding, -, -, drive, pending, left, stay⟩ := held
  obtain ⟨on, -⟩ := c.takeStop_line true l
  obtain ⟨permit, -, idle, joins, -⟩ := on rfl
  obtain ⟨state, sameDrive, sameRate, sameMeas⟩ := idle fun ⟨moving, _⟩ => by
    rw [holding] at moving
    exact absurd moving (by decide)
  have fades := c.takeStop_fades true
  refine ⟨state.trans holding, joins (by rw [holding]; decide), ?_, by rw [sameDrive, drive], by rw [sameRate, pending], fun out => ?_,
    fun out => ?_⟩
  · rw [c.takeStop_pump, pumpPermit, permit]
    simp
  · obtain ⟨m, r, alarm, notice⟩ := left out
    refine ⟨sameMeas.trans m, by rw [sameRate]; exact r, fun d => ?_, fun st on => c.takeStop_subset true (notice st on)⟩
    exact fades.absent (lost.distinct d) _ _ (alarm d)
  · obtain ⟨m, r⟩ := stay out
    exact ⟨sameMeas.trans m, by rw [sameRate]; exact r⟩

/-- R126, R129: the STOP flag after the loss of the link. -/
theorem LostTold.stopTaken {s c : State} (lost : LostTold s c) (loss : s.settings.linkloss = 0) (stop : Bool) :
    StopTaken stop s (c.takeStop stop) := by
  intro l
  obtain ⟨on, off⟩ := c.takeStop_line stop l
  refine ⟨fun st => ?_, fun st => ?_, fun pos => absurd pos (by omega)⟩
  · subst st
    obtain ⟨permit, handed⟩ := on rfl
    have ship := handed
    obtain ⟨begins, -, joins, -⟩ := ship
    have same (h : c.seqs = s.seqs ∧ c.rates = s.rates ∧ c.meass = s.meass ∧ c.drives = s.drives) :
        c.seq l = s.seq l ∧ c.rate l = s.rate l ∧ c.meas l = s.meas l ∧ c.drive l = s.drive l := by
      obtain ⟨q, r, m, d⟩ := h
      exact ⟨congrArg (vget · l) q, congrArg (vget · l) r, congrArg (vget · l) m, congrArg (vget · l) d⟩
    cases gauging : s.link.gauging with
    | manual =>
      obtain ⟨seq, rate, meas, drive⟩ := same (lost.handed.2 gauging)
      rw [seq] at begins joins
      exact ⟨permit, joins, fun moving out => (begins ⟨moving, out⟩).of_before lost (by rw [seq]) drive rate meas⟩
    | linked =>
      obtain ⟨-, -, started, idle, -, -, others, -⟩ := lost.handed.1 gauging l
      by_cases held : (s.seq l).state ∈ [LineState.opening, .delivering] ∧ HoldCause.link ∉ (s.seq l).holds
      · have closes := started held
        have stopped := closes.stopped lost
        exact ⟨permit, fun _ => stopped.2.1, fun _ _ => stopped⟩
      · obtain ⟨state, drive, rate, meas⟩ := idle held
        rw [state] at begins joins
        exact ⟨permit, joins, fun moving out =>
          (begins ⟨moving, mt (others .ship (by decide)).mp out⟩).of_before lost state drive rate meas⟩
  · rw [(off st).1, mem_setErase]
    exact fun h => h.2 rfl

/-- R126: the STOP flag of a good reply, handed to the lines at the end of its exchange. -/
theorem ClosedWell.stopTaken {refresh : Bool} {s c : State} (h : ClosedWell refresh s c) (stop : Bool) :
    StopTaken stop s (c.takeStop stop) := by
  rcases h.lines with ended | ⟨loss, lost⟩
  · exact stopTaken_of_stages ended (.refl _) fun on l => ((c.takeStop_line stop l).1 on).1
  · exact lost.stopTaken loss stop

/-- What the end of a good exchange and its STOP flag leave of the state beside the lines, the link, the alarms and the notices. -/
theorem ClosedWell.whole {refresh : Bool} {s c : State} (h : ClosedWell refresh s c) (stop : Bool) : let w := c.takeStop stop
    w = { s with seqs := w.seqs, rates := w.rates, meass := w.meass, drives := w.drives, link := w.link
                 alarms := w.alarms, horn := w.horn, notices := w.notices } := by
  have closed : c = { s with seqs := c.seqs, rates := c.rates, meass := c.meass, drives := c.drives, link := c.link
                             alarms := c.alarms, horn := c.horn, notices := c.notices } := by
    rcases h.lines with ended | ⟨-, lost⟩
    · rw [ended.whole]
    · exact lost.whole
  have told := c.takeStop_elsewhere stop
  have read : c.stopRead stop = { c with link := (c.stopRead stop).link, notices := (c.stopRead stop).notices } := by
    unfold State.stopRead
    apply State.eq_of_fields <;> simp
  intro w
  change SameElsewhere _ w at told
  generalize w = w at *
  rw [told.eq, read, closed]

/-- The LINK_LOST condition stands while the lines are told of STOP. -/
theorem State.takeStop_linkLost (s : State) (stop : Bool) :
    AlarmPresent (s.takeStop stop) .linkLost .link ↔ AlarmPresent s .linkLost .link := by
  have lines (ls : List LineId) (t : State) :
      AlarmPresent (ls.foldl (fun s l => s.stopOn stop l) t) .linkLost .link ↔ AlarmPresent t .linkLost .link := by
    induction ls generalizing t with
    | nil => exact Iff.rfl
    | cons l ls ih =>
      rw [List.foldl_cons, ih]
      cases stop with
      | true =>
        rw [← t.addHold_alarmPresent l .ship (x := .linkLost) (o := .link) (by simp)]
        exact AlarmPresent.congr (by simp [State.stopOn, State.heldOff, State.clearPermit]) _ _
      | false => exact AlarmPresent.congr (by simp [State.stopOn, State.dropHold]) _ _
  rw [s.takeStop_eq]
  exact (lines allLines _).trans (AlarmPresent.congr (by simp [State.stopRead]) _ _)

/-- R128: the judgement of the exchange stands once the lines have been told of STOP. -/
theorem ClosedWell.judged_stopped {refresh : Bool} {s c : State} (h : ClosedWell refresh s c) (stop : Bool) :
    OutcomeJudged false s (c.takeStop stop) := by
  have link := c.takeStop_link stop
  refine h.judged.later ?_ ?_ ?_ ?_ ?_ ?_ (c.takeStop_linkLost stop).mpr (fun l off => ?_)
    fun l => c.takeStop_holds stop l (by decide)
  case refine_7 =>
    obtain ⟨on, dropped⟩ := c.takeStop_line stop l
    cases stop with
    | true => exact (on rfl).1
    | false => rw [(dropped rfl).1, ← off]
  all_goals rw [link]
  exact id

end Sys2Proof.Machine
end

section
/-! SUPPORT. What a level report leaves of the ship link: all but the advices and, where a record is removed, the poll queue. -/

namespace Sys2Proof.Machine

/-- From `s` to `t` the link record has changed at its advices and its poll queue alone. -/
def Relisted (s t : State) : Prop := t.link = { s.link with advices := t.link.advices, poll := t.link.poll }

theorem Relisted.of_link {s t : State} (h : t.link = s.link) : Relisted s t := by
  unfold Relisted
  rw [h]

theorem Relisted.refl {s : State} : Relisted s s := .of_link rfl

theorem Relisted.trans {s t u : State} (h : Relisted s t) (g : Relisted t u) : Relisted s u := by
  unfold Relisted at h g ⊢
  rw [g, h]

/-- Everything but the ship link. -/
def Scope.offLink : Scope := { Scope.all with link := False }

theorem Free.relisted {s t : State} (h : Free .offLink s t) : Relisted s t := .of_link (h.link_eq not_false).1

theorem Own.relisted {l : LineId} {s t : State} (h : Own l s t) : Relisted s t := .of_link h.elsewhere.link

theorem State.queueAdvice_relisted (s : State) (k : TankId) (a : AdviceKind) : Relisted s (s.queueAdvice k a) := by
  unfold Relisted State.queueAdvice
  split <;> rfl

theorem State.applyPending_relisted (s : State) (k : TankId) : Relisted s (s.applyPending k) := by
  unfold State.applyPending
  split
  · exact .refl
  · unfold Relisted State.removeTank State.forgetTank
    simp
  · exact (s.modTankNoticed_free k _ trivial).relisted

theorem State.listTank_relisted (s : State) (k : TankId) (topped : Bool) : Relisted s (s.listTank k topped) := by
  have off : Relisted s (((s.moveTank k .listed).leaveLineup k).modTankNoticed k fun x => { x with topped := x.topped || topped }) :=
    (((s.moveTank_free k .listed trivial).trans (State.leaveLineup_free _ k trivial fun _ _ => trivial)).trans
      (State.modTankNoticed_free _ k _ trivial)).relisted
  unfold State.listTank
  split
  · exact .refl
  · simp only []
    split
    · exact (off.trans (State.tellDeparture_own _ _ _).relisted).trans (State.applyPending_relisted _ k)
    · exact off.trans (State.applyPending_relisted _ k)

theorem State.reportTransition_relisted (s : State) (k : TankId) (w : ValveWord) : Relisted s (s.reportTransition k w) := by
  unfold State.reportTransition
  split
  · exact .refl
  · split
    · split
      · exact (s.startFilling_free k trivial fun _ _ => trivial).relisted
      · exact .refl
    · have cleared : Relisted s (s.clearRing k) := (s.clearRing_free k trivial).relisted
      simp only []
      split
      iterate 2 exact cleared.trans (State.shiftTank_free _ k _ trivial fun _ _ => trivial).relisted
      iterate 2 exact cleared.trans (State.listTank_relisted _ k _)
      all_goals exact cleared

theorem State.enterOverfill_relisted (s : State) (k : TankId) : Relisted s (s.enterOverfill k) := by
  unfold State.enterOverfill
  split
  · exact .refl
  · have entered : Relisted s
        ((((s.moveTank k .overfill).leaveLineup k).clearRing k).modTankNoticed k fun x => { x with stale := false }) :=
      ((((s.moveTank_free k .overfill trivial).trans (State.leaveLineup_free _ k trivial fun _ _ => trivial)).trans
        (State.clearRing_free _ k trivial)).trans (State.modTankNoticed_free _ k _ trivial)).relisted
    simp only []
    refine Relisted.trans ?_ (State.queueAdvice_relisted _ k _)
    refine Relisted.trans ?_ (State.deviceTrip_free _ _ trivial).relisted
    split
    · exact (entered.trans (State.tellDeparture_own _ _ _).relisted).trans (State.reportOutlets_own _ _ _).relisted
    · exact entered

theorem State.actOn_relisted (s : State) (k : TankId) (l : LineId) (r : Tank) (e : Results) : Relisted s (s.actOn k l r e) := by
  have full : Relisted s ((s.shiftTank k .full).addHold l .tankFull) :=
    ((s.shiftTank_free k .full trivial fun _ _ => trivial).trans ((State.addHold_own _ l _).free trivial)).relisted
  have topping : Relisted s ((s.moveTank k .topping).reportTopping l true) :=
    ((s.moveTank_free k .topping trivial).trans ((State.reportTopping_soft _ l true).own.free trivial)).relisted
  unfold State.actOn
  split
  · exact (s.addTrip_own l _).relisted
  · split
    · exact full.trans (State.queueAdvice_relisted _ k _)
    · split
      · split
        · exact topping.trans (State.queueAdvice_relisted _ k _)
        · exact .refl
      · exact .refl

theorem State.evaluate_relisted (s : State) (k : TankId) : Relisted s (s.evaluate k) := by
  have stored (e : Results) : Relisted s ((s.judgeStale k).modTank k fun x => { x with results := some e }) :=
    ((s.judgeStale_free k trivial).trans (State.modTank_free _ k _ trivial)).relisted
  unfold State.evaluate
  split
  · exact .refl
  · split
    · split
      · simp only []
        split
        · exact ((stored _).trans (State.actOn_relisted _ k _ _ _)).trans (State.addHold_own _ _ _).relisted
        · exact (stored _).trans (State.actOn_relisted _ k _ _ _)
      · exact .refl
    · exact .refl

theorem State.reportReaches_relisted (s : State) (p : LevelReport) (r : Tank) : Relisted s (s.reportReaches p r) := by
  have moved : Relisted s ((s.takeReport p (s.clock - p.age)).reportTransition p.tank p.valve) :=
    (s.takeReport_free p _ trivial).relisted.trans (State.reportTransition_relisted _ _ _)
  unfold State.reportReaches
  cases r.line with
  | none => exact moved
  | some l => exact moved.trans (State.reportOutlets_own _ l _).relisted

/-- R87: a report to an ABSENT tank, or one older than the record, is nothing. -/
theorem State.levelReport_unheard {s : State} {p : LevelReport}
    (h : ∀ r, s.tank p.tank = some r → s.clock - p.age < r.mTime.getD 0) : s.levelReport p = s := by
  unfold State.levelReport
  split
  · rfl
  · next r record => exact if_pos (h r record)

theorem State.levelReport_relisted (s : State) (p : LevelReport) : Relisted s (s.levelReport p) := by
  by_cases heard : ∃ r, s.tank p.tank = some r ∧ r.mTime.getD 0 ≤ s.clock - p.age
  · obtain ⟨r, record, fresh⟩ := heard
    have reaches := s.reportReaches_relisted p r
    rw [State.levelReport_eq record fresh]
    simp only []
    split
    · exact reaches
    · split
      · exact reaches.trans (State.enterOverfill_relisted _ _)
      · split
        · exact reaches.trans (State.evaluate_relisted _ _)
        · exact (reaches.trans (State.estimate_free _ _ trivial).relisted).trans (State.evaluate_relisted _ _)
  · rw [State.levelReport_unheard fun r record => Nat.lt_of_not_le fun fresh => heard ⟨r, record, fresh⟩]
    exact .refl

end Sys2Proof.Machine
end

section
/-! SUPPORT. A good LEVEL reply (R140): the exchange counted, the STOP flag told, the report made, the revision compared (R133) and the next
exchange chosen. -/

namespace Sys2Proof.Machine

/-- R124, R126: a good exchange counted and judged, and its STOP flag told to every line. -/
def State.stopTold (s : State) (refresh stop : Bool) : State := (s.closeExchange refresh false).takeStop stop

/-- What a good exchange leaves before its content is handed on. -/
structure GoodEnd (refresh stop : Bool) (s a : State) : Prop where
  judged : OutcomeJudged false s a
  stopTaken : StopTaken stop s a
  whole : a = { s with seqs := a.seqs, rates := a.rates, meass := a.meass, drives := a.drives, link := a.link
                       alarms := a.alarms, horn := a.horn, notices := a.notices }
  link : a.link = { s.link with
    exchange := none, spacing := if refresh = true then 0 else min 15 (s.link.spacing + 1), stop := some stop
    state := a.link.state, window := a.link.window, failRun := a.link.failRun, succRun := a.link.succRun
    lossCount := a.link.lossCount, queries := a.link.queries, outcomes := a.link.outcomes }
  queries : a.link.queries = if a.link.state = .lost ∧ s.link.state ≠ .lost then [] else s.link.queries
  acquiring : a.link.state = .acquiring ↔ s.link.state = .acquiring

theorem State.stopTold_goodEnd (s : State) (refresh stop : Bool) : GoodEnd refresh stop s (s.stopTold refresh stop) := by
  have closed := s.closeExchange_closedWell refresh
  obtain ⟨link, queries, acquiring⟩ := closed.link
  have told : (s.stopTold refresh stop).link = _ := State.takeStop_link _ stop
  refine ⟨closed.judged_stopped stop, closed.stopTaken stop, closed.whole stop, ?_, ?_, ?_⟩
  · rw [told, link]
  · rw [told]
    exact queries
  · rw [told]
    exact acquiring

/-- R133: the progress of the refresh once the revision has been compared. -/
theorem State.compareRevision_eq (s : State) (rev : Nat) : s.compareRevision rev = { s with link := { s.link with
    refresh := if s.link.rev = some rev ∨ s.link.state = .acquiring ∨ s.link.gauging = .manual then s.link.refresh
      else some ((s.link.refresh.filter fun p => p.header.all fun h => h.revision = rev).getD Refresh.begun) } } := by
  unfold State.compareRevision
  split
  · rfl
  · cases e : s.link.refresh with
    | none => rfl
    | some p =>
      have agree : (p.header.all fun h => decide (h.revision = rev)) = !p.header.any fun h => decide (h.revision ≠ rev) := by
        cases p.header <;> simp
      have same : s = { s with link := { s.link with refresh := some p } } := by rw [← e]
      by_cases other : (p.header.any fun h => decide (h.revision ≠ rev)) = true
      · simp only [Option.filter_some, agree, other]
        rfl
      · rw [Bool.not_eq_true] at other
        simp only [Option.filter_some, agree, other]
        exact same

theorem execLevelReply_good {s : State} {x : Exchange} {tele : List Byte} {stop fault : Bool} {k : TankId} {v age rev : Nat}
    {w : ValveWord} (sent : s.link.exchange = some x) (whole : x.part = none) (query : x.query = .level k)
    (good : readReply (.level k) tele = some { stop := stop, more := false, body := .level v w fault age rev }) :
    exec (.levelReply tele) s = .next ((((s.stopTold x.refresh stop).levelReport
      { tank := k, volume := v, valve := w, fault := fault, age := age }).compareRevision rev).chooseNext) := by
  have taken : s.takeReply Query.isLevel false tele = s.endGood x stop (.level v w fault age rev) := by
    simp [State.takeReply, sent, whole, query, good, Query.isLevel]
  have ended : s.endGood x stop (.level v w fault age rev) = (((s.stopTold x.refresh stop).levelReport
      { tank := k, volume := v, valve := w, fault := fault, age := age }).compareRevision rev).chooseNext := by
    simp [State.endGood, State.takeBody, State.stopTold, query]
  exact congrArg Host.Outcome.next (taken.trans ended)

/-- R124, R133: the comparison of the revision and the choice of the next exchange change the link record alone. -/
theorem State.comparedNext_eq (s : State) (rev : Nat) : (s.compareRevision rev).chooseNext = { s with
    link := (s.compareRevision rev).chooseNext.link } := by
  rw [State.chooseNext_eq, State.compareRevision_eq]

/-- Settles O48: the success and STOP (`State.stopTold_goodEnd`), the report (`State.levelReport_made`, `State.levelReport_readings`),
which leaves no exchange in flight (`State.levelReport_relisted`), then the comparison and the choice. -/
theorem levelReplyReports : Obligations.LevelReplyReports := by
  refine ⟨fun s x tele stop fault k v age rev w sent whole query good => ?_,
    fun s x tele stop fault k v age rev w sent whole query sound good => ?_⟩
  · have run := execLevelReply_good sent whole query good
    have ended := s.stopTold_goodEnd x.refresh stop
    generalize s.stopTold x.refresh stop = a at run ended
    have tank (j : TankId) : a.tank j = s.tank j := by rw [ended.whole]; rfl
    have clock : a.clock = s.clock := by rw [ended.whole]
    obtain ⟨only, base, port⟩ := a.levelReport_keeps { tank := k, volume := v, valve := w, fault := fault, age := age }
    have unheard := State.levelReport_unheard (s := a) (p := { tank := k, volume := v, valve := w, fault := fault, age := age })
    have listed := a.levelReport_relisted { tank := k, volume := v, valve := w, fault := fault, age := age }
    have readings := fun r => State.levelReport_readings (s := a) (r := r)
      (p := { tank := k, volume := v, valve := w, fault := fault, age := age })
    simp only [tank, clock] at only unheard readings
    generalize a.levelReport { tank := k, volume := v, valve := w, fault := fault, age := age } = b at *
    have same := b.comparedNext_eq rev
    have stopKept : (b.compareRevision rev).chooseNext.link.stop = b.link.stop := by
      rw [State.chooseNext_eq, State.compareRevision_eq]
    generalize (b.compareRevision rev).chooseNext = t at *
    have after (j : TankId) : t.tank j = b.tank j := by rw [same]; rfl
    refine ⟨t, run, ?_, ?_, fun none => ?_, fun r hr old => ?_, fun r hr fresh pending => ?_, ?_, ?_⟩
    · rw [stopKept, listed, ended.link]
    · exact fun j hj => (after j).trans ((only j hj).trans (tank j))
    · rw [after, unheard fun r hr => absurd (hr.symm.trans none) (by simp), tank, none]
    · rw [after, unheard fun r' hr' => by rwa [← Option.some.inj (hr.symm.trans hr')], tank, hr]
    · obtain ⟨r', record, values, spilt⟩ := readings r hr fresh pending
      rw [Tank.reported_eq] at values spilt
      simp only [Tank.readings, Prod.mk.injEq] at values
      obtain ⟨volume, time, valve, gauge, -, -⟩ := values
      refine ⟨r', (after k).trans record, valve, gauge, fun sane => ?_, fun broken => ?_, fun sane high out => ?_⟩
      · subst sane
        exact ⟨volume, time⟩
      · subst broken
        exact ⟨volume, time⟩
      · subst sane
        obtain ⟨state, -, overfills, device, contact⟩ := spilt ((Tank.overfills_iff _).mpr ⟨out, _, rfl, high⟩)
        rw [same]
        exact ⟨state, overfills, device, contact⟩
    · rw [same, port, ended.whole]
    · rw [ended.whole] at base
      rw [same]
      exact base
  · have run := execLevelReply_good sent whole query good
    have ended := s.stopTold_goodEnd x.refresh stop
    intro a begun compared
    change GoodEnd x.refresh stop s a at ended
    change exec (.levelReply tele) s = .next ((a.levelReport _).compareRevision rev).chooseNext at run
    clear_value a
    have listed := a.levelReport_relisted { tank := k, volume := v, valve := w, fault := fault, age := age }
    have unheard := State.levelReport_unheard (s := a) (p := { tank := k, volume := v, valve := w, fault := fault, age := age })
    have made := fun r => State.levelReport_made (s := a) (r := r)
      (p := { tank := k, volume := v, valve := w, fault := fault, age := age })
    have kept : KeepsBase s a ∧ KeepsTrips s a ∧ a.port = s.port ∧ a.tanks = s.tanks ∧ a.lineups = s.lineups := by
      rw [ended.whole]
      exact ⟨⟨rfl, rfl, rfl, rfl, rfl, rfl⟩, ⟨rfl, rfl, rfl⟩, rfl, rfl, rfl⟩
    obtain ⟨base, trips, port, tanks, lineups⟩ := kept
    have tank (j : TankId) : a.tank j = s.tank j := by rw [State.tank, State.tank, tanks]
    have clock : a.clock = s.clock := base.2.1
    simp only [tank, clock] at unheard made
    refine ⟨a.levelReport { tank := k, volume := v, valve := w, fault := fault, age := age }, ⟨run, State.compareRevision_eq _ rev,
      fun up linked => ?_⟩, ended.judged, by rw [ended.link], ended.stopTaken, tanks, lineups, port, base, trips,
      fun none => unheard fun r hr => absurd (hr.symm.trans none) (by simp), fun r hr => ⟨fun old =>
        unheard fun r' hr' => by rwa [← Option.some.inj (hr.symm.trans hr')], fun fresh =>
        made r hr (sound.of_same lineups tanks) fresh⟩⟩
    have idle : ((a.levelReport { tank := k, volume := v, valve := w, fault := fault, age := age }).compareRevision rev).link.exchange
        = none := by
      rw [State.compareRevision_eq, listed, ended.link]
    rw [State.chooseNext_calls idle up linked]
    exact (State.chooseLinked_chosen _).1

end Sys2Proof.Machine
end

section
/-! SUPPORT. What the content of a good telegram of a directory leaves of the lines that were told of STOP (R126, R129), and the next
exchange after it (R124, R135). -/

namespace Sys2Proof.Machine

/-! ### The lines -/

/-- From `w` to `t` the lines have kept what STOP brought them; LINK may have left them. -/
structure LinesKept (w t : State) : Prop where
  state : ∀ l, (t.seq l).state = (w.seq l).state
  permit : ∀ l, (t.seq l).permit = (w.seq l).permit
  ship : ∀ l, HoldCause.ship ∈ (t.seq l).holds ↔ HoldCause.ship ∈ (w.seq l).holds
  pump : ∀ l, (w.seq l).pump = pumpPermit (w.seq l) w.esd.loop → (t.seq l).pump = pumpPermit (t.seq l) w.esd.loop
  drive : ∀ l, t.drive l = w.drive l
  rate : ∀ l, t.rate l = w.rate l
  meas : ∀ l, t.meas l = w.meas l
  fades : Fades w t
  notices : w.notices ⊆ t.notices

theorem LinesKept.of_same {w t : State} (seqs : t.seqs = w.seqs) (rates : t.rates = w.rates) (meass : t.meass = w.meass)
    (drives : t.drives = w.drives) (alarms : t.alarms = w.alarms) (notices : w.notices ⊆ t.notices) : LinesKept w t := by
  have seq (l : LineId) : t.seq l = w.seq l := congrArg (vget · l) seqs
  exact ⟨fun l => by rw [seq], fun l => by rw [seq], fun l => by rw [seq], fun l => by rw [seq]; exact id,
    fun l => congrArg (vget · l) drives, fun l => congrArg (vget · l) rates, fun l => congrArg (vget · l) meass,
    .of_alarms alarms, notices⟩

theorem HeldOnProfile.kept {c : HoldCause} {s w t : State} {l : LineId} (h : HeldOnProfile c s w l) (ship : c = .ship)
    (g : LinesKept w t) (esd : w.esd = s.esd) (distinct : AlarmsDistinct s → AlarmsDistinct w) : HeldOnProfile c s t l := by
  subst ship
  obtain ⟨state, holds, pump, drive, pending, left, stay⟩ := h
  have meas := g.meas l
  have rate := g.rate l
  refine ⟨(g.state l).trans state, (g.ship l).mpr holds, ?_, (g.drive l).trans drive, by rw [rate]; exact pending, fun out => ?_,
    fun out => ?_⟩
  · rw [← esd] at pump ⊢
    exact g.pump l pump
  · obtain ⟨m, r, alarm, notice⟩ := left out
    exact ⟨meas.trans m, by rw [rate]; exact r, fun d => g.fades.absent (distinct d) _ _ (alarm d),
      fun st on => g.notices (notice st on)⟩
  · obtain ⟨m, r⟩ := stay out
    exact ⟨meas.trans m, by rw [rate]; exact r⟩

/-- R126: what STOP brought the lines stands. -/
theorem StopTaken.later {stop : Bool} {s w t : State} (h : StopTaken stop s w) (g : LinesKept w t) (esd : w.esd = s.esd)
    (distinct : AlarmsDistinct s → AlarmsDistinct w) : StopTaken stop s t := by
  intro l
  obtain ⟨on, off, calm⟩ := h l
  refine ⟨fun st => ?_, fun st => mt (g.ship l).mp (off st), fun loss idle => ?_⟩
  · obtain ⟨permit, joins, closes⟩ := on st
    exact ⟨(g.permit l).trans permit, fun takes => (g.ship l).mpr (joins takes),
      fun moving new => (closes moving new).kept rfl g esd distinct⟩
  · obtain ⟨state, drive, rate, meas⟩ := calm loss idle
    exact ⟨(g.state l).trans state, (g.drive l).trans drive, (g.rate l).trans rate, (g.meas l).trans meas⟩

/-! ### The return of the link (R129) -/

theorem State.linkBack_modSeq (s : State) : s.linkBack =
    (s.alarmGone .linkLost .link).eachLine fun s l => s.modSeq l fun q => { q with holds := setErase .link q.holds } := rfl

theorem State.linkBack_eq (s : State) : s.linkBack = { s with
    seqs := s.linkBack.seqs, alarms := (s.alarmGone .linkLost .link).alarms, horn := s.linkBack.horn
    notices := s.linkBack.notices } := by
  rw [s.linkBack_modSeq, State.eachLine_modSeq_eq]
  apply State.eq_of_fields <;> simp

theorem State.linkBack_seq (s : State) (l : LineId) : s.linkBack.seq l =
    { s.seq l with holds := setErase .link (s.seq l).holds, pump := pumpPermit (s.seq l) s.esd.loop } := by
  rw [s.linkBack_modSeq, State.eachLine_modSeq_seq]
  simp [pumpPermit]

theorem State.alarmGone_subset (s : State) (k : AlarmKind) (o : AlarmObject) : s.notices ⊆ (s.alarmGone k o).notices :=
  subset_of_noticesWith (s.alarmGone_eq_notify k o)

theorem State.linkBack_subset (s : State) : s.notices ⊆ s.linkBack.notices := by
  have told (ls : List LineId) (t : State) : t.notices ⊆ (ls.foldl (fun s l => s.dropHold l .link) t).notices := by
    induction ls generalizing t with
    | nil => exact List.Subset.refl _
    | cons l ls ih => exact List.Subset.trans (t.dropHold_own l .link).subset (ih _)
  unfold State.linkBack State.eachLine
  exact List.Subset.trans (s.alarmGone_subset .linkLost .link) (told allLines _)

theorem State.linkBack_kept (s : State) : LinesKept s s.linkBack := by
  have seq := s.linkBack_seq
  have whole := s.linkBack_eq
  have notices := s.linkBack_subset
  generalize s.linkBack = t at *
  refine ⟨fun l => by rw [seq], fun l => by rw [seq], fun l => ?_, fun l _ => by rw [seq]; simp [pumpPermit],
    fun l => by rw [whole]; rfl, fun l => by rw [whole]; rfl, fun l => by rw [whole]; rfl, ?_, notices⟩
  · rw [seq, mem_setErase, and_iff_left (by decide)]
  · exact (s.alarmGone_fades .linkLost .link).trans (.of_alarms (by rw [whole]))

theorem LinesKept.trans {w u t : State} (h : LinesKept w u) (g : LinesKept u t) (esd : u.esd = w.esd) : LinesKept w t := by
  refine ⟨fun l => (g.state l).trans (h.state l), fun l => (g.permit l).trans (h.permit l), fun l => (g.ship l).trans (h.ship l),
    fun l pump => ?_, fun l => (g.drive l).trans (h.drive l), fun l => (g.rate l).trans (h.rate l),
    fun l => (g.meas l).trans (h.meas l), h.fades.trans g.fades, List.Subset.trans h.notices g.notices⟩
  have before := h.pump l pump
  rw [← esd] at before ⊢
  exact g.pump l before

/-! ### The next exchange -/

/-- R139: the choice of the next exchange reorders the poll queue at most. -/
theorem State.chooseNext_poll (s : State) (j : TankId) : j ∈ s.chooseNext.link.poll ↔ j ∈ s.link.poll := by
  have linked : j ∈ s.chooseLinked.link.poll ↔ j ∈ s.link.poll := by
    unfold State.chooseLinked
    split
    iterate 2 exact Iff.rfl
    unfold State.choosePoll
    split
    · next picked =>
      split
      · exact Iff.rfl
      · exact State.pollTank_mem (pickTank_mem picked) j
    · exact Iff.rfl
    · next picked => exact State.pollTank_mem (pickTank_mem picked) j
    · exact Iff.rfl
  unfold State.chooseNext
  split
  iterate 2 exact Iff.rfl
  · split <;> exact Iff.rfl
  all_goals
    split
    · exact linked
    · exact Iff.rfl

theorem State.chooseNext_queries {s : State} (h : s.link.queries = []) : s.chooseNext.link.queries = [] := by
  have polled (k : TankId) : (s.pollTank k).link.queries = [] := by
    unfold State.pollTank State.sendQuery
    simp only [State.modLink_link]
    split <;> exact h
  have linked : s.chooseLinked.link.queries = [] := by
    unfold State.chooseLinked
    split
    · exact h
    · next e => rw [h] at e; cases e
    · unfold State.choosePoll
      split
      · split
        · exact h
        · exact polled _
      · exact h
      · exact polled _
      · exact h
  unfold State.chooseNext
  split
  iterate 2 exact h
  · split <;> exact h
  all_goals
    split
    · exact linked
    · exact h

/-- R124, R135: the next exchange told from a state `s` whose tanks are watched as those of `p` are. -/
theorem State.chooseNext_nextFrom {s p : State} (idle : p.link.exchange = none) (watched : watchedTank p = watchedTank s)
    (near : nearStopTank p = nearStopTank s) (settings : p.settings = s.settings) (polls : p.link.polls = s.link.polls)
    (queries : p.link.queries = if p.link.state = .lost ∧ s.link.state ≠ .lost then [] else s.link.queries) :
    NextFrom p.link.advices p.link.poll s p.chooseNext := by
  have begins := State.chooseNext_begins idle
  have state : p.chooseNext.link.state = p.link.state := by rw [State.chooseNext_eq]
  have stays : ¬ (p.chooseNext.link.state = .lost ∧ p.link.state ≠ .lost) := fun h => h.2 (state ▸ h.1)
  unfold NextBegins NextFrom at *
  rw [state] at stays begins ⊢
  simp only [if_neg stays, watched, near, settings, polls, queries] at begins ⊢
  exact begins

end Sys2Proof.Machine
end

section
/-! SUPPORT. A directory applied (R83 to R85): what an entry, and a record that no entry named, change. -/

namespace Sys2Proof.Machine

/-! ### What a directory can change -/

/-- From `s` to `t` the tank table, the advices, the poll queue and the count of rejected entries have changed at most, and notices
have become pending. -/
structure Catalogued (s t : State) : Prop where
  whole : t = { s with
    tanks := t.tanks, notices := t.notices
    link := { s.link with advices := t.link.advices, poll := t.link.poll, rejected := t.link.rejected } }
  notices : s.notices ⊆ t.notices

theorem Catalogued.refl {s : State} : Catalogued s s := ⟨rfl, List.Subset.refl _⟩

theorem Catalogued.trans {s t u : State} (h : Catalogued s t) (g : Catalogued t u) : Catalogued s u :=
  ⟨by rw [g.whole, h.whole], List.Subset.trans h.notices g.notices⟩

theorem Catalogued.foldl {α : Type} {f : State → α → State} (hf : ∀ t x, Catalogued t (f t x)) (xs : List α) (s : State) :
    Catalogued s (xs.foldl f s) := by
  induction xs generalizing s with
  | nil => exact .refl
  | cons x xs ih => exact (hf s x).trans (ih _)

theorem Catalogued.notify {s t : State} (h : Catalogued s t) (n : Notice) : Catalogued s (t.notify n) :=
  h.trans ⟨by rw [State.notify_eq], State.notify_subset _ _⟩

theorem State.modTankNoticed_catalogued (s : State) (k : TankId) (f : Tank → Tank) : Catalogued s (s.modTankNoticed k f) := by
  unfold State.modTankNoticed
  split
  · simp only []
    have written (r : Option Tank) : Catalogued s (s.setTank k r) := ⟨rfl, List.Subset.refl _⟩
    split
    · exact written _
    · exact (written _).notify _
  · exact .refl

theorem State.removeTank_catalogued (s : State) (k : TankId) : Catalogued s (s.removeTank k) := by
  have forgotten : Catalogued s ((s.setTank k none).forgetTank k) := ⟨rfl, List.Subset.refl _⟩
  exact forgotten.notify _

theorem State.acceptEntry_catalogued (s : State) (k : TankId) (e : DirEntry) : Catalogued s (s.acceptEntry k e) := by
  have created : Catalogued s ((s.setTank k (some (Tank.created e))).notify (.tank k)) :=
    Catalogued.notify (t := s.setTank k (some (Tank.created e))) ⟨rfl, List.Subset.refl _⟩ _
  unfold State.acceptEntry
  split
  · refine created.trans ?_
    unfold State.joinPoll
    split
    · exact .refl
    · exact ⟨rfl, List.Subset.refl _⟩
  · split
    · split
      · exact s.modTankNoticed_catalogued k _
      · exact (s.modTankNoticed_catalogued k _).notify _
    · split <;> exact s.modTankNoticed_catalogued k _

theorem State.rejectEntry_catalogued (s : State) (o : Option TankId) : Catalogued s (s.rejectEntry o) := by
  cases o with
  | some k => exact (s.modTankNoticed_catalogued k _).notify _
  | none =>
    exact Catalogued.notify (t := s.modLink fun k => { k with rejected := k.rejected + 1 }) ⟨rfl, List.Subset.refl _⟩ _

theorem State.dropUnnamed_catalogued (s : State) (named : List Nat) (k : TankId) : Catalogued s (s.dropUnnamed named k) := by
  unfold State.dropUnnamed
  split
  · exact .refl
  · split
    · exact .refl
    · split
      · exact (s.modTankNoticed_catalogued k _).notify _
      · exact s.removeTank_catalogued k

/-! ### One entry -/

/-- R83, R84: one entry of a directory, `seen` the numbers that earlier entries named. -/
def State.readEntry (s : State) (seen : List Nat) (e : DirEntry) : State :=
  match tankOf e.number with
  | some k => if e.inRange = true ∧ e.number ∉ seen then s.acceptEntry k e else s.rejectEntry (some k)
  | none => s.rejectEntry none

theorem State.readEntry_catalogued (s : State) (seen : List Nat) (e : DirEntry) : Catalogued s (s.readEntry seen e) := by
  unfold State.readEntry
  split
  · split
    · exact s.acceptEntry_catalogued _ e
    · exact s.rejectEntry_catalogued _
  · exact s.rejectEntry_catalogued _

/-- R83: the record of an entry rejected. -/
def Tank.rejected (r : Tank) : Tank := { r with pendingEntry := none, conflict := true }

/-- R84: the record of an entry accepted. -/
def Tank.accepted (e : DirEntry) (r : Tank) : Tank :=
  if e.agrees r = true then { r with pendingEntry := none, conflict := false }
  else if r.state = .listed then Tank.withEntry e r
  else { r with pendingEntry := some (.entry e), conflict := true }

/-- R83, R84: the record of the tank that an entry names, `fresh` when no earlier entry named it. -/
def entryJudged (e : DirEntry) (fresh : Prop) [Decidable fresh] (old : Option Tank) : Option Tank :=
  if e.inRange = true ∧ fresh then some (match old with | none => Tank.created e | some r => r.accepted e)
  else old.map Tank.rejected

theorem Tank.heldBack_iff (r : Tank) : r.heldBack = true ↔ r.state ≠ .listed := by
  unfold Tank.heldBack
  cases r.state <;> decide

theorem State.acceptEntry_tank (s : State) (k : TankId) (e : DirEntry) (j : TankId) : (s.acceptEntry k e).tank j =
    if j = k then some (match s.tank k with | none => Tank.created e | some r => r.accepted e) else s.tank j := by
  unfold State.acceptEntry
  cases record : s.tank k with
  | none =>
    have joined (t : State) : (t.joinPoll k).tank j = t.tank j := by
      unfold State.joinPoll
      split <;> simp
    simp only [joined]
    simp
  | some r =>
    have held := r.heldBack_iff
    by_cases agrees : e.agrees r = true
    · by_cases watched : r.heldBack = true
      · by_cases same : j = k <;> simp [Tank.accepted, agrees, record, same, watched]
      · by_cases same : j = k <;> simp [Tank.accepted, agrees, record, same, watched]
    · by_cases listed : r.state = .listed
      · have free : ¬ r.heldBack = true := fun h => held.mp h listed
        by_cases same : j = k <;> simp [Tank.accepted, agrees, record, same, listed, free]
      · by_cases same : j = k <;> simp [Tank.accepted, agrees, record, same, listed, held.mpr listed]

theorem State.rejectEntry_tank (s : State) (k j : TankId) :
    (s.rejectEntry (some k)).tank j = if j = k then (s.tank k).map Tank.rejected else s.tank j := by
  unfold State.rejectEntry
  simp only [State.notify_tank]
  rw [State.modTankNoticed_tank]
  rfl

theorem tankOf_eq_some {n : Nat} {k : TankId} : tankOf n = some k ↔ n = tankNumber k :=
  ⟨tankOf_some, fun h => by rw [h, tankOf_tankNumber]⟩

/-- R83, R84: an entry judges the record of the tank that it names. -/
theorem State.readEntry_tank (s : State) (seen : List Nat) (e : DirEntry) (k : TankId) : (s.readEntry seen e).tank k =
    if e.number = tankNumber k then entryJudged e (e.number ∉ seen) (s.tank k) else s.tank k := by
  simp only [← tankOf_eq_some]
  unfold State.readEntry entryJudged
  cases tankOf e.number with
  | none => simp [State.rejectEntry]
  | some j =>
    have named : (k = j) ↔ (some j = some k) := by rw [Option.some_inj, eq_comm]
    simp only [← named]
    split
    · rw [State.acceptEntry_tank]
      by_cases same : k = j
      · rw [if_pos same, if_pos same, same]
      · rw [if_neg same, if_neg same]
    · rw [State.rejectEntry_tank]
      by_cases same : k = j
      · rw [if_pos same, if_pos same, same]
      · rw [if_neg same, if_neg same]

end Sys2Proof.Machine
end

section
/-! SUPPORT. The entries of a directory in index order (R83, R84), and the poll queue that they leave (R138). -/

namespace Sys2Proof.Machine

/-! ### The queues -/

theorem State.readEntry_advices (s : State) (seen : List Nat) (e : DirEntry) :
    (s.readEntry seen e).link.advices = s.link.advices := by
  unfold State.readEntry
  split
  · split
    · unfold State.acceptEntry
      split
      · unfold State.joinPoll
        split <;> simp
      · split
        · split <;> simp
        · split <;> simp
    · simp [State.rejectEntry]
  · simp [State.rejectEntry]

theorem State.acceptEntry_poll (s : State) (k : TankId) (e : DirEntry) : (s.acceptEntry k e).link.poll =
    if s.tank k = none ∧ k ∉ s.link.poll then s.link.poll ++ [k] else s.link.poll := by
  unfold State.acceptEntry
  cases record : s.tank k with
  | none =>
    unfold State.joinPoll
    by_cases polled : k ∈ s.link.poll <;> simp [polled]
  | some r =>
    have same : ¬ (some r = none ∧ k ∉ s.link.poll) := fun h => by cases h.1
    simp only [if_neg same]
    split
    · split <;> simp
    · split <;> simp

/-- R138: an entry that creates a record brings its tank to the tail of the poll queue. -/
theorem State.readEntry_poll {s : State} {e : DirEntry} {k : TankId} (seen : List Nat) (named : tankOf e.number = some k) :
    (s.readEntry seen e).link.poll =
      if s.tank k = none ∧ (s.readEntry seen e).tank k ≠ none ∧ k ∉ s.link.poll then s.link.poll ++ [k] else s.link.poll := by
  unfold State.readEntry
  simp only [named]
  split
  · rw [State.acceptEntry_poll, State.acceptEntry_tank, if_pos rfl]
    simp
  · rw [State.rejectEntry_tank, if_pos rfl]
    have stays : ¬ (s.tank k = none ∧ (s.tank k).map Tank.rejected ≠ none ∧ k ∉ s.link.poll) := fun ⟨absent, made, _⟩ => by
      rw [absent] at made
      exact made rfl
    rw [if_neg stays]
    simp [State.rejectEntry]

theorem State.readEntry_poll_unnamed {s : State} {e : DirEntry} (seen : List Nat) (out : tankOf e.number = none) :
    (s.readEntry seen e).link.poll = s.link.poll := by
  unfold State.readEntry
  simp [out, State.rejectEntry]

/-! ### The entries in order -/

theorem State.applyEntries_append (s : State) (seen : List Nat) (es : List DirEntry) (e : DirEntry) :
    s.applyEntries seen (es ++ [e]) = (s.applyEntries seen es).readEntry ((es.map (·.number)).reverse ++ seen) e := by
  induction es generalizing s seen with
  | nil => rfl
  | cons f es ih =>
    have next := ih (s.readEntry seen f) (f.number :: seen)
    rw [List.map_cons, List.reverse_cons, List.append_assoc]
    exact next

/-- R83, R84: the record of tank `k` after the entries: the first entry that names the tank is judged, every later one rejected. -/
def EntriesJudged (es : List DirEntry) (k : TankId) (old new : Option Tank) : Prop :=
  match es.filter fun e => decide (e.number = tankNumber k) with
  | [] => new = old
  | e :: later => new = if later = [] then entryJudged e True old else (entryJudged e True old).map Tank.rejected

/-- R138: the tanks of the entries, in their order, that have no record in `s` and one in `t`. -/
def newTanks (es : List DirEntry) (s t : State) : List TankId :=
  ((es.filterMap fun e => tankOf e.number).eraseDups).filter fun k => (s.tank k).isNone && (t.tank k).isSome

/-- What the entries of a directory leave (R83, R84, R138). -/
structure EntriesRead (es : List DirEntry) (s u : State) : Prop where
  catalogued : Catalogued s u
  advices : u.link.advices = s.link.advices
  record : ∀ k, EntriesJudged es k (s.tank k) (u.tank k)
  polled : Polled s u
  queue : PollFollows s → u.link.poll = s.link.poll ++ newTanks es s u
  kept : s.link.poll ⊆ u.link.poll
  joined : ∀ k, s.tank k = none → u.tank k ≠ none → k ∈ u.link.poll

theorem mem_named {es : List DirEntry} {k : TankId} :
    k ∈ (es.filterMap fun e => tankOf e.number) ↔ tankNumber k ∈ es.map (·.number) := by
  simp only [List.mem_filterMap, List.mem_map, tankOf_eq_some]

theorem filter_named_eq_nil {es : List DirEntry} {k : TankId} :
    (es.filter fun e => decide (e.number = tankNumber k)) = [] ↔ tankNumber k ∉ es.map (·.number) := by
  simp [List.filter_eq_nil_iff]

theorem entryJudged_fresh {e : DirEntry} {fresh : Prop} [Decidable fresh] (h : fresh) (old : Option Tank) :
    entryJudged e fresh old = entryJudged e True old := by
  simp [entryJudged, h]

theorem entryJudged_later {e : DirEntry} {fresh : Prop} [Decidable fresh] (h : ¬ fresh) (old : Option Tank) :
    entryJudged e fresh old = old.map Tank.rejected := by
  simp [entryJudged, h]

theorem map_rejected_twice (o : Option Tank) : (o.map Tank.rejected).map Tank.rejected = o.map Tank.rejected := by
  cases o <;> rfl

theorem EntriesJudged.append {es : List DirEntry} {k : TankId} {old new : Option Tank} (h : EntriesJudged es k old new)
    (e : DirEntry) (seen : List Nat) (mem : e.number ∈ seen ↔ e.number ∈ es.map (·.number)) : EntriesJudged (es ++ [e]) k old
      (if e.number = tankNumber k then entryJudged e (e.number ∉ seen) new else new) := by
  unfold EntriesJudged at h ⊢
  rw [List.filter_append]
  by_cases named : e.number = tankNumber k
  · have last : ([e].filter fun e => decide (e.number = tankNumber k)) = [e] := by simp [named]
    rw [last, if_pos named]
    split at h
    · next none =>
      have fresh : e.number ∉ seen := by
        rw [mem, named]
        exact filter_named_eq_nil.mp none
      rw [none, entryJudged_fresh fresh, h]
      simp
    · next first later some =>
      have again : ¬ e.number ∉ seen := by
        rw [not_not, mem, named, ← not_not (a := tankNumber k ∈ _), ← filter_named_eq_nil, some]
        exact List.cons_ne_nil _ _
      rw [some, entryJudged_later again, h, List.cons_append]
      simp only [List.append_eq_nil_iff, List.cons_ne_nil, and_false, if_false]
      split
      · rfl
      · exact map_rejected_twice _
  · have last : ([e].filter fun e => decide (e.number = tankNumber k)) = [] := by simp [named]
    rw [last, if_neg named, List.append_nil]
    exact h

theorem State.readEntry_tank_other {s : State} {e : DirEntry} {seen : List Nat} {k : TankId} (h : tankOf e.number ≠ some k) :
    (s.readEntry seen e).tank k = s.tank k := by
  rw [State.readEntry_tank, if_neg (mt tankOf_eq_some.mpr h)]

theorem newTanks_congr {es : List DirEntry} {s u v : State}
    (h : ∀ k, tankNumber k ∈ es.map (·.number) → (v.tank k).isSome = (u.tank k).isSome) : newTanks es s v = newTanks es s u := by
  unfold newTanks
  refine List.filter_congr fun k hk => ?_
  rw [h k (mem_named.mp (List.mem_eraseDups.mp hk))]

/-! ### The tanks that one more entry creates -/

section More

variable {es : List DirEntry} {e : DirEntry} {s u v : State} {seen : List Nat} {j : TankId}

theorem newTanks_append_unnamed (out : tankOf e.number = none) : newTanks (es ++ [e]) s v = newTanks es s v := by
  simp [newTanks, out]

theorem newTanks_append_seen (named : tankOf e.number = some j) (before : tankNumber j ∈ es.map (·.number)) :
    newTanks (es ++ [e]) s v = newTanks es s v := by
  have last : [e].filterMap (fun e => tankOf e.number) = [j] := by simp [named]
  have drop : [j].removeAll (es.filterMap fun e => tankOf e.number) = [] :=
    List.filter_cons_of_neg (by simpa using mem_named.mpr before)
  rw [newTanks, List.filterMap_append, last, List.eraseDups_append, drop, List.eraseDups_nil, List.append_nil, newTanks]

theorem newTanks_append_new (named : tankOf e.number = some j) (first : tankNumber j ∉ es.map (·.number)) :
    newTanks (es ++ [e]) s v = newTanks es s v ++ if (s.tank j).isNone && (v.tank j).isSome then [j] else [] := by
  have last : [e].filterMap (fun e => tankOf e.number) = [j] := by simp [named]
  have alone : [j].removeAll (es.filterMap fun e => tankOf e.number) = [j] :=
    List.filter_cons_of_pos (by simpa using mt mem_named.mp first)
  have once : [j].eraseDups = [j] := by simp [List.eraseDups_cons]
  rw [newTanks, List.filterMap_append, last, List.eraseDups_append, alone, once, List.filter_append, newTanks,
    List.filter_singleton, Bool.cond_eq_ite]

theorem EntriesRead.record_unnamed (read : EntriesRead es s u) (first : tankNumber j ∉ es.map (·.number)) : u.tank j = s.tank j := by
  have judged := read.record j
  unfold EntriesJudged at judged
  rwa [filter_named_eq_nil.mpr first] at judged

/-- R138: an entry whose tank an earlier one named creates no record. -/
theorem EntriesRead.queue_seen (read : EntriesRead es s u) (named : tankOf e.number = some j)
    (before : tankNumber j ∈ es.map (·.number)) (later : e.number ∈ seen) (follows : PollFollows s) :
    (u.readEntry seen e).link.poll = s.link.poll ++ newTanks (es ++ [e]) s (u.readEntry seen e) := by
  have tank := u.readEntry_tank seen e j
  rw [if_pos (tankOf_eq_some.mp named), entryJudged_later (not_not.mpr later)] at tank
  have stays : ¬ (u.tank j = none ∧ (u.readEntry seen e).tank j ≠ none ∧ j ∉ u.link.poll) := fun ⟨absent, made, _⟩ => by
    rw [tank, absent] at made
    exact made rfl
  have known (k : TankId) : ((u.readEntry seen e).tank k).isSome = (u.tank k).isSome := by
    by_cases own : k = j
    · rw [own, tank, Option.isSome_map]
    · rw [State.readEntry_tank_other (by rw [named]; exact fun h => own (Option.some.inj h).symm)]
  rw [State.readEntry_poll seen named, if_neg stays, newTanks_append_seen named before, newTanks_congr fun k _ => known k,
    read.queue follows]

/-- R138: the first entry that names a tank creates its record at most. -/
theorem EntriesRead.queue_new (read : EntriesRead es s u) (named : tankOf e.number = some j)
    (first : tankNumber j ∉ es.map (·.number)) (follows : PollFollows s) :
    (u.readEntry seen e).link.poll = s.link.poll ++ newTanks (es ++ [e]) s (u.readEntry seen e) := by
  have before : newTanks es s (u.readEntry seen e) = newTanks es s u := newTanks_congr fun k hk => by
    rw [State.readEntry_tank_other]
    rw [named]
    exact fun h => first (Option.some.inj h ▸ hk)
  have polled : j ∈ u.link.poll ↔ s.tank j ≠ none := by
    rw [read.polled follows j, read.record_unnamed first]
  rw [State.readEntry_poll seen named, newTanks_append_new named first, before, ← List.append_assoc, ← read.queue follows,
    read.record_unnamed first]
  simp only [polled]
  cases s.tank j with
  | some r => simp
  | none => cases (u.readEntry seen e).tank j <;> simp

/-- R138: the tanks that one more entry creates join the tail of the poll queue. -/
theorem EntriesRead.queue_append (read : EntriesRead es s u) (mem : e.number ∈ seen ↔ e.number ∈ es.map (·.number))
    (follows : PollFollows s) :
    (u.readEntry seen e).link.poll = s.link.poll ++ newTanks (es ++ [e]) s (u.readEntry seen e) := by
  cases named : tankOf e.number with
  | none =>
    have same : newTanks es s (u.readEntry seen e) = newTanks es s u := newTanks_congr fun k _ => by
      rw [State.readEntry_tank_other (by rw [named]; exact nofun)]
    rw [State.readEntry_poll_unnamed seen named, newTanks_append_unnamed named, same, read.queue follows]
  | some j =>
    have number := tankOf_eq_some.mp named
    by_cases before : tankNumber j ∈ es.map (·.number)
    · exact read.queue_seen named before (mem.mpr (number ▸ before)) follows
    · exact read.queue_new named before follows

end More

/-- R83, R84: the entries of a directory, read in index order. -/
theorem State.applyEntries_read (s : State) (es : List DirEntry) : EntriesRead es s (s.applyEntries [] es) := by
  induction es using List.reverseRecOn with
  | nil =>
    refine ⟨.refl, rfl, fun k => rfl, .refl, fun _ => ?_, List.Subset.refl _, fun k absent made => absurd absent made⟩
    simp [newTanks, State.applyEntries]
  | append_singleton es e read =>
    have polled := s.applyEntries_polled [] (es ++ [e])
    have mem : e.number ∈ (es.map (·.number)).reverse ++ [] ↔ e.number ∈ es.map (·.number) := by simp
    rw [State.applyEntries_append] at polled ⊢
    generalize (es.map (·.number)).reverse ++ [] = seen at *
    generalize s.applyEntries [] es = u at *
    have kept : u.link.poll ⊆ (u.readEntry seen e).link.poll := by
      cases named : tankOf e.number with
      | none => rw [State.readEntry_poll_unnamed seen named]; exact List.Subset.refl _
      | some j =>
        rw [State.readEntry_poll seen named]
        split
        · exact List.subset_append_left _ _
        · exact List.Subset.refl _
    refine ⟨read.catalogued.trans (u.readEntry_catalogued seen e), (u.readEntry_advices seen e).trans read.advices, fun k => ?_,
      polled, read.queue_append mem, List.Subset.trans read.kept kept, fun k absent made => ?_⟩
    · rw [State.readEntry_tank]
      exact (read.record k).append e seen mem
    · by_cases here : u.tank k = none
      · have named : tankOf e.number = some k := by
          by_contra other
          rw [State.readEntry_tank_other other] at made
          exact made here
        rw [State.readEntry_poll seen named]
        by_cases before : k ∈ u.link.poll
        · rw [if_neg fun h => h.2.2 before]
          exact before
        · rw [if_pos ⟨here, made, before⟩]
          exact List.mem_append_right _ (List.mem_singleton.mpr rfl)
      · exact kept (read.joined k absent here)

end Sys2Proof.Machine
end

section
/-! SUPPORT. A complete directory applied (R83 to R85): the records, the poll queue and the advices that it leaves. -/

namespace Sys2Proof.Machine

/-! ### The records that no entry named (R85) -/

/-- R85: the record of tank `k` when the directory has named the numbers `named`. -/
def recordDropped (named : List Nat) (k : TankId) (old : Option Tank) : Option Tank :=
  if tankNumber k ∈ named then old
  else old.bind fun r => if r.state = .listed then none else some { r with pendingEntry := some .vanished, conflict := true }

theorem State.dropUnnamed_tank (s : State) (named : List Nat) (k j : TankId) : (s.dropUnnamed named k).tank j =
    if j = k then recordDropped named k (s.tank k) else s.tank j := by
  unfold State.dropUnnamed recordDropped
  cases record : s.tank k with
  | none =>
    by_cases same : j = k
    · simp [same, record]
    · simp [same]
  | some r =>
    have held := r.heldBack_iff
    by_cases known : tankNumber k ∈ named
    · by_cases same : j = k <;> simp [known, same, record]
    · by_cases listed : r.state = .listed
      · have free : ¬ r.heldBack = true := fun h => held.mp h listed
        by_cases same : j = k <;> simp [known, same, listed, free, State.removeTank, State.forgetTank]
      · by_cases same : j = k <;> simp [known, same, record, listed, held.mpr listed]

/-- From `s` to `t` records have gone at most, with their places in the poll queue and their advices. -/
structure Dropped (s t : State) : Prop where
  gone : ∀ k, s.tank k = none → t.tank k = none
  poll : t.link.poll = s.link.poll.filter fun k => (t.tank k).isSome || (s.tank k).isNone
  advices : t.link.advices = s.link.advices.filter fun a => (t.tank a.1).isSome || (s.tank a.1).isNone

theorem Dropped.of_known {s t : State} (known : ∀ k, (t.tank k).isSome = (s.tank k).isSome) (poll : t.link.poll = s.link.poll)
    (advices : t.link.advices = s.link.advices) : Dropped s t := by
  have every (k : TankId) : ((t.tank k).isSome || (s.tank k).isNone) = true := by
    rw [known]
    cases s.tank k <;> rfl
  refine ⟨fun k absent => ?_, ?_, ?_⟩
  · have none := known k
    rw [absent] at none
    exact Option.not_isSome_iff_eq_none.mp (by rw [none]; decide)
  · rw [poll, List.filter_eq_self.mpr fun k _ => every k]
  · rw [advices, List.filter_eq_self.mpr fun a _ => every a.1]

theorem Dropped.trans {s t u : State} (h : Dropped s t) (g : Dropped t u) : Dropped s u := by
  have both (k : TankId) : (((u.tank k).isSome || (t.tank k).isNone) && ((t.tank k).isSome || (s.tank k).isNone)) =
      ((u.tank k).isSome || (s.tank k).isNone) := by
    cases before : s.tank k with
    | none => simp [h.gone k before]
    | some r =>
      cases between : t.tank k with
      | none => simp [g.gone k between]
      | some x => simp
  refine ⟨fun k absent => g.gone k (h.gone k absent), ?_, ?_⟩
  · rw [g.poll, h.poll, List.filter_filter]
    exact List.filter_congr fun k _ => both k
  · rw [g.advices, h.advices, List.filter_filter]
    exact List.filter_congr fun a _ => both a.1

theorem State.dropUnnamed_dropped (s : State) (named : List Nat) (k : TankId) : Dropped s (s.dropUnnamed named k) := by
  have refl : Dropped s s := .of_known (fun _ => rfl) rfl rfl
  unfold State.dropUnnamed
  split
  · exact refl
  · next r record =>
    split
    · exact refl
    · split
      · refine .of_known (fun j => ?_) (by simp) (by simp)
        simp only [State.notify_tank, State.modTankNoticed_tank]
        split
        · next same => rw [← same, Option.isSome_map]
        · rfl
      · have tank (j : TankId) : (s.removeTank k).tank j = if j = k then none else s.tank j := by
          simp [State.removeTank, State.forgetTank]
        have kept (j : TankId) : (((s.removeTank k).tank j).isSome || (s.tank j).isNone) = !decide (j = k) := by
          rw [tank]
          by_cases same : j = k
          · rw [if_pos same, same, record]
            simp
          · rw [if_neg same]
            cases s.tank j <;> simp [same]
        refine ⟨fun j absent => by rw [tank]; split <;> [rfl; exact absent], ?_, ?_⟩
        · rw [List.filter_congr fun j _ => kept j]
          simp [State.removeTank, State.forgetTank, setErase]
        · rw [List.filter_congr fun a _ => kept a.1]
          simp [State.removeTank, State.forgetTank]

theorem State.foldl_dropUnnamed_tank (named : List Nat) (ks : List TankId) (s : State) (distinct : ks.Nodup) (j : TankId) :
    (ks.foldl (fun s k => s.dropUnnamed named k) s).tank j =
      if j ∈ ks then recordDropped named j (s.tank j) else s.tank j := by
  induction ks generalizing s with
  | nil => rfl
  | cons k ks ih =>
    obtain ⟨out, rest⟩ := List.nodup_cons.mp distinct
    rw [List.foldl_cons, ih _ rest, State.dropUnnamed_tank]
    by_cases same : j = k
    · subst same
      simp [out]
    · simp [same]

/-! ### The directory whole -/

/-- R83: the ranges of an entry that names a tank. -/
theorem DirEntry.inRange_iff {e : DirEntry} {k : TankId} (named : e.number = tankNumber k) : e.inRange = true ↔
    (1 ≤ e.grade ∧ e.grade ≤ 4) ∧ (1000 ≤ e.cap ∧ e.cap ≤ 4000000) ∧ (900 ≤ e.hh ∧ e.hh ≤ 995)
      ∧ ((e.name.getD "").toList.all fun c => 32 ≤ c.toNat && c.toNat ≤ 126) = true := by
  have low : 1 ≤ e.number := by rw [named, tankNumber]; omega
  have high : e.number ≤ 16 := by rw [named, tankNumber]; omega
  have name : (match e.name with | some n => n.toList.all printable | none => true) =
      (e.name.getD "").toList.all fun c => 32 ≤ c.toNat && c.toNat ≤ 126 := by
    cases e.name <;> rfl
  rw [← name]
  unfold DirEntry.inRange
  simp only [Bool.and_eq_true, decide_eq_true_eq, low, high, true_and]
  tauto

theorem Tank.accepted_eq (e : DirEntry) (r : Tank) : r.accepted e =
    if e.grade = r.grade ∧ e.cap = r.cap ∧ e.hh = r.hh ∧ e.name = r.name then { r with pendingEntry := none, conflict := false }
    else if r.state = .listed then
      { r with
        grade := e.grade, cap := e.cap, hh := e.hh, name := e.name
        fl := if e.hh = r.hh then r.fl else max 500 (min (min 980 (e.hh - 20)) r.fl)
        vRep := r.vRep.map fun v => min v e.cap
        pendingEntry := none, conflict := false }
    else { r with pendingEntry := some (.entry e), conflict := true } := by
  have agrees : (e.agrees r = true) ↔ (e.grade = r.grade ∧ e.cap = r.cap ∧ e.hh = r.hh ∧ e.name = r.name) := by
    simp [DirEntry.agrees, and_assoc]
  unfold Tank.accepted
  simp only [agrees]
  rfl

/-- R83, R84: the first entry that names a tank. -/
theorem entryJudged_eq {e : DirEntry} {k : TankId} (named : e.number = tankNumber k) (old : Option Tank) :
    entryJudged e True old =
      if (1 ≤ e.grade ∧ e.grade ≤ 4) ∧ (1000 ≤ e.cap ∧ e.cap ≤ 4000000) ∧ (900 ≤ e.hh ∧ e.hh ≤ 995)
          ∧ ((e.name.getD "").toList.all fun c => 32 ≤ c.toNat && c.toNat ≤ 126) = true then
        (match old with | none => some (Tank.created e) | some r => some (r.accepted e))
      else old.map Tank.rejected := by
  unfold entryJudged
  simp only [and_true, DirEntry.inRange_iff named]
  cases old <;> rfl

/-- R83 to R85: the entries and then the records that none named. -/
theorem EntriesJudged.applied {es : List DirEntry} {k : TankId} {old mid : Option Tank} (h : EntriesJudged es k old mid) :
    DirectoryApplied es k old (recordDropped (es.map (·.number)) k mid) := by
  unfold EntriesJudged at h
  unfold DirectoryApplied
  cases list : es.filter fun e => decide (e.number = tankNumber k) with
  | nil =>
    rw [list] at h
    rw [h]
    exact if_neg (filter_named_eq_nil.mp list)
  | cons e later =>
    rw [list] at h
    have first : e ∈ es.filter fun e => decide (e.number = tankNumber k) := by rw [list]; exact List.mem_cons_self
    obtain ⟨member, named⟩ := List.mem_filter.mp first
    have named := of_decide_eq_true named
    have known : tankNumber k ∈ es.map (·.number) := List.mem_map.mpr ⟨e, member, named⟩
    rw [recordDropped, if_pos known, h, entryJudged_eq named]
    simp only [Tank.accepted_eq]
    rfl

/-- R83, R84: an entry removes no record. -/
theorem EntriesJudged.known {es : List DirEntry} {k : TankId} {old new : Option Tank} (h : EntriesJudged es k old new)
    (known : old ≠ none) : new ≠ none := by
  obtain ⟨r, rfl⟩ := Option.ne_none_iff_exists'.mp known
  have judged (e : DirEntry) : entryJudged e True (some r) ≠ none := by
    unfold entryJudged
    split <;> exact Option.some_ne_none _
  unfold EntriesJudged at h
  split at h
  · rw [h]
    exact known
  · rw [h]
    split
    · exact judged _
    · rw [ne_eq, Option.map_eq_none_iff]
      exact judged _

/-- The state of a record, none for an ABSENT or a LISTED tank: what R138 and R139 read of it. -/
def offListed (o : Option Tank) : Option TankState := (o.map (·.state)).filter fun st => !decide (st = .listed)

theorem Tank.accepted_state (e : DirEntry) (r : Tank) : (r.accepted e).state = r.state := by
  rw [Tank.accepted_eq]
  split
  · rfl
  · split <;> rfl

theorem entryJudged_offListed (e : DirEntry) (old : Option Tank) : offListed (entryJudged e True old) = offListed old := by
  unfold entryJudged
  split
  · cases old with
    | none => rfl
    | some r => simp [offListed, Tank.accepted_state]
  · cases old <;> rfl

/-- R83, R84: an entry takes no tank into a watched state or out of one. -/
theorem EntriesJudged.offListed {es : List DirEntry} {k : TankId} {old new : Option Tank} (h : EntriesJudged es k old new) :
    offListed new = offListed old := by
  unfold EntriesJudged at h
  split at h
  · rw [h]
  · next e _ _ =>
    rw [h, ← entryJudged_offListed e old]
    split
    · rfl
    · cases entryJudged e True old <;> rfl

theorem recordDropped_offListed (named : List Nat) (k : TankId) (old : Option Tank) :
    offListed (recordDropped named k old) = offListed old := by
  unfold recordDropped
  split
  · rfl
  · cases old with
    | none => rfl
    | some r =>
      by_cases listed : r.state = .listed
      · simp [offListed, listed, Option.filter]
      · simp [offListed, listed]

/-- What a directory leaves (R83 to R85, R138). -/
structure DirectoryRead (es : List DirEntry) (s t : State) : Prop where
  kind : ∀ k, offListed (t.tank k) = offListed (s.tank k)
  record : ∀ k, DirectoryApplied es k (s.tank k) (t.tank k)
  joined : ∀ k, s.tank k = none → t.tank k ≠ none → k ∈ t.link.poll
  left : ∀ k, s.tank k ≠ none → t.tank k = none → k ∉ t.link.poll
  poll : PollFollows s → t.link.poll = (s.link.poll ++ newTanks es s t).filter fun k => (t.tank k).isSome
  advices : t.link.advices = s.link.advices.filter fun a => (t.tank a.1).isSome || (s.tank a.1).isNone

/-- R85: the records that no entry named, after the entries. -/
theorem EntriesRead.directory {es : List DirEntry} {s u t : State} (read : EntriesRead es s u) (dropped : Dropped u t)
    (tank : ∀ k, t.tank k = recordDropped (es.map (·.number)) k (u.tank k)) :
    DirectoryRead es s t := by
  obtain ⟨-, advices, record, polled, queue, kept, joined⟩ := read
  have still (k : TankId) (named : tankNumber k ∈ es.map (·.number)) : t.tank k = u.tank k := by
    rw [tank, recordDropped, if_pos named]
  have unnamed (k : TankId) (out : tankNumber k ∉ es.map (·.number)) : u.tank k = s.tank k := by
    have judged := record k
    unfold EntriesJudged at judged
    rwa [filter_named_eq_nil.mpr out] at judged
  have born (k : TankId) (absent : s.tank k = none) : t.tank k = u.tank k := by
    by_cases named : tankNumber k ∈ es.map (·.number)
    · exact still k named
    · rw [dropped.gone k ((unnamed k named).trans absent), unnamed k named, absent]
  have same (k : TankId) : ((t.tank k).isSome || (u.tank k).isNone) = ((t.tank k).isSome || (s.tank k).isNone) := by
    cases before : s.tank k with
    | none =>
      rw [born k before]
      cases u.tank k <;> rfl
    | some r =>
      obtain ⟨x, hx⟩ := Option.ne_none_iff_exists'.mp ((record k).known (by rw [before]; exact Option.some_ne_none r))
      rw [hx]
      rfl
  refine ⟨fun k => ?_, fun k => ?_, fun k absent made => ?_, fun k known gone => ?_, fun f => ?_, ?_⟩
  · rw [tank, recordDropped_offListed]
    exact (record k).offListed
  · rw [tank]
    exact (record k).applied
  · rw [born k absent] at made
    rw [dropped.poll, List.mem_filter, born k absent]
    refine ⟨joined k absent made, ?_⟩
    rw [Option.isSome_iff_ne_none.mpr made]
    rfl
  · obtain ⟨r, hr⟩ := Option.ne_none_iff_exists'.mp known
    rw [dropped.poll, List.mem_filter, same, gone, hr]
    exact fun h => absurd h.2 (by simp)
  · rw [dropped.poll, newTanks_congr (u := u) fun k named => by rw [still k named], ← queue f]
    refine List.filter_congr fun k hk => ?_
    rw [Option.isNone_eq_false_iff.mpr (Option.isSome_iff_ne_none.mpr ((polled f k).mp hk)), Bool.or_false]
  · rw [dropped.advices, advices]
    exact List.filter_congr fun a _ => same a.1

/-- R85: the records of the tanks `ks`, which are all, in their order. -/
theorem EntriesRead.foldl_dropUnnamed {es : List DirEntry} {s u : State} (read : EntriesRead es s u) {ks : List TankId}
    (every : ∀ k, k ∈ ks) (distinct : ks.Nodup) :
    DirectoryRead es s (ks.foldl (fun t k => t.dropUnnamed (es.map (·.number)) k) u) := by
  have dropped (ks : List TankId) (u : State) : Dropped u (ks.foldl (fun t k => t.dropUnnamed (es.map (·.number)) k) u) := by
    induction ks generalizing u with
    | nil => exact .of_known (fun _ => rfl) rfl rfl
    | cons k ks ih => exact (u.dropUnnamed_dropped _ k).trans (ih _)
  refine read.directory (dropped ks u) fun k => ?_
  rw [State.foldl_dropUnnamed_tank _ _ _ distinct, if_pos (every k)]

/-- R83 to R85: a complete directory, applied whole. -/
theorem State.applyDirectory_read (s : State) (es : List DirEntry) : DirectoryRead es s (s.applyDirectory es) := by
  have follows : Polled s (s.modLink fun k => { k with rejected := 0 }) := s.modLink_polled fun _ => rfl
  have read := ((s.modLink fun k => { k with rejected := 0 }).applyEntries_read es).foldl_dropUnnamed (ks := allTanks)
    (by decide) (by decide)
  unfold State.applyDirectory
  generalize List.foldl _ _ allTanks = t at read ⊢
  exact ⟨read.kind, read.record, read.joined, read.left, fun f => read.poll (follows f), read.advices⟩

theorem State.applyDirectory_catalogued (s : State) (es : List DirEntry) : Catalogued s (s.applyDirectory es) := by
  have cleared : Catalogued s (s.modLink fun k => { k with rejected := 0 }) := ⟨rfl, List.Subset.refl _⟩
  have entries := (s.modLink fun k => { k with rejected := 0 }).applyEntries_read es
  exact (cleared.trans entries.catalogued).trans (Catalogued.foldl (fun t k => t.dropUnnamed_catalogued _ k) _ _)

end Sys2Proof.Machine
end

section
/-! SUPPORT. The content of a good telegram of an acquisition or a refresh (R131 to R133), and the end of its exchange. -/

namespace Sys2Proof.Machine

/-! ### Content that leaves the lines as STOP left them -/

/-- From `a` to `p` the content of a good telegram has been taken: the tank table, the progress and the queues of the link, and the
return of the link at most. -/
structure ContentTaken (a p : State) : Prop where
  whole : p = { a with tanks := p.tanks, seqs := p.seqs, link := p.link, alarms := p.alarms, horn := p.horn
                       notices := p.notices, linkResult := p.linkResult }
  lines : LinesKept a p
  link : p.link = { a.link with
    state := p.link.state, window := p.link.window, failRun := p.link.failRun, succRun := p.link.succRun, rev := p.link.rev
    acq := p.link.acq, refresh := p.link.refresh, lastAcq := p.link.lastAcq, advices := p.link.advices, poll := p.link.poll
    rejected := p.link.rejected }
  state : p.link.state = a.link.state ∨ a.link.state = .acquiring ∧ p.link.state = .good
  kind : ∀ k, offListed (p.tank k) = offListed (a.tank k)

/-- A write of the link's progress. -/
theorem ContentTaken.of_progress (a : State) (refresh : Option Refresh) (acq : Option Acquisition) :
    ContentTaken a { a with link := { a.link with refresh := refresh, acq := acq } } :=
  ⟨rfl, .of_same rfl rfl rfl rfl rfl (List.Subset.refl _), rfl, .inl rfl, fun _ => rfl⟩

theorem offListed_watched {s t : State} (h : ∀ k, offListed (t.tank k) = offListed (s.tank k)) :
    watchedTank t = watchedTank s ∧ nearStopTank t = nearStopTank s := by
  have other {st : TankState} (out : st ≠ .listed) (u : State) (k : TankId) :
      u.tankState k = some st ↔ offListed (u.tank k) = some st := by
    unfold State.tankState offListed
    rw [Option.filter_eq_some_iff]
    simp [out]
  have same {st : TankState} (out : st ≠ .listed) (k : TankId) : t.tankState k = some st ↔ s.tankState k = some st := by
    rw [other out, other out, h]
  constructor <;> funext k
  · unfold watchedTank
    refine decide_eq_decide.mpr (exists_congr fun st => and_congr_right fun watched => same ?_ k)
    rintro rfl
    exact absurd watched (by decide)
  · exact decide_eq_decide.mpr (or_congr (same (by decide) k) (same (by decide) k))

/-! ### The end of the exchange -/

theorem State.stopTold_distinct (s : State) (refresh stop : Bool) (d : AlarmsDistinct s) : AlarmsDistinct (s.stopTold refresh stop) :=
  ((s.closeExchange_free refresh false (c := .all) (fun _ => trivial) trivial).trans
    (State.takeStop_free _ stop (fun _ => trivial) trivial)).distinct d

theorem State.chooseNext_kept (p : State) : LinesKept p p.chooseNext := by
  have whole := p.chooseNext_eq
  generalize p.chooseNext = t at *
  refine .of_same ?_ ?_ ?_ ?_ ?_ ?_
  all_goals rw [whole]
  exact List.Subset.refl _

section End

variable {refresh stop : Bool} {s a p : State}

/-- R124, R126, R134: what stands once the content has been taken and the next exchange chosen. -/
theorem GoodEnd.kept (ended : GoodEnd refresh stop s a) (distinct : AlarmsDistinct s → AlarmsDistinct a) (taken : ContentTaken a p) :
    let t := p.chooseNext
    t.link.stop = some stop ∧ StopTaken stop s t ∧ t.link.spacing = (if refresh = true then 0 else min 15 (s.link.spacing + 1))
      ∧ t.lineups = s.lineups ∧ t.port = s.port ∧ KeepsBase s t ∧ KeepsTrips s t := by
  have lines := p.chooseNext_kept
  have chosen := p.chooseNext_eq
  have before : p.esd = a.esd := by rw [taken.whole]
  have esd : a.esd = s.esd := by rw [ended.whole]
  simp only []
  generalize p.chooseNext = t at *
  have stops := ended.stopTaken.later (taken.lines.trans lines before) esd distinct
  have link : t.link.stop = a.link.stop ∧ t.link.spacing = a.link.spacing := by
    rw [chosen]
    simp only []
    rw [taken.link]
    exact ⟨rfl, rfl⟩
  refine ⟨by rw [link.1, ended.link], stops, by rw [link.2, ended.link], ?_⟩
  rw [chosen, taken.whole, ended.whole]
  exact ⟨rfl, rfl, ⟨rfl, rfl, rfl, rfl, rfl, rfl⟩, rfl, rfl, rfl⟩

theorem GoodEnd.idle (ended : GoodEnd refresh stop s a) (taken : ContentTaken a p) : p.link.exchange = none := by
  rw [taken.link, ended.link]

/-- R124, R131, R135: the exchange that follows. -/
theorem GoodEnd.nextFrom (ended : GoodEnd refresh stop s a) (taken : ContentTaken a p) :
    NextFrom p.link.advices p.link.poll s p.chooseNext := by
  have tanks : a.tanks = s.tanks := by rw [ended.whole]
  have kind (k : TankId) : offListed (p.tank k) = offListed (s.tank k) := by
    rw [taken.kind, State.tank, State.tank, tanks]
  obtain ⟨watched, near⟩ := offListed_watched kind
  refine State.chooseNext_nextFrom (ended.idle taken) watched near ?_ ?_ ?_
  · rw [taken.whole, ended.whole]
  · rw [taken.link, ended.link]
  · have queries : p.link.queries = a.link.queries := by rw [taken.link]
    rw [queries, ended.queries]
    rcases taken.state with same | ⟨acquiring, good⟩
    · rw [same]
    · rw [acquiring, good]
      rfl

/-- R128: the judgement stands while the content leaves what was judged, and the lines. -/
theorem GoodEnd.judged_later (ended : GoodEnd refresh stop s a) (taken : ContentTaken a p) (state : p.link.state = a.link.state)
    (window : p.link.window = a.link.window) (failRun : p.link.failRun = a.link.failRun) (succRun : p.link.succRun = a.link.succRun)
    (seqs : p.seqs = a.seqs) (alarms : p.alarms = a.alarms) : OutcomeJudged false s p.chooseNext := by
  have chosen := p.chooseNext_eq
  have none := fun empty : p.link.queries = [] => State.chooseNext_queries empty
  have link := taken.link
  generalize p.chooseNext = t at *
  have seq (l : LineId) : t.seq l = a.seq l := by
    rw [chosen]
    exact congrArg (vget · l) seqs
  have sameAlarms : t.alarms = a.alarms := by rw [chosen, alarms]
  refine ended.judged.later (by rw [chosen]; exact state) (by rw [chosen]; exact window) (by rw [chosen]; exact failRun)
    (by rw [chosen]; exact succRun) ?_ (fun empty => none ?_) (AlarmPresent.congr sameAlarms _ _).mpr (fun l off => ?_) fun l => ?_
  · rw [chosen]
    simp only []
    rw [link]
  · rw [link]
    exact empty
  · rw [seq]
    exact off
  · rw [seq]

end End

end Sys2Proof.Machine
end

section
/-! SUPPORT. The directory at the end of an acquisition (R132) and of a refresh (R133), and the exchange chosen after it. -/

namespace Sys2Proof.Machine

/-- A directory applied, told from an earlier state with the same tanks, advices and poll queue. -/
theorem DirectoryRead.since {es : List DirEntry} {s u t : State} (h : DirectoryRead es u t) (tank : ∀ k, u.tank k = s.tank k)
    (poll : u.link.poll = s.link.poll) (advices : u.link.advices = s.link.advices) : DirectoryRead es s t := by
  have new : newTanks es u t = newTanks es s t := by
    unfold newTanks
    simp only [tank]
  obtain ⟨kind, record, joined, left, queue, told⟩ := h
  simp only [tank, poll, advices, new] at kind record joined left queue told
  refine ⟨kind, record, joined, left, fun follows => queue fun k => ?_, told⟩
  rw [poll, tank]
  exact follows k

/-- A directory applied, told of a later state with the same tanks, advices and poll queue. -/
theorem DirectoryRead.until {es : List DirEntry} {s u t : State} (h : DirectoryRead es s u) (tank : ∀ k, t.tank k = u.tank k)
    (poll : t.link.poll = u.link.poll) (advices : t.link.advices = u.link.advices) : DirectoryRead es s t := by
  have new : newTanks es s t = newTanks es s u := by
    unfold newTanks
    simp only [tank]
  obtain ⟨kind, record, joined, left, queue, told⟩ := h
  simp only [← tank, ← poll, ← advices, ← new] at kind record joined left queue told
  exact ⟨kind, record, joined, left, queue, told⟩

/-! ### The directory of a refresh (R133) -/

section Refreshed

variable (a : State) (h : Header) (es : List DirEntry)

theorem State.refreshed_catalogued : Catalogued
    (a.modLinkNoticed fun k => { k with rev := some h.revision, refresh := none }) (a.refreshed h es) :=
  State.applyDirectory_catalogued _ es

theorem State.modLinkNoticed_subset (f : Link → Link) : a.notices ⊆ (a.modLinkNoticed f).notices := by
  unfold State.modLinkNoticed
  simp only []
  split
  · exact List.Subset.refl _
  · exact fun n hn => State.notify_subset _ _ hn

theorem State.refreshed_eq : a.refreshed h es = { a with
    tanks := (a.refreshed h es).tanks, notices := (a.refreshed h es).notices
    link := { a.link with
      rev := some h.revision, refresh := none, advices := (a.refreshed h es).link.advices
      poll := (a.refreshed h es).link.poll, rejected := (a.refreshed h es).link.rejected } } := by
  have whole := (a.refreshed_catalogued h es).whole
  generalize a.refreshed h es = p at *
  rw [whole]
  apply State.eq_of_fields <;> simp

theorem State.refreshed_read : DirectoryRead es a (a.refreshed h es) :=
  (State.applyDirectory_read (a.modLinkNoticed fun k => { k with rev := some h.revision, refresh := none }) es).since
    (fun k => by simp) (by simp) (by simp)

theorem State.refreshed_taken : ContentTaken a (a.refreshed h es) := by
  have notices := List.Subset.trans (a.modLinkNoticed_subset fun k => { k with rev := some h.revision, refresh := none })
    (a.refreshed_catalogued h es).notices
  have kind := (a.refreshed_read h es).kind
  have whole := a.refreshed_eq h es
  generalize a.refreshed h es = p at *
  refine ⟨by rw [whole], .of_same ?_ ?_ ?_ ?_ ?_ notices, by rw [whole], .inl (by rw [whole]), kind⟩
  all_goals rw [whole]

end Refreshed

/-! ### The directory of an acquisition (R132) -/

section Acquired

variable (a : State) (h : Header) (es : List DirEntry)

/-- R132: the state in which the directory of an acquisition is applied. -/
def State.passed : State :=
  ((a.notify .doneLinkstart).modLinkNoticed fun k => { k with rev := some h.revision, acq := none }).setAcqResult
    (.pass h.count h.revision)

/-- R132: the state in which the link is GOOD, before the lines are told. -/
def State.listed : State :=
  ((a.passed h).applyDirectory es).modLinkNoticed fun k => { k with state := .good, window := [], failRun := 0, succRun := 0 }

theorem State.acquired_linkBack : a.acquired h es = (a.listed h es).linkBack := rfl

theorem State.passed_eq : a.passed h = { a with
    link := { a.link with rev := some h.revision, acq := none, lastAcq := some (.pass h.count h.revision) }
    notices := (a.passed h).notices, linkResult := (a.passed h).linkResult } := by
  unfold State.passed State.setAcqResult
  apply State.eq_of_fields <;> simp

theorem State.passed_subset : a.notices ⊆ (a.passed h).notices := by
  have first := List.Subset.trans (a.notify_subset .doneLinkstart)
    ((a.notify .doneLinkstart).modLinkNoticed_subset fun k => { k with rev := some h.revision, acq := none })
  exact fun n hn => State.notify_subset (State.modLink _ _) .link (first hn)

theorem State.listed_eq : a.listed h es = { a with
    tanks := (a.listed h es).tanks, notices := (a.listed h es).notices, linkResult := (a.listed h es).linkResult
    link := { a.link with
      rev := some h.revision, acq := none, lastAcq := some (.pass h.count h.revision)
      state := .good, window := [], failRun := 0, succRun := 0, advices := (a.listed h es).link.advices
      poll := (a.listed h es).link.poll, rejected := (a.listed h es).link.rejected } } := by
  have applied := ((a.passed h).applyDirectory_catalogued es).whole
  have passed := a.passed_eq h
  unfold State.listed
  generalize (a.passed h).applyDirectory es = u at *
  generalize a.passed h = v at *
  rw [applied, passed]
  apply State.eq_of_fields <;> simp

theorem State.listed_subset : a.notices ⊆ (a.listed h es).notices :=
  List.Subset.trans (List.Subset.trans (a.passed_subset h) ((a.passed h).applyDirectory_catalogued es).notices)
    (State.modLinkNoticed_subset _ _)

theorem State.listed_read : DirectoryRead es a (a.listed h es) := by
  have passed := a.passed_eq h
  refine (((a.passed h).applyDirectory_read es).since (s := a) (fun k => ?_) ?_ ?_).until (fun k => ?_) ?_ ?_
  · rw [passed]; rfl
  · rw [passed]
  · rw [passed]
  all_goals simp [State.listed]

theorem State.acquired_taken (acquiring : a.link.state = .acquiring) : ContentTaken a (a.acquired h es) := by
  have notices := a.listed_subset h es
  have kind := (a.listed_read h es).kind
  have whole := a.listed_eq h es
  have back := (a.listed h es).linkBack_eq
  have kept := (a.listed h es).linkBack_kept
  rw [State.acquired_linkBack]
  generalize (a.listed h es).linkBack = p at *
  generalize a.listed h es = u at *
  have lines : LinesKept a u := .of_same (by rw [whole]) (by rw [whole]) (by rw [whole]) (by rw [whole]) (by rw [whole]) notices
  have tank (k : TankId) : p.tank k = u.tank k := by rw [back]; rfl
  have link : p.link = u.link := by rw [back]
  refine ⟨by rw [back, whole], lines.trans kept (by rw [whole]), by rw [link, whole], .inr ⟨acquiring, by rw [link, whole]⟩,
    fun k => ?_⟩
  rw [tank]
  exact kind k

theorem State.acquired_link : (a.acquired h es).link = { a.link with
    rev := some h.revision, acq := none, lastAcq := some (.pass h.count h.revision)
    state := .good, window := [], failRun := 0, succRun := 0, advices := (a.acquired h es).link.advices
    poll := (a.acquired h es).link.poll, rejected := (a.acquired h es).link.rejected } := by
  have whole := a.listed_eq h es
  have back := (a.listed h es).linkBack_eq
  rw [State.acquired_linkBack]
  generalize (a.listed h es).linkBack = p at *
  generalize a.listed h es = u at *
  rw [back, whole]

theorem State.acquired_read : DirectoryRead es a (a.acquired h es) := by
  have back := (a.listed h es).linkBack_eq
  have read := a.listed_read h es
  rw [State.acquired_linkBack]
  generalize (a.listed h es).linkBack = p at *
  generalize a.listed h es = u at *
  exact read.until (fun k => by rw [back]; rfl) (by rw [back]) (by rw [back])

end Acquired

/-! ### After the directory -/

/-- R83 to R85, R135: what the last telegram of a directory leaves of the tanks and of the poll queue, and the exchange after it. -/
theorem GoodEnd.directory {refresh stop : Bool} {es : List DirEntry} {s a p : State} (ended : GoodEnd refresh stop s a)
    (taken : ContentTaken a p) (read : DirectoryRead es a p) : let t := p.chooseNext
    ((∀ k, DirectoryApplied es k (s.tank k) (t.tank k))
      ∧ (∀ k, s.tank k = none → t.tank k ≠ none → k ∈ t.link.poll)
      ∧ ∀ k, s.tank k ≠ none → t.tank k = none → k ∉ t.link.poll)
    ∧ (PollFollows s → NextAfterDirectory es s t) := by
  have told := read.since (s := s) (fun k => by rw [ended.whole]; rfl) (by rw [ended.link]) (by rw [ended.link])
  have next := ended.nextFrom taken
  have polled := p.chooseNext_poll
  have tank (k : TankId) : p.chooseNext.tank k = p.tank k := by rw [State.chooseNext_eq]; rfl
  simp only [tank, polled]
  refine ⟨⟨told.record, told.joined, told.left⟩, fun follows => ?_⟩
  rw [told.poll follows, told.advices] at next
  unfold NextAfterDirectory
  simp only [tank]
  exact next

end Sys2Proof.Machine
end

section
/-! SUPPORT. The telegrams of an acquisition and of a refresh (R125, R131 to R133), each with its STOP flag, its judgement and the next
exchange. -/

namespace Sys2Proof.Machine

/-! ### The arrivals (R125) -/

theorem execHeaderReply_good {s : State} {x : Exchange} {tele : List Byte} {stop : Bool} {h : Header}
    (sent : s.link.exchange = some x) (whole : x.part = none) (query : x.query = .header)
    (good : readReply .header tele = some { stop := stop, more := false, body := .header h }) :
    exec (.headerReply tele) s = .next ((s.stopTold x.refresh stop).takeHeader x.refresh h).chooseNext := by
  have taken : s.takeReply Query.isHeader false tele = s.endGood x stop (.header h) := by
    simp [State.takeReply, sent, whole, query, good, Query.isHeader]
  have ended : s.endGood x stop (.header h) = ((s.stopTold x.refresh stop).takeHeader x.refresh h).chooseNext := by
    simp [State.endGood, State.takeBody, State.stopTold, query]
  exact congrArg Host.Outcome.next (taken.trans ended)

/-- R125: the arrival `c` gathers the entry `e` with its STOP flag: a whole ENTRY reply, or the continuation of one. -/
def EntryGathered (c : Instr) (x : Exchange) (i : Nat) (stop : Bool) (e : DirEntry) : Prop :=
  x.query = .entry i
    ∧ ((∃ tele, c = .entryReply tele ∧ x.part = none
          ∧ readReply (.entry i) tele = some { stop := stop, more := false, body := .entry e })
      ∨ ∃ tele p name, c = .continuation tele ∧ x.part = some p ∧ readContinuation i tele = some name
          ∧ stop = p.stop ∧ e = { p.entry with name := some name })

theorem EntryGathered.run {s : State} {c : Instr} {x : Exchange} {i : Nat} {stop : Bool} {e : DirEntry}
    (gathered : EntryGathered c x i stop e) (sent : s.link.exchange = some x) :
    exec c s = .next ((s.stopTold x.refresh stop).takeEntry x.refresh e).chooseNext := by
  obtain ⟨query, ⟨tele, rfl, whole, good⟩ | ⟨tele, p, name, rfl, part, good, rfl, rfl⟩⟩ := gathered
  · have taken : s.takeReply Query.takesMore false tele = s.endGood x stop (.entry e) := by
      simp [State.takeReply, sent, whole, query, good, Query.takesMore]
    have ended : s.endGood x stop (.entry e) = ((s.stopTold x.refresh stop).takeEntry x.refresh e).chooseNext := by
      simp [State.endGood, State.takeBody, State.stopTold, query]
    exact congrArg Host.Outcome.next (taken.trans ended)
  · have taken : s.takeContinuation tele = s.endGood x p.stop (.entry { p.entry with name := some name }) := by
      simp [State.takeContinuation, sent, part, query, good]
    have ended : s.endGood x p.stop (.entry { p.entry with name := some name }) =
        ((s.stopTold x.refresh p.stop).takeEntry x.refresh { p.entry with name := some name }).chooseNext := by
      simp [State.endGood, State.takeBody, State.stopTold, query]
    exact congrArg Host.Outcome.next (taken.trans ended)

/-! ### The next telegram of an acquisition (R131) -/

/-- R131: in ACQUIRING the next telegram of the acquisition is sent. -/
theorem State.chooseNext_acquiring {p : State} {a : Acquisition} (idle : p.link.exchange = none)
    (acquiring : p.link.state = .acquiring) (acq : p.link.acq = some a) :
    p.chooseNext = p.sendQuery (nextTelegram a.header a.next) false := by
  simp [State.chooseNext, idle, acquiring, acq]

section Telegrams

variable {s a : State} {stop : Bool}

/-- R131: a telegram of the acquisition before its last one: the progress kept, and the next telegram sent. -/
theorem GoodEnd.acquiring_next (ended : GoodEnd false stop s a) (acquiring : s.link.state = .acquiring) (header : Header) (n att : Nat)
    (es : List DirEntry) :
    let p := a.modLink fun k => { k with acq := some { header := some header, next := n, attempts := att, entries := es } }
    ContentTaken a p ∧ p.chooseNext.link.state = .acquiring
      ∧ p.chooseNext.link.acq = some { header := some header, next := n, attempts := att, entries := es }
      ∧ p.chooseNext.link.exchange = some { query := .entry n, refresh := false, window := s.settings.window, part := none }
      ∧ p.chooseNext.tanks = s.tanks := by
  intro p
  have taken : ContentTaken a p := .of_progress a a.link.refresh _
  have settings : a.settings = s.settings := by rw [ended.whole]
  have tanks : a.tanks = s.tanks := by rw [ended.whole]
  have state : a.link.state = .acquiring := ended.acquiring.mpr acquiring
  rw [State.chooseNext_acquiring (ended.idle taken) state rfl, ← settings, ← tanks]
  exact ⟨taken, state, rfl, rfl, rfl⟩

/-- R133: a telegram of the refresh before its last one: the progress kept. -/
theorem GoodEnd.refreshing_next {refresh : Bool} (ended : GoodEnd refresh stop s a) (r : Refresh) :
    let p := a.modLink fun k => { k with refresh := some r }
    ContentTaken a p ∧ p.chooseNext.link.refresh = some r ∧ p.chooseNext.link.rev = s.link.rev ∧ p.chooseNext.tanks = s.tanks
      ∧ OutcomeJudged false s p.chooseNext ∧ NextBegins s p.chooseNext := by
  intro p
  have taken : ContentTaken a p := .of_progress a (some r) a.link.acq
  have judged := ended.judged_later taken rfl rfl rfl rfl rfl rfl
  have next := ended.nextFrom taken
  have advices : p.link.advices = s.link.advices := by
    change a.link.advices = _
    rw [ended.link]
  have poll : p.link.poll = s.link.poll := by
    change a.link.poll = _
    rw [ended.link]
  have rev : p.link.rev = s.link.rev := by
    change a.link.rev = _
    rw [ended.link]
  have tanks : p.tanks = s.tanks := by
    change a.tanks = _
    rw [ended.whole]
  rw [advices, poll] at next
  have chosen := p.chooseNext_eq
  refine ⟨taken, ?_, ?_, ?_, judged, next⟩
  · rw [chosen]
    rfl
  · rw [chosen]
    exact rev
  · rw [chosen]
    exact tanks

end Telegrams

/-! ### Header (R131, R133) -/

theorem headerReply_acquires {s : State} {x : Exchange} {a : Acquisition} {tele : List Byte} {stop : Bool} {h : Header}
    (acquiring : s.link.state = .acquiring) (sent : s.link.exchange = some x) (whole : x.part = none) (own : x.refresh = false)
    (query : x.query = .header) (acq : s.link.acq = some a)
    (good : readReply .header tele = some { stop := stop, more := false, body := .header h }) :
    ∃ t, exec (.headerReply tele) s = .next t ∧ t.link.stop = some stop ∧ StopTaken stop s t ∧ t.link.state = .acquiring
      ∧ t.link.acq = some { a with header := some h, next := 1, attempts := 0 }
      ∧ t.link.exchange = some { query := .entry 1, refresh := false, window := s.settings.window, part := none }
      ∧ t.tanks = s.tanks ∧ t.lineups = s.lineups ∧ t.port = s.port ∧ KeepsBase s t ∧ KeepsTrips s t := by
  have run := execHeaderReply_good sent whole query good
  have ended := s.stopTold_goodEnd false stop
  have distinct := s.stopTold_distinct false stop
  rw [own] at run
  generalize s.stopTold false stop = w at *
  have kept : w.takeHeader false h =
      w.modLink fun k => { k with acq := some { header := some h, next := 1, attempts := 0, entries := a.entries } } := by
    have acq : w.link.acq = some a := by rw [ended.link, ← acq]
    unfold State.takeHeader State.modLink
    simp [acq]
  obtain ⟨taken, state, progress, exchange, tanks⟩ := ended.acquiring_next acquiring h 1 0 a.entries
  rw [← kept] at taken state progress exchange tanks
  obtain ⟨told, stops, -, lineups, port, base, trips⟩ := ended.kept distinct taken
  exact ⟨_, run, told, stops, state, progress, exchange, tanks, lineups, port, base, trips⟩

theorem headerReply_refreshes {s : State} {x : Exchange} {p : Refresh} {tele : List Byte} {stop : Bool} {h : Header}
    (sent : s.link.exchange = some x) (whole : x.part = none) (due : x.refresh = true)
    (query : x.query = .header) (refresh : s.link.refresh = some p)
    (good : readReply .header tele = some { stop := stop, more := false, body := .header h }) :
    ∃ t, exec (.headerReply tele) s = .next t ∧ t.link.stop = some stop ∧ StopTaken stop s t
      ∧ t.link.refresh = some { p with header := some h, next := 1 } ∧ t.link.rev = s.link.rev
      ∧ OutcomeJudged false s t ∧ NextBegins s t ∧ t.link.spacing = 0
      ∧ t.tanks = s.tanks ∧ t.lineups = s.lineups ∧ t.port = s.port ∧ KeepsBase s t ∧ KeepsTrips s t := by
  have run := execHeaderReply_good sent whole query good
  have ended := s.stopTold_goodEnd true stop
  have distinct := s.stopTold_distinct true stop
  rw [due] at run
  generalize s.stopTold true stop = w at *
  have kept : w.takeHeader true h = w.modLink fun k => { k with refresh := some { p with header := some h, next := 1 } } := by
    have refresh : w.link.refresh = some p := by rw [ended.link, ← refresh]
    unfold State.takeHeader State.modLink
    simp [refresh]
  obtain ⟨taken, progress, rev, tanks, judged, next⟩ := ended.refreshing_next { p with header := some h, next := 1 }
  rw [← kept] at taken progress rev tanks judged next
  obtain ⟨told, stops, spacing, lineups, port, base, trips⟩ := ended.kept distinct taken
  exact ⟨_, run, told, stops, progress, rev, judged, next, spacing, tanks, lineups, port, base, trips⟩

/-! ### Entries (R131 to R133) -/

/-- R83 to R85: a directory applied between two states, as the statement says it. -/
def AppliedDirectory (es : List DirEntry) (s t : State) : Prop :=
  (∀ k, DirectoryApplied es k (s.tank k) (t.tank k))
    ∧ (∀ k, s.tank k = none → t.tank k ≠ none → k ∈ t.link.poll)
    ∧ ∀ k, s.tank k ≠ none → t.tank k = none → k ∉ t.link.poll

theorem entry_acquires {s : State} {x : Exchange} {i n att : Nat} {h : Header} {es : List DirEntry} {c : Instr} {stop : Bool}
    {e : DirEntry} (acquiring : s.link.state = .acquiring) (sent : s.link.exchange = some x) (own : x.refresh = false)
    (gathered : EntryGathered c x i stop e)
    (acq : s.link.acq = some { header := some h, next := n, attempts := att, entries := es }) :
    ∃ t, exec c s = .next t ∧ t.link.stop = some stop ∧ StopTaken stop s t
      ∧ (n < h.count → t.link.state = .acquiring ∧ t.tanks = s.tanks
          ∧ t.link.acq = some { header := some h, next := n + 1, attempts := 0, entries := es ++ [e] }
          ∧ t.link.exchange =
              some { query := .entry (n + 1), refresh := false, window := s.settings.window, part := none })
      ∧ (h.count ≤ n → t.link.state = .good ∧ t.link.acq = none ∧ t.link.rev = some h.revision ∧ t.link.window = []
          ∧ t.link.failRun = 0 ∧ t.link.lastAcq = some (.pass h.count h.revision) ∧ AppliedDirectory (es ++ [e]) s t
          ∧ (PollFollows s → NextAfterDirectory (es ++ [e]) s t))
      ∧ t.link.spacing = min 15 (s.link.spacing + 1)
      ∧ t.lineups = s.lineups ∧ t.port = s.port ∧ KeepsBase s t ∧ KeepsTrips s t := by
  have run := gathered.run sent
  have ended := s.stopTold_goodEnd false stop
  have distinct := s.stopTold_distinct false stop
  rw [own] at run
  generalize s.stopTold false stop = w at *
  have acq : w.link.acq = some { header := some h, next := n, attempts := att, entries := es } := by rw [ended.link, ← acq]
  by_cases last : h.count ≤ n
  · have made : w.takeEntry false e = w.acquired h (es ++ [e]) := by
      simp [State.takeEntry, acq, last]
    have taken := w.acquired_taken h (es ++ [e]) (ended.acquiring.mpr acquiring)
    have link := w.acquired_link h (es ++ [e])
    obtain ⟨applied, next⟩ := ended.directory taken (w.acquired_read h (es ++ [e]))
    obtain ⟨told, stops, spacing, lineups, port, base, trips⟩ := ended.kept distinct taken
    rw [made] at run
    generalize w.acquired h (es ++ [e]) = p at *
    have chosen := p.chooseNext_eq
    generalize p.chooseNext = t at *
    have result : t.link.state = .good ∧ t.link.acq = none ∧ t.link.rev = some h.revision ∧ t.link.window = []
        ∧ t.link.failRun = 0 ∧ t.link.lastAcq = some (.pass h.count h.revision) := by
      rw [chosen]
      simp only []
      rw [link]
      exact ⟨rfl, rfl, rfl, rfl, rfl, rfl⟩
    obtain ⟨state, done, rev, window, failRun, pass⟩ := result
    exact ⟨t, run, told, stops, fun more => absurd more (Nat.not_lt.mpr last),
      fun _ => ⟨state, done, rev, window, failRun, pass, applied, next⟩, spacing, lineups, port, base, trips⟩
  · have made : w.takeEntry false e =
        w.modLink fun k => { k with acq := some { header := some h, next := n + 1, attempts := 0, entries := es ++ [e] } } := by
      simp [State.takeEntry, acq, last]
    obtain ⟨taken, state, progress, exchange, tanks⟩ := ended.acquiring_next acquiring h (n + 1) 0 (es ++ [e])
    rw [← made] at taken state progress exchange tanks
    obtain ⟨told, stops, spacing, lineups, port, base, trips⟩ := ended.kept distinct taken
    exact ⟨_, run, told, stops, fun _ => ⟨state, tanks, progress, exchange⟩, fun full => absurd full last, spacing, lineups, port,
      base, trips⟩

theorem entry_refreshes {s : State} {x : Exchange} {i n : Nat} {h : Header} {es : List DirEntry} {c : Instr} {stop : Bool}
    {e : DirEntry} (sent : s.link.exchange = some x) (due : x.refresh = true) (gathered : EntryGathered c x i stop e)
    (refresh : s.link.refresh = some { header := some h, next := n, entries := es }) :
    ∃ t, exec c s = .next t ∧ t.link.stop = some stop ∧ StopTaken stop s t
      ∧ (n < h.count → t.link.refresh = some { header := some h, next := n + 1, entries := es ++ [e] }
          ∧ t.link.rev = s.link.rev ∧ t.tanks = s.tanks ∧ NextBegins s t)
      ∧ (h.count ≤ n → t.link.refresh = none ∧ t.link.rev = some h.revision ∧ AppliedDirectory (es ++ [e]) s t
          ∧ (PollFollows s → NextAfterDirectory (es ++ [e]) s t))
      ∧ OutcomeJudged false s t ∧ t.link.spacing = 0
      ∧ t.lineups = s.lineups ∧ t.port = s.port ∧ KeepsBase s t ∧ KeepsTrips s t := by
  have run := gathered.run sent
  have ended := s.stopTold_goodEnd true stop
  have distinct := s.stopTold_distinct true stop
  rw [due] at run
  generalize s.stopTold true stop = w at *
  have refresh : w.link.refresh = some { header := some h, next := n, entries := es } := by rw [ended.link, ← refresh]
  by_cases last : h.count ≤ n
  · have made : w.takeEntry true e = w.refreshed h (es ++ [e]) := by
      simp [State.takeEntry, refresh, last]
    have taken := w.refreshed_taken h (es ++ [e])
    have whole := w.refreshed_eq h (es ++ [e])
    obtain ⟨applied, next⟩ := ended.directory taken (w.refreshed_read h (es ++ [e]))
    obtain ⟨told, stops, spacing, lineups, port, base, trips⟩ := ended.kept distinct taken
    rw [made] at run
    generalize w.refreshed h (es ++ [e]) = p at *
    have judged := ended.judged_later taken (by rw [whole]) (by rw [whole]) (by rw [whole]) (by rw [whole]) (by rw [whole])
      (by rw [whole])
    have chosen := p.chooseNext_eq
    generalize p.chooseNext = t at *
    have result : t.link.refresh = none ∧ t.link.rev = some h.revision := by
      rw [chosen]
      simp only []
      rw [whole]
      exact ⟨rfl, rfl⟩
    exact ⟨t, run, told, stops, fun more => absurd more (Nat.not_lt.mpr last), fun _ => ⟨result.1, result.2, applied, next⟩, judged,
      spacing, lineups, port, base, trips⟩
  · have made : w.takeEntry true e =
        w.modLink fun k => { k with refresh := some { header := some h, next := n + 1, entries := es ++ [e] } } := by
      simp [State.takeEntry, refresh, last]
    obtain ⟨taken, progress, rev, tanks, judged, next⟩ :=
      ended.refreshing_next { header := some h, next := n + 1, entries := es ++ [e] }
    rw [← made] at taken progress rev tanks judged next
    obtain ⟨told, stops, spacing, lineups, port, base, trips⟩ := ended.kept distinct taken
    exact ⟨_, run, told, stops, fun _ => ⟨progress, rev, tanks, next⟩, fun full => absurd full last, judged, spacing, lineups, port,
      base, trips⟩

/-! ### A reply with MORE, and a LEVEL reply with another revision (R125, R133) -/

theorem entryReplyMore_waits {s : State} {x : Exchange} {i : Nat} {tele : List Byte} {stop : Bool} {e : DirEntry}
    (sent : s.link.exchange = some x) (whole : x.part = none) (query : x.query = .entry i)
    (good : readReply (.entry i) tele = some { stop := stop, more := true, body := .entry e }) :
    exec (.entryReplyMore tele) s = .next { s with
      link := { s.link with exchange := some { x with part := some { stop := stop, entry := e } } } } := by
  have taken : s.takeReply Query.takesMore true tele =
      s.modLink fun k => { k with exchange := some { x with part := some { stop := stop, entry := e } } } := by
    simp [State.takeReply, sent, whole, query, good, Query.takesMore]
  exact congrArg Host.Outcome.next taken

theorem levelReply_beginsRefresh {s : State} {x : Exchange} {tele : List Byte} {stop fault : Bool} {k : TankId} {v age rev : Nat}
    {w : ValveWord} (sent : s.link.exchange = some x) (whole : x.part = none) (query : x.query = .level k)
    (up : s.link.state ≠ .acquiring) (linked : s.link.gauging = .linked) (quiet : s.link.refresh = none)
    (other : s.link.rev ≠ some rev)
    (good : readReply (.level k) tele = some { stop := stop, more := false, body := .level v w fault age rev }) :
    ∃ t, exec (.levelReply tele) s = .next t ∧ t.link.rev = s.link.rev
      ∧ t.link.refresh = some { header := none, next := 0, entries := [] } := by
  have run := execLevelReply_good sent whole query good
  have ended := s.stopTold_goodEnd x.refresh stop
  generalize s.stopTold x.refresh stop = a at *
  have listed := a.levelReport_relisted { tank := k, volume := v, valve := w, fault := fault, age := age }
  generalize a.levelReport { tank := k, volume := v, valve := w, fault := fault, age := age } = b at *
  have sameRev : b.link.rev = s.link.rev := by rw [listed, ended.link]
  have sameState : b.link.state = a.link.state := by rw [listed]
  have sameGauging : b.link.gauging = s.link.gauging := by rw [listed, ended.link]
  have sameRefresh : b.link.refresh = s.link.refresh := by rw [listed, ended.link]
  have differs : ¬ (b.link.rev = some rev ∨ b.link.state = .acquiring ∨ b.link.gauging = .manual) := by
    rw [sameRev, sameState, sameGauging, ended.acquiring, linked]
    rintro (h | h | h)
    · exact other h
    · exact up h
    · cases h
  have compared := b.compareRevision_eq rev
  rw [if_neg differs, sameRefresh, quiet] at compared
  have chosen := (b.compareRevision rev).chooseNext_eq
  generalize (b.compareRevision rev).chooseNext = t at *
  refine ⟨t, run, ?_, ?_⟩
  · rw [chosen, compared]
    exact sameRev
  · rw [chosen, compared]
    rfl

/-- Settles O46: each telegram by the content it brings (`headerReply_acquires`, `headerReply_refreshes`, `entry_acquires`,
`entry_refreshes`), the directory by `State.applyDirectory_read`. -/
theorem directoryReplies : Obligations.DirectoryReplies :=
  ⟨fun _ _ _ _ _ _ acquiring sent whole own query acq good => headerReply_acquires acquiring sent whole own query acq good,
    fun _ _ _ _ _ _ sent whole due query refresh good => headerReply_refreshes sent whole due query refresh good,
    fun _ _ _ _ _ _ _ _ _ _ acquiring sent own gathered acq => entry_acquires acquiring sent own gathered acq,
    fun _ _ _ _ _ _ _ _ _ sent due gathered refresh => entry_refreshes sent due gathered refresh,
    fun _ _ _ _ _ _ sent whole query good => entryReplyMore_waits sent whole query good,
    fun _ _ _ _ _ _ _ _ _ _ sent whole query up linked quiet other good =>
      levelReply_beginsRefresh sent whole query up linked quiet other good⟩

end Sys2Proof.Machine
end
